-- ==== Sys2Proof/Word.lean ====
section
/-! DEFINITION. The word types of the module: registers are 32 bits wide (R11), core registers 64 (R129), local addresses 48 (R33),
requester numbers 12 (R28); the numberings of its units (R9, R10, R22); and the operand types of the commands that carry more than
numbers: clock domains (R29) and mesh packets (R325). -/

namespace Sys2Proof

/-- One byte. -/
abbrev Byte := BitVec 8

/-- A 32-bit register or element word. -/
abbrev Word := BitVec 32

/-- A 64-bit scalar register, Datum stamp or memory doubleword. -/
abbrev DWord := BitVec 64

/-- A 12-bit requester number (R28). -/
abbrev Requester := BitVec 12

/-- A core number, which also names its position, its router, its slice and its control station (R9). -/
abbrev CoreId := Fin 576

/-- A cluster number (R9). -/
abbrev ClusterId := Fin 144

/-- A logic die, 0 to 3 (R10). -/
abbrev LogicDie := Fin 4

/-- A die, 0 to 3 logic and 4 the hub (R10). -/
abbrev DieId := Fin 5

/-- A far device F0 to F19. -/
abbrev FarId := Fin 20

/-- A bank unit of a slice (R245). -/
abbrev BankId := Fin 64

/-- A fabric port P0 to P7. -/
abbrev PortId := Fin 8
/-- A port that frames come in at (R425, R483): a fabric port, or 8 for the companion port. -/
abbrev FramePort := Fin 9

/-- A link of a fabric port. -/
abbrev LinkIdx := Fin 12

/-- A partition number. -/
abbrev PartId := Fin 16

/-- An arrival or departure queue. -/
abbrev QueueId := Fin 64

/-- A function of the endpoint: 0 physical, 1 to 8 virtual. -/
abbrev FnId := Fin 9

/-- A scalar register G0 to G15, or a source field of an instruction (R129). -/
abbrev GReg := Fin 16

/-- An event counter number. -/
abbrev EvId := Fin 16

/-- The clock domains of R29 that have a lock detector of their own (R32). -/
inductive Domain where
  /-- Domain A of a logic die. -/
  | a (d : LogicDie)
  /-- Domain N of a logic die or of the hub (die 4). -/
  | n (d : DieId)
  /-- Domain M of a logic die. -/
  | m (d : LogicDie)
  /-- Domain F of a far-memory controller. -/
  | f (j : FarId)
  /-- Domain L of a fabric port's receive paths. -/
  | l (p : PortId)
  /-- Domain P, the PCIe endpoint. -/
  | p
  /-- Domain S, Ostler, service and housekeeping. -/
  | s
  /-- Domain D at the hub (die 4) or at a logic die's Datum receiver. -/
  | d (d : DieId)
  /-- Domain U, the companion port's receive path. -/
  | u
  /-- Domain K of one receive station of a die-to-die link (the station numbering of R493: 2d vertical, 2d + 1 hub link of logic
  die d, 8 + d the hub bridge to die d). -/
  | k (station : Fin 12)
  deriving DecidableEq, Repr

/-- What a head flit holds beside the fields that a packet's meaning uses (R325): STATUS, NDATA, the index of the next leg, STRIPED and MCAST
of CTRL, DEST, SRC and PATH, and whether a bit that must be 0 is set. A source interface fills it in at injection. -/
structure Head where
  status : Byte := 0
  ndata : Nat := 0
  leg : Fin 4 := 0
  striped : Bool := false
  mcast : Bool := false
  dest : BitVec 16 := 0
  src : BitVec 16 := 0
  path : BitVec 64 := 0
  rsvd : Bool := false
  deriving DecidableEq, Repr

/-- A mesh packet as its endpoint sees it (R325): requester, tag, fare, virtual channel, deadline, address, LEN, the bytes it carries and
one poison tag per 64-byte unit carried (one for INLINE). An atomic carries operand X in bytes 0 to 7 and C in bytes 8 to 15
(R329). -/
structure Packet where
  src : Requester
  tag : Nat
  fare : Byte
  vc : Fin 4
  deadline : Option (BitVec 16)
  addr : Nat
  len : Nat
  data : List Byte
  poison : List Bool
  head : Head
  deriving DecidableEq, Repr

/-- A fabric packet as a port sees it (R432, R433): destination and source unit, remaining hops, the atomic operation, the status of
a response, whether a bit of the head unit that must be 0 is set, and what it shares with a mesh packet: `src` is the requester at its
source unit, `data` and `poison` the data of a write or of a read response, one tag per unit. -/
structure FabPacket where
  dunit : BitVec 16
  sunit : BitVec 16
  hops : Byte
  op : Byte
  status : Byte
  p : Packet
  deriving DecidableEq, Repr

/-- How a link message comes to a port (R425, R447): its link, and of its link word ACK, CCH and CCNT (bits 31 to 15) and the CRC. TYPE is LINK and
the bits of CH and SEQ are 0. -/
structure Arrival where
  link : LinkIdx
  back : BitVec 17
  crc : BitVec 24
  deriving DecidableEq, Repr

/-- Whose distances a VECTOR part holds, and which part it is (R447). -/
structure VectorPart where
  unit : BitVec 16
  part : Fin 4
  deriving DecidableEq, Repr

/-- T2 and T3 of a DRSP (R455). -/
structure Turn where
  t2 : DWord
  t3 : DWord
  deriving DecidableEq, Repr

/-- A branch of a multicast packet at a router on a virtual channel (R345, R347): 0 the local delivery, 1 toward higher x, 2 toward higher y. -/
structure Branch where
  router : CoreId
  branch : Fin 3
  vc : Fin 4
  deriving DecidableEq, Repr

/-- A lane of a die-to-die station's receive direction (R468, R493). -/
structure LaneId where
  station : Fin 12
  group : Fin 80
  lane : Fin 10
  deriving DecidableEq, Repr

/-- A reset block that runs commands (R523): a core's, a logic die's for its clusters, or the hub's for partitions. -/
inductive RstUnit where
  | core (c : CoreId)
  | cluster (d : LogicDie)
  | partition
  deriving DecidableEq, Repr

/-- What a configuration request names of a function's configuration space, as far as the manual uses it (R380, R383, R389, R393,
R394): identity, Bus Master Enable, the maximum payload size, MSI-X Enable (bit 0) and Function Mask (bit 1), VF Enable, and the sizes
held in the Resizable BAR and VF Resizable BAR capabilities; VF Device ID, whether ARI is supported, the Completion Timeout ranges (bits 0
to 3 for A to D), the link as trained (log2 of its width, and its rate from bit 4 on), AER status (bit 0 Unsupported Request, 1 Completer
Abort, 2 poisoned TLP sent) and the power state (0 D0, 3 D3hot). -/
inductive ConfigReg where
  | vendorId | deviceId | classCode | totalVfs | busMaster | mps | msix | vfEnable | bar2Size | vfBar2Size
  | vfDeviceId | ari | cplRanges | link | aer | power | tags | aerMask | aerSeverity | aerCor | aerCorMask | aerCaps | aerHeader (i : Fin 4)
  deriving DecidableEq, Repr

end Sys2Proof
end

