-- ==== Sys2Proof/Syntax.lean ====
section
/-! DEFINITION. The commands of the module, one constructor per row of the command table, in its order. Operands: units are numbered
types of Word.lean, so no command names a unit the module does not have; what else an operand must satisfy is in WellFormed.lean. -/

namespace Sys2Proof

/-- A command (one row of the table). A core instruction carries its core and the fields that its row of R130, R351 or R404 names
(R129); a row of an engine acts on the descriptor at the head of that engine's queue; a row that is a register write carries the
requester that writes. -/
inductive Instr where
  /-- R12: Aligned 32-bit write to a register that has no row of its own; it sets, clears or ignores fields according to their
    access type. -/
  | registerWrite (req : Requester) (addr : Nat) (size : Nat) (value : DWord)
  /-- R32: A PLL or CDR loses lock; the units of that domain are held in reset and the consequences for that domain follow. -/
  | clockLoss (d : Domain)
  /-- R32: A domain regains lock; for domain D, Datum tracking and aligned stamping resume. -/
  | clockLockReturn (d : Domain)
  /-- R32: Domain F lock has not returned within 2 ms; the controller marks its device lost and completes its requests
    DEVICE-LOST. -/
  | farLockTimeout (f : FarId)
  /-- R69: PLT_CMD OP 1 sets BUSY, then reads and checks the header and directory of a module-scope plat. -/
  | loadModuleScope (req : Requester)
  /-- R69: PLT_CMD OP 2 sets BUSY, then reads and checks the header and directory of a partition-scope plat. -/
  | loadPartitionScope (req : Requester) (part : PartId)
  /-- R78: PLT_CMD OP 3 stops a RUNNING partition with its drain bound. -/
  | pltStop (req : Requester) (part : PartId)
  /-- R78: PLT_CMD OP 4 moves a STOPPED or FAILED partition to ABSENT. -/
  | pltRemove (req : Requester) (part : PartId)
  /-- R74: PLT_CMD OP 5 to 7 ends at once with BAD_COMMAND. -/
  | pltCmdReserved (req : Requester) (op : Fin 3) (part : PartId)
  /-- R69: The SHAKE accelerator finishes the digest; the section checks and the admission check of step 3 then run in the order
    of R70. -/
  | digestVerified
  /-- R69: The drain of the target partitions in step 4 ends; the die load stations begin step 5, or a STOP completes to STOPPED.
    -/
  | quiesceDone
  /-- R69: The die load stations finish step 5; cores are released at ENTRY, partitions enter RUNNING and DONE is set. -/
  | loadWriteDone (failed : Option LogicDie)
  /-- R130: Instruction that does nothing. -/
  | nop (c : CoreId)
  /-- R124: Instruction that stops fetching. -/
  | halt (c : CoreId)
  /-- R124: After HALT, all engine queues are empty and all descriptors completed; the core becomes HALTED. -/
  | haltComplete (c : CoreId)
  /-- R130: Loads the sign-extended immediate into a register. -/
  | li (c : CoreId) (dst : GReg) (imm : Word)
  /-- R130: Loads the immediate into the upper 32 bits of a register. -/
  | lih (c : CoreId) (dst : GReg) (imm : Word)
  /-- R130: Scalar add of two registers and an immediate. -/
  | add (c : CoreId) (dst : GReg) (src1 : GReg) (src2 : GReg) (imm : Word)
  /-- R130: Scalar subtract. -/
  | sub (c : CoreId) (dst : GReg) (src1 : GReg) (src2 : GReg)
  /-- R130: Scalar bitwise AND. -/
  | and (c : CoreId) (dst : GReg) (src1 : GReg) (src2 : GReg)
  /-- R130: Scalar bitwise OR. -/
  | or (c : CoreId) (dst : GReg) (src1 : GReg) (src2 : GReg)
  /-- R130: Scalar bitwise XOR. -/
  | xor (c : CoreId) (dst : GReg) (src1 : GReg) (src2 : GReg)
  /-- R130: Scalar shift left. -/
  | shl (c : CoreId) (dst : GReg) (src1 : GReg) (imm : Word)
  /-- R130: Scalar logical shift right. -/
  | shr (c : CoreId) (dst : GReg) (src1 : GReg) (imm : Word)
  /-- R130: Scalar multiply, low 64 bits. -/
  | mul (c : CoreId) (dst : GReg) (src1 : GReg) (src2 : GReg)
  /-- R132: Loads 8 bytes of scratch into a register. -/
  | ld (c : CoreId) (dst : GReg) (src1 : GReg) (imm : Word)
  /-- R132: Stores 8 bytes of a register to scratch. -/
  | st (c : CoreId) (src1 : GReg) (src2 : GReg) (imm : Word)
  /-- R131: Branches when the condition holds. -/
  | br (c : CoreId) (cond : Fin 16) (src1 : GReg) (src2 : GReg) (imm : Word)
  /-- R145: Issues a matrix-pass descriptor into the matrix queue. -/
  | mpass (c : CoreId) (src1 : GReg) (ev : EvId) (even : Bool)
  /-- R149: Queues a conversion-word update for the array output path. -/
  | mcvt (c : CoreId) (src1 : GReg) (ev : EvId) (even : Bool) (imm : Word)
  /-- R172: Issues a vector descriptor into the vector queue. -/
  | vop (c : CoreId) (src1 : GReg) (ev : EvId) (even : Bool)
  /-- R220: Issues a DMA descriptor into the DMA queue. -/
  | dma (c : CoreId) (src1 : GReg) (ev : EvId) (even : Bool)
  /-- R260: Issues a bank-operation descriptor into the bank-operation queue. -/
  | bop (c : CoreId) (src1 : GReg) (ev : EvId) (even : Bool)
  /-- R200: Issues an attention descriptor into the vector queue. -/
  | atn (c : CoreId) (src1 : GReg)
  /-- R130: Waits until an event counter reaches its target; otherwise the core enters WAITING. -/
  | wait (c : CoreId) (src1 : GReg) (ev : EvId)
  /-- R137: The awaited event counter reaches its target and the WAITING core resumes. -/
  | waitSatisfied (c : CoreId)
  /-- R128: A WAIT, CRECV, QTAKEW or QPUTW stays unsatisfied past the SEQ_CFG limit; the core faults. -/
  | waitTimeout (c : CoreId)
  /-- R130: Reads an event counter into a register. -/
  | evrd (c : CoreId) (dst : GReg) (ev : EvId)
  /-- R130: Sets the current fare tag. -/
  | task (c : CoreId) (imm : Word)
  /-- R130: Reads the Datum into a register. -/
  | datum (c : CoreId) (dst : GReg)
  /-- R139: A reserved opcode or forbidden field is fetched; the core faults with OP_INVALID. -/
  | reservedOpcode (c : CoreId) (word : DWord)
  /-- R148: A pass descriptor leaves the matrix queue, is checked, and loads its bundle into the shadow registers. -/
  | matrixPassStart (c : CoreId)
  /-- R161: The last row of a pass is written, flags and monitor slots are posted, and the event counter is incremented. -/
  | matrixPassComplete (c : CoreId)
  /-- R159: The vector engine releases a ring row and the stalled array resumes writing. -/
  | matrixRingReleaseWaitEnd (c : CoreId)
  /-- R149: A queued MCVT takes effect in matrix-queue order and sets MXA_CVTn. -/
  | mcvtApply (c : CoreId)
  /-- R173: Vector COPY operation, with optional conversion. -/
  | vecCopy (c : CoreId)
  /-- R173: Vector element-wise add. -/
  | vecAdd (c : CoreId)
  /-- R173: Vector element-wise subtract. -/
  | vecSub (c : CoreId)
  /-- R173: Vector element-wise multiply. -/
  | vecMul (c : CoreId)
  /-- R173: Vector fused multiply-add into the destination. -/
  | vecFma (c : CoreId)
  /-- R173: Vector element-wise maximum. -/
  | vecMax (c : CoreId)
  /-- R173: Vector element-wise minimum. -/
  | vecMin (c : CoreId)
  /-- R173: Vector absolute value. -/
  | vecAbs (c : CoreId)
  /-- R173: Vector negation. -/
  | vecNeg (c : CoreId)
  /-- R174: Vector reciprocal. -/
  | rcp (c : CoreId)
  /-- R174: Vector reciprocal square root. -/
  | rsqrt (c : CoreId)
  /-- R174: Vector power of two. -/
  | exp2 (c : CoreId)
  /-- R174: Vector 2^((A − B) × L). -/
  | expsub (c : CoreId)
  /-- R174: Vector sigmoid. -/
  | sigmoid (c : CoreId)
  /-- R174: Vector SiLU. -/
  | silu (c : CoreId)
  /-- R175: Row maximum over the active lanes into a column. -/
  | rowmax (c : CoreId)
  /-- R175: Row sum by a fixed pairwise tree into a column. -/
  | rowsum (c : CoreId)
  /-- R175: Row sum of squares into a column. -/
  | rowssq (c : CoreId)
  /-- R176: Compares A < B into a mask. -/
  | cmplt (c : CoreId)
  /-- R176: Compares A ≤ B into a mask. -/
  | cmple (c : CoreId)
  /-- R176: Compares A = B into a mask. -/
  | cmpeq (c : CoreId)
  /-- R176: Compares A ≠ B into a mask. -/
  | cmpne (c : CoreId)
  /-- R190: Sets a vector conversion word and its scale destination. -/
  | setcvt (c : CoreId)
  /-- R190: Sets a mask register. -/
  | setmask (c : CoreId)
  /-- R190: Combines two masks. -/
  | maskop (c : CoreId)
  /-- R190: Builds a mask from the lane flags of a tile. -/
  | fmask (c : CoreId)
  /-- R189: Clears the selected flags of the named tiles. -/
  | fclr (c : CoreId)
  /-- R190: Writes a tile's lane flags to scratch. -/
  | fstore (c : CoreId)
  /-- R117: Clears range-monitor slots. -/
  | monclr (c : CoreId)
  /-- R190: Writes the range-monitor slots to scratch. -/
  | monrd (c : CoreId)
  /-- R193: A vector descriptor with a reserved OP is rejected DESC_INVALID. -/
  | vecReservedOp (c : CoreId)
  /-- R191: A vector or attention descriptor completes; flags, slots and masks are posted and the event counter is incremented. -/
  | vecDescComplete (c : CoreId)
  /-- R185: A ring row becomes written and the waiting ring read proceeds. -/
  | vecRingRowReady (c : CoreId)
  /-- R186: A ring read waits for a row that can never be written; the descriptor ends RING_SHORT. -/
  | ringShort (c : CoreId)
  /-- R202: Initialises the online-softmax state. -/
  | atnInit (c : CoreId)
  /-- R202: Rescales O and l to new running maxima. -/
  | atnRescale (c : CoreId)
  /-- R203: Merges a second attention state into the first. -/
  | atnMerge (c : CoreId)
  /-- R202: Normalises O by l and writes the output rows, optionally with LSE. -/
  | atnFinish (c : CoreId)
  /-- R223: DMA COPY of N bytes, locally or to a remote unit. -/
  | dmaCopy (c : CoreId)
  /-- R223: DMA transposing copy of an unscaled matrix. -/
  | tcopy (c : CoreId)
  /-- R224: Gathers keys and values of a roll into tiles in scratch. -/
  | gather (c : CoreId)
  /-- R225: Appends tokens to a roll, with billet pops and copy-on-write. -/
  | append (c : CoreId)
  /-- R226: Makes a child roll share a prefix of a parent roll. -/
  | share (c : CoreId)
  /-- R227: Shortens a roll and releases its billets. -/
  | release (c : CoreId)
  /-- R233: Sends a ring block to the next member's landing slot. -/
  | rsend (c : CoreId)
  /-- R233: RSEND rereads a FULL slot header at its polling interval. -/
  | rsendPoll (c : CoreId)
  /-- R233: After every payload write has completed, RSEND writes the slot header as FULL. -/
  | rsendHeaderWrite (c : CoreId)
  /-- R235: Waits for a FULL ring block with the expected STEP. -/
  | rwait (c : CoreId)
  /-- R235: RWAIT rereads the slot header at its polling interval. -/
  | rwaitPoll (c : CoreId)
  /-- R235: RSEND or RWAIT exceeds its SP timeout and ends RING_TIMEOUT. -/
  | ringTimeout (c : CoreId)
  /-- R235: Sets a local landing slot to EMPTY. -/
  | rfree (c : CoreId)
  /-- R229: A DMA descriptor with a reserved OP is rejected DESC_INVALID. -/
  | dmaReservedOp (c : CoreId)
  /-- R222: A DMA descriptor ends; its result word is written and its event counter incremented. -/
  | dmaDescComplete (c : CoreId)
  /-- R214: The table unit pops k billets from the free list, or refuses all of them. -/
  | tablePop (c : CoreId) (k : Nat)
  /-- R214: The table unit adds 1 to a list of reference counts, or changes none. -/
  | tableIncref (c : CoreId) (billets : List Nat)
  /-- R214: The table unit subtracts 1 from a list of reference counts and frees billets that reach 0. -/
  | tableDecref (c : CoreId) (billets : List Nat)
  /-- R239: A hearth relay forwards a block that has become FULL to the next member and frees its slot. -/
  | relayForward (c : CoreId)
  /-- R261: Bank operation FILL. -/
  | bopFill (c : CoreId)
  /-- R261: Bank operation COPY with conversion. -/
  | bopCopy (c : CoreId)
  /-- R261: Bank operation ADD. -/
  | bopAdd (c : CoreId)
  /-- R261: Bank operation SUB. -/
  | bopSub (c : CoreId)
  /-- R261: Bank operation MUL. -/
  | bopMul (c : CoreId)
  /-- R261: Bank operation FMA. -/
  | bopFma (c : CoreId)
  /-- R261: Bank operation S × A + B. -/
  | axpy (c : CoreId)
  /-- R261: Bank operation S × A + T. -/
  | affine (c : CoreId)
  /-- R267: Bank operation that applies an activation table. -/
  | act (c : CoreId)
  /-- R268: Loads an activation table slot into all bank units. -/
  | loadtab (c : CoreId)
  /-- R279: A bank descriptor with a reserved OP is rejected DESC_INVALID. -/
  | bopReservedOp (c : CoreId)
  /-- R272: The slice cache finishes writing back and invalidating the protected ranges; page steps begin. -/
  | bopCleanDone (sl : CoreId)
  /-- R272: A bank unit ends a page step; waiting reads and table requests are served at the page boundary. -/
  | pageStepEnd (sl : CoreId) (bank : BankId)
  /-- R273: The last page step ends; protection ends, the result word is written and the event counter incremented. -/
  | bopComplete (sl : CoreId)
  /-- R252: A bank's refresh interval expires; it refreshes for tRFC, after any page step in progress. -/
  | refresh (sl : CoreId) (bank : BankId)
  /-- R256: The page-code engine recomputes a pending page's strong code and clears its mark. -/
  | pageRecompute (sl : CoreId) (page : Fin 327680)
  /-- R300: A queued slow path reaches a decoder and reads the whole page. -/
  | slowPathBegin (u : Fin 24)
  /-- R300: A slow path delivers the word repaired or poisoned and releases held writes. -/
  | slowPathDone (u : Fin 24)
  /-- R302: 16 consecutive parity or CRC errors start a far-memory bus retraining. -/
  | fmcRetrain (f : FarId)
  /-- R302: A retraining attempt ends; requests resume, or after two failures the device is marked lost. -/
  | fmcRetrainDone (f : FarId) (ok : Bool)
  /-- R303: A write of 1 to FMC_CTL.ISOLATE isolates the far device until module reset. -/
  | fmcIsolate (req : Requester) (f : FarId)
  /-- R305: SCB_CMD OP 1 starts a scan of a range. -/
  | scrubScan (req : Requester) (d : LogicDie) (kind : Fin 4) (unit : Byte) (fare : Byte)
  /-- R306: SCB_CMD OP 2 starts a scan and repair of a range. -/
  | scrubRepair (req : Requester) (d : LogicDie) (kind : Fin 4) (unit : Byte) (fare : Byte)
  /-- R308: SCB_CMD OP 3 aborts the scrub at the next page boundary. -/
  | scrubAbort (req : Requester) (d : LogicDie)
  /-- R306: The scrubber visits one page and acts on its condition. -/
  | scrubPage (d : LogicDie)
  /-- R309: A scrub ends; the summary record is written and DONE is set. -/
  | scrubDone (d : LogicDie)
  /-- R304: SCB_RPR_CMD GO starts the field repair of a page onto a spare row. -/
  | fieldRepair (req : Requester) (d : LogicDie) (kind : Fin 4) (unit : Byte)
  /-- R304: The page is written to the spare row and released. -/
  | fieldRepairCopyDone (d : LogicDie)
  /-- R304: Ostler programs the fuse, records the repair in the Ledger and sets DONE. -/
  | fieldRepairDone (d : LogicDie) (fuseOk : Bool)
  /-- R327: A READ packet arrives at its endpoint and is answered with RDATA. -/
  | meshRead (p : Packet)
  /-- R327: A WRITE packet arrives at its endpoint and is answered with WACK. -/
  | meshWrite (p : Packet)
  /-- R327: A posted write arrives at its endpoint. -/
  | pwrite (p : Packet)
  /-- R329: Atomic SWAP. -/
  | atomicSwap (p : Packet)
  /-- R329: Atomic compare and swap. -/
  | atomicCas (p : Packet)
  /-- R329: Atomic ADD. -/
  | atomicAdd (p : Packet)
  /-- R329: Atomic AND. -/
  | atomicAnd (p : Packet)
  /-- R329: Atomic OR. -/
  | atomicOr (p : Packet)
  /-- R329: Atomic XOR. -/
  | atomicXor (p : Packet)
  /-- R329: Atomic signed maximum. -/
  | smax (p : Packet)
  /-- R329: Atomic signed minimum. -/
  | smin (p : Packet)
  /-- R329: Atomic unsigned maximum. -/
  | umax (p : Packet)
  /-- R329: Atomic unsigned minimum. -/
  | umin (p : Packet)
  /-- R329: Atomic FP32 add. -/
  | fadd (p : Packet)
  /-- R329: A reserved atomic operation is answered MALFORMED. -/
  | atomicReserved (p : Packet) (op : Fin 5)
  /-- R345: A multicast write travels to its box and branches to every target. -/
  | mwrite (p : Packet) (blocked : List (CoreId × Fin 3))
  /-- R327: A read response arrives at its requester interface. -/
  | rdata (src : Requester) (tag : Nat)
  /-- R346: A write acknowledgement arrives; an MWRITE completes once it holds one WACK per target. -/
  | wack (src : Requester) (tag : Nat) (target : CoreId)
  /-- R339: No answer arrives within 10 ms of injection; the request completes TIMEOUT. -/
  | requestTimeout (src : Requester) (tag : Nat)
  /-- R342: A drain bound ends; unsent packets are completed with poison or abandoned. -/
  | drainEnd (c : CoreId)
  /-- R347: A router retries a retained multicast flit once its branch has a credit. -/
  | retentionRetry (b : Branch)
  /-- R337: 2 µs after a link goes down or returns, sources start or stop applying COND route records. -/
  | routeCondApply (link : Fin 6)
  /-- R351: Sends a C1 control message. -/
  | csend (c : CoreId) (src1 : GReg) (imm : Word)
  /-- R351: Sends a C1 control message with payload. -/
  | csendp (c : CoreId) (src1 : GReg) (src2 : GReg) (imm : Word)
  /-- R351: Sends a C0 control message. -/
  | csendh (c : CoreId) (src1 : GReg) (imm : Word)
  /-- R351: Sends a C0 control message with payload. -/
  | csendhp (c : CoreId) (src1 : GReg) (src2 : GReg) (imm : Word)
  /-- R351: Takes the oldest control message, waiting while none is queued. -/
  | crecv (c : CoreId) (dst : GReg)
  /-- R351: A message arrives for a core waiting in CRECV and the core resumes. -/
  | crecvResume (c : CoreId)
  /-- R351: Takes a control message if any is queued. -/
  | cpoll (c : CoreId) (dst : GReg)
  /-- R351: Reads the control receive queue counts. -/
  | ccount (c : CoreId) (dst : GReg)
  /-- R349: A control message enters a destination receive queue, or is dropped there and counted. -/
  | controlMessageArrive (st : Fin 577) (c0 : Bool)
  /-- R520: Ostler receives a core fault notice and updates the partition fault record and host events. -/
  | faultNotice
  /-- R362: A source bucket reaches a held request's charge and the request is injected. -/
  | regulatorRelease (kind : Fin 5) (p : Packet) (port : Option PortId)
  /-- R364: A 4,096 ns service window begins and every fare's budget at the target is reset. -/
  | targetWindow (t : Fin 597)
  /-- R370: A write to a hub source register takes effect and Ostler recomputes the published sums. -/
  | qosHubsrcWrite (req : Requester) (r : Fin 11) (cfg : Bool) (value : Word)
  /-- R370: Ostler finishes recomputing the regulator sums and clears STALE. -/
  | qosSumsRecomputed
  /-- R501: A PCIe configuration request is answered, with Request Retry Status before AWAIT_PLAT. -/
  | configRequest (f : FnId) (reg : ConfigReg) (write : Option Nat)
  /-- R387: A host memory read through BAR0 or BAR2 is split into mesh packets and completed. -/
  | hostRead (f : FnId) (bar : Fin 6) (off : Nat) (len : Fin 4096)
  /-- R386: A host posted write through BAR0 or BAR2 is sent onto the mesh and its WACK is tracked. -/
  | hostWrite (f : FnId) (bar : Fin 6) (off : Nat) (data : List Byte)
  /-- R381: A PCIe AtomicOp request is answered Unsupported Request. -/
  | hostAtomicop (f : FnId) (bar : Fin 6) (off : Nat)
  /-- R389: A Function Level Reset returns a function page to reset and abandons its staged packets. -/
  | functionLevelReset (f : FnId)
  /-- R389: Clearing VF Enable acts as a Function Level Reset of every virtual function. -/
  | vfEnableClear
  /-- R389: Hot reset, link down or PERST# acts as a Function Level Reset of every function. -/
  | hostLinkReset
  /-- R393: A write to the Resizable BAR control changes the BAR2 size and disables every window of the function. -/
  | bar2Resize (f : FnId) (k : Fin 16)
  /-- R399: A host write to an APPEND window stages words (native) or appends them (compatibility). -/
  | arqAppend (f : FnId) (q : QueueId) (off : Fin 16384) (data : List Byte)
  /-- R401: A host write to a COMMIT window commits a packet after its checks, or rewinds it. -/
  | arqCommit (f : FnId) (q : QueueId) (off : Fin 16384) (data : List Byte)
  /-- R402: A write of 1 to ARQ_ABORT discards the staged packet. -/
  | arqAbort (req : Requester) (q : QueueId) (value : Word)
  /-- R406: Takes the head packet of an arrival queue. -/
  | qtake (c : CoreId) (dst : GReg) (src1 : GReg) (src2 : GReg) (imm : Word)
  /-- R404: Takes the head packet, waiting while the queue is empty. -/
  | qtakew (c : CoreId) (dst : GReg) (src1 : GReg) (src2 : GReg) (imm : Word)
  /-- R404: A packet becomes visible for a core waiting in QTAKEW and the take proceeds. -/
  | qtakewResume (c : CoreId)
  /-- R407: Puts a packet on a departure queue. -/
  | qput (c : CoreId) (dst : GReg) (src1 : GReg) (src2 : GReg) (imm : Word)
  /-- R404: Puts a packet, waiting while space is short. -/
  | qputw (c : CoreId) (dst : GReg) (src1 : GReg) (src2 : GReg) (imm : Word)
  /-- R404: Space frees for a core waiting in QPUTW and the put proceeds. -/
  | qputwResume (c : CoreId)
  /-- R404: Reads the counts of an arrival or departure queue. -/
  | qcount (c : CoreId) (dst : GReg) (src1 : GReg) (imm : Word)
  /-- R404: A reserved queue opcode faults with OP_INVALID. -/
  | queueReservedOp (c : CoreId) (word : DWord)
  /-- R409: A host read of the READ window returns the head packet's bytes, poisoned words with EP. -/
  | dpqRead (f : FnId) (q : QueueId) (off : Fin 16384) (len : Fin 4096)
  /-- R409: A write of 1 to DPQ_POP removes the head packet. -/
  | dpqPop (req : Requester) (q : QueueId) (value : Word)
  /-- R412: At each mirror interval the function writes a count record to host memory, or skips the instant. -/
  | mirrorSample (f : FnId) (busy : Bool)
  /-- R422: A fabric link enters TRAIN at bring-up or 1 s after a failed attempt. -/
  | linkTrainStart (p : PortId) (l : LinkIdx)
  /-- R422: Lanes lock in TRAIN or RETRAIN and the link becomes ACTIVE, full or half. -/
  | linkTrainDone (p : PortId) (l : LinkIdx) (width : Fin 3)
  /-- R422: No lane has locked by 250 ms in TRAIN or 10 ms in RETRAIN; the link goes DOWN. -/
  | linkTrainTimeout (p : PortId) (l : LinkIdx)
  /-- R422: 8 consecutive replays, loss of lane lock or an FEC change puts a link into RETRAIN. -/
  | linkRetrain (p : PortId) (l : LinkIdx) (cause : Fin 3)
  /-- R422: A write of TWL_CTL.RETRAIN puts an ACTIVE link into RETRAIN. -/
  | twlRetrain (req : Requester) (p : PortId) (l : LinkIdx)
  /-- R422: A write of TWL_CTL.DISABLE disables a link or returns it to DOWN. -/
  | twlDisable (req : Requester) (p : PortId) (l : LinkIdx) (value : Bool)
  /-- R427: A DATA frame arrives and is accepted in sequence or discarded. -/
  | dataFrame (p : FramePort) (l : LinkIdx) (payload : List Byte) (head : BitVec 15) (back : BitVec 17) (crc : BitVec 24) (wrong : List Nat)
  /-- R426: An IDLE frame arrives, carrying acknowledgements and credits. -/
  | idleFrame (p : FramePort) (l : LinkIdx) (payload : List Byte) (back : BitVec 17) (crc : BitVec 24) (wrong : List Nat)
  /-- R428: A REPLAY link message makes the sender replay from ACK + 1. -/
  | replay (p : FramePort) (l : Arrival) (frm : Fin 1024)
  /-- R428: The oldest unacknowledged frame goes 2 µs without acknowledgement and the sender replays. -/
  | replayTimeout (p : FramePort) (l : LinkIdx)
  /-- R448: A HELLO message arrives and updates the port's neighbour. -/
  | hello (p : PortId) (l : Arrival) (unit : BitVec 16) (nport : Fin 8) (fecWant : Bool) (dstate : Fin 8) (master : BitVec 16) (mhops : Byte) (ready : Bool)
  /-- R448: Every 1 ms a port sends HELLO on each ACTIVE link. -/
  | helloSend (p : PortId)
  /-- R448: No HELLO is heard for 4 ms and the port has no neighbour. -/
  | neighbourTimeout (p : PortId)
  /-- R449: A VECTOR message arrives and updates the routing distances and tables. -/
  | vector (p : PortId) (l : Arrival) (src : VectorPart) (dist : List Byte)
  /-- R449: Every 1 ms an OK port sends its four VECTOR parts. -/
  | vectorSend (p : PortId)
  /-- R449: A distance not refreshed for 4 ms becomes unreachable. -/
  | distanceExpiry (p : PortId) (idx : Fin 512)
  /-- R432: A fabric read arrives at a port and is forwarded or admitted. -/
  | fread (port : PortId) (x : FabPacket)
  /-- R432: A fabric write arrives at a port and is forwarded or admitted. -/
  | fwrite (port : PortId) (x : FabPacket)
  /-- R432: A fabric posted write arrives at a port. -/
  | fpwrite (port : PortId) (x : FabPacket)
  /-- R432: A fabric atomic arrives at a port. -/
  | fatomic (port : PortId) (x : FabPacket)
  /-- R432: A fabric read response arrives. -/
  | frdata (port : PortId) (x : FabPacket)
  /-- R432: A fabric write acknowledgement arrives. -/
  | fwack (port : PortId) (x : FabPacket)
  /-- R435: No answer to a fabric request arrives within 50 ms and it completes TIMEOUT. -/
  | fabricTimeout (src : CoreId) (tag : Nat)
  /-- R451: After a module-scope load the survey check sets each port's result and decides readiness. -/
  | surveyCheck
  /-- R453: After the check has passed, a port whose condition changes takes the EXCL result. -/
  | portConditionChange (p : PortId)
  /-- R453: A port's condition has held OK for 100 ms and it returns to OK. -/
  | portRecover (p : PortId)
  /-- R455: Every 125 µs an OK port sends DREQ. -/
  | datumExchange (p : PortId)
  /-- R455: A DREQ arrives and the port answers with DRSP. -/
  | dreq (p : PortId) (l : Arrival) (seq : BitVec 16) (t1 : DWord)
  /-- R458: A DRSP arrives; θ is computed and the Datum state and steps follow. -/
  | drsp (p : PortId) (l : Arrival) (seq : BitVec 16) (t1 : DWord) (turn : Turn)
  /-- R456: No matching DRSP arrives within 1 µs and the sample is discarded. -/
  | drspTimeout (p : PortId)
  /-- R471: A group counts ≥ 16 parity mismatches in 1 µs and the link enters TEST. -/
  | laneParityThreshold (st : Fin 12) (group : Fin 80)
  /-- R471: A group test ends; a bad lane shifts onto the spare and the link state follows R472. -/
  | laneTestDone (link : Fin 6) (bad : Fin 1024)
  /-- R473: A die-to-die link finishes TRAIN or RETRAIN and becomes FULL, NARROW or DOWN. -/
  | dtdTrainDone (link : Fin 6) (bad : List LaneId)
  /-- R473: A die-to-die TRAIN has not completed at 20 ms and the link goes DOWN. -/
  | dtdTrainTimeout (link : Fin 6)
  /-- R473: 8 consecutive flit replays put a die-to-die link into RETRAIN. -/
  | dtdReplays (st : Fin 12)
  /-- R473: A write of DTD_CTL.RETRAIN retrains a die-to-die link or starts TRAIN from DOWN. -/
  | dtdRetrain (req : Requester) (st : Fin 12)
  /-- R473: A write of DTD_CTL.DISABLE disables a die-to-die link or returns it to DOWN. -/
  | dtdDisable (req : Requester) (st : Fin 12) (on : Bool)
  /-- R476: After a die-to-die link goes DOWN, Ostler stops every affected RUNNING partition. -/
  | linkDownPartitionStop (link : Fin 6)
  /-- R485: The companion port enters TRAIN at bring-up or 1 s after DOWN. -/
  | ucpTrainStart
  /-- R485: The UCIe link comes up and the port enters IDENT. -/
  | ucpTrainDone (modules : Fin 3) (x8 : Bool) (rate : Fin 6)
  /-- R485: No UCIe link by 100 ms; the port goes DOWN. -/
  | ucpTrainTimeout
  /-- R485: An IDENT message arrives from the companion; the port enters UP or goes DOWN with IDENT_ERR. -/
  | ident (vendor : BitVec 16) (product : BitVec 16) (revision : Byte) (windowLog2 : Byte) (capacity : BitVec 16) (flags : Byte)
  /-- R485: No IDENT arrives within 10 ms; the port goes DOWN with IDENT_ERR. -/
  | identTimeout
  /-- R487: The port leaves UP on replays or UCIe link loss; outstanding companion requests complete ABSENT. -/
  | ucpDown (replays : Bool)
  /-- R485: A write of UCP_CTL.RETRAIN puts the port into TRAIN. -/
  | ucpRetrain (req : Requester)
  /-- R485: A write of UCP_CTL.DISABLE disables the port or returns it to DOWN. -/
  | ucpDisable (req : Requester) (on : Bool)
  /-- R488: A companion request arrives and is admitted through a UCP window or refused. -/
  | companionRequest (kind : Fin 256) (atop : Fin 32) (p : Packet)
  /-- R492: JTAG IDCODE instruction. -/
  | idcode (d : DieId)
  /-- R490: JTAG SAMPLE instruction. -/
  | sample (d : DieId)
  /-- R490: JTAG PRELOAD, which behaves as BYPASS under the lock. -/
  | preload (d : DieId)
  /-- R490: JTAG EXTEST, which behaves as BYPASS under the lock. -/
  | extest (d : DieId)
  /-- R490: JTAG CLAMP, which behaves as BYPASS under the lock. -/
  | clamp (d : DieId)
  /-- R490: JTAG HIGHZ, which behaves as BYPASS under the lock. -/
  | highz (d : DieId)
  /-- R490: JTAG access to the read-only 1687 instruments. -/
  | ijtagRo (d : DieId)
  /-- R490: JTAG access to the whole 1687 network, which behaves as BYPASS under the lock. -/
  | ijtag (d : DieId)
  /-- R490: JTAG BYPASS, also taken by reserved codes. -/
  | bypass (d : DieId) (code : Byte)
  /-- R501: Power-good and reference clock become valid; cold bring-up starts from Ostler's ROM. -/
  | powerGood
  /-- R585: Ostler's ROM reads the Ledger, resumes or runs an exchange, verifies and starts the active image. -/
  | bootVerify
  /-- R586: One phase of a firmware block exchange completes and is journalled. -/
  | exchangePhase (flashOk : Bool)
  /-- R501: Fuses are read, die PLLs lock, and the local state machines start. -/
  | fusesRead
  /-- R502: A unit's bring-up state machine ends, with or without failures. -/
  | localMachineDone (d : LogicDie) (machine : Fin 6) (failed : List Nat)
  /-- R503: Every local machine has ended; the floor plan is built, the feature level negotiated and AWAIT_PLAT entered. -/
  | floorplanPublish
  /-- R514: RST_MOD_CMD with KEY 0x0940 resets the module, followed by the fast path or cold bring-up. -/
  | moduleReset (req : Requester) (cold : Bool) (key : BitVec 16)
  /-- R505: A fast-path step completes, or a failure falls back to cold bring-up. -/
  | fastPathStepDone (ok : Bool)
  /-- R511: RST_CMD OP 1 resets one position's core with drain. -/
  | coreReset (req : Requester) (c : CoreId)
  /-- R515: RST_CMD OP 2 fences a position. -/
  | fence (req : Requester) (c : CoreId)
  /-- R515: RST_CMD OP 3 fences a position and lends its slice. -/
  | fenceLend (req : Requester) (c : CoreId)
  /-- R517: RST_CMD OP 4 returns a fenced position to GOOD. -/
  | unfence (req : Requester) (c : CoreId)
  /-- R518: RST_CMD OP 5 self-tests a fenced position. -/
  | selftest (req : Requester) (c : CoreId) (tCore : Bool) (tSlice : Bool) (lend : Bool)
  /-- R522: A reserved RST_CMD OP ends with INVALID. -/
  | rstCmdReserved (req : Requester) (c : CoreId) (value : Word)
  /-- R601: RST_CL_CMD RESET resets the cluster's unfenced positions. -/
  | clusterReset (req : Requester) (d : LogicDie) (cluster : Fin 36)
  /-- R601: RST_CL_CMD FENCE fences the cluster's positions. -/
  | clusterFence (req : Requester) (d : LogicDie) (cluster : Fin 36)
  /-- R601: RST_CL_CMD UNFENCE unfences the cluster's positions. -/
  | clusterUnfence (req : Requester) (d : LogicDie) (cluster : Fin 36)
  /-- R601: RST_CL_CMD SELFTEST tests the cluster's fenced positions. -/
  | clusterSelftest (req : Requester) (d : LogicDie) (cluster : Fin 36) (tCore : Bool) (tSlice : Bool)
  /-- R522: A reserved RST_CL_CMD OP ends with INVALID. -/
  | rstClCmdReserved (req : Requester) (d : LogicDie) (value : Word)
  /-- R511: RST_PART_CMD RESET resets every core of a RUNNING partition. -/
  | partitionReset (req : Requester) (part : PartId)
  /-- R522: A reserved RST_PART_CMD OP ends with INVALID. -/
  | rstPartCmdReserved (req : Requester) (value : Word)
  /-- R511: The drain of a reset or fence ends; bank protections end and the floor-plan code changes. -/
  | resetDrainDone (u : RstUnit)
  /-- R512: Reset cores are released at ENTRY where their partition runs them; DONE and event 8 are set. -/
  | resetRelease (u : RstUnit)
  /-- R518: A self-test ends and its outcome sets the code and event 9. -/
  | selftestDone (c : CoreId) (coreFails : Bool) (sliceFails : Bool)
  /-- R519: A held fence, unfence, self-test or reset is performed once the load or reset that held it ends. -/
  | heldCommandResume (u : RstUnit)
  /-- R516: SEQ_SCR_UE rising by 16 within 1 s makes Ostler force a fault fence. -/
  | forcedFence (c : CoreId)
  /-- R532: Every 2 ms each station samples its channels and runs throttling, refresh, pairing, power, flow, hearth and
    rate-of-rise logic. -/
  | housekeepingRound (logic : List (List (BitVec 16))) (hub : List (BitVec 16)) (shorts : List (DieId × Fin 70))
  /-- R542: An analog comparator crosses its threshold and asserts the trip line. -/
  | comparatorTrip (station : DieId) (channel : Fin 70)
  /-- R543: The thermal record of a trip is written to the Ledger on the standby supply. -/
  | thermalRecordWritten
  /-- R593: Ostler writes the LIFETIME record at least every 10 minutes. -/
  | lifetimeWrite
  /-- R557: CTR_FRZ_CMD FREEZE asserts the freeze line. -/
  | freeze (req : Requester)
  /-- R557: CTR_FRZ_CMD THAW releases the freeze line. -/
  | thaw (req : Requester)
  /-- R557: CTR_FRZ_CMD FREEZE_AT schedules a freeze at CTR_FRZ_AT. -/
  | freezeAt (req : Requester)
  /-- R573: CTR_FRZ_CMD DISARM cancels a scheduled freeze. -/
  | disarm (req : Requester)
  /-- R573: A reserved CTR_FRZ_CMD OP is discarded and sets BAD_OP. -/
  | frzCmdReserved (req : Requester) (op : Fin 3)
  /-- R557: The hub Datum reaches CTR_FRZ_AT and the freeze line is asserted. -/
  | scheduledFreeze
  /-- R562: At each sample instant the sampler writes a record to the tally buffer or skips the instant. -/
  | sampleInstant (busy : Bool)
  /-- R565: A store accepts a record from its input queue, filtered and placed by the store's mode. -/
  | fieldbookRecord (d : DieId)
  /-- R565: Once its queue has room again, a store writes a GAP record for records lost. -/
  | gap (d : DieId)
  /-- R569: FBK_CMD ARM resets every store's pointers and status. -/
  | arm (req : Requester)
  /-- R568: FBK_CMD TRIGGER fires the trigger now. -/
  | trigger (req : Requester)
  /-- R568: FBK_CMD TRIGGER_AT schedules a trigger at FBK_AT. -/
  | triggerAt (req : Requester)
  /-- R568: The hub Datum reaches FBK_AT and the trigger fires. -/
  | scheduledTrigger
  /-- R574: FBK_CMD STOP stops recording in every store. -/
  | stop (req : Requester)
  /-- R570: FBK_CMD DUMP copies store records to memory. -/
  | dump (req : Requester) (store : Fin 8)
  /-- R570: A dump completes and sets DONE with its result. -/
  | dumpDone
  /-- R570: A reserved FBK_CMD OP ends with INVALID. -/
  | fbkCmdReserved (req : Requester) (op : Fin 2)
  /-- R574: A write to FBK_MARK records a MARK in the hub store. -/
  | mark (req : Requester) (value : Word)
  /-- R575: I3C dynamic address assignment by ENTDAA. -/
  | entdaa (addr : BitVec 7)
  /-- R575: I3C dynamic address assignment from the static address. -/
  | setdasa (static : BitVec 7) (addr : BitVec 7)
  /-- R575: MCTP control Set Endpoint ID. -/
  | setEndpointId (op : Fin 4) (eid : Byte)
  /-- R575: MCTP control Get Endpoint ID. -/
  | getEndpointId
  /-- R575: MCTP control Get MCTP Version Support. -/
  | getMctpVersionSupport (msgType : Byte)
  /-- R575: MCTP control Get Message Type Support. -/
  | getMessageTypeSupport
  /-- R575: MCTP control Get Vendor Defined Message Support. -/
  | getVendorDefinedSupport (selector : Byte)
  /-- R577: Service command that returns module, firmware and die status. -/
  | getInfo (inst : Byte)
  /-- R583: Service command that starts receiving a firmware image. -/
  | stageBegin (inst : Byte) (length : Word) (version : Word)
  /-- R583: Service command that writes a chunk of the staged image. -/
  | stageData (inst : Byte) (offset : Word) (data : List Byte) (flashOk : Bool)
  /-- R583: Service command that checks the digest and marks the image STAGED. -/
  | stageEnd (inst : Byte) (digest : List Byte)
  /-- R583: Service command that empties the staging slot. -/
  | stageCancel (inst : Byte)
  /-- R588: Service command that re-stages the previous image. -/
  | rollback (inst : Byte)
  /-- R577: Service command that returns a Ledger record. -/
  | readLedger (inst : Byte) (type : Byte) (rsvd : Byte) (index : BitVec 16)
  /-- R577: Service command that returns bytes of the certificate chain or the last report. -/
  | readObject (inst : Byte) (object : Byte) (rsvd : BitVec 24) (offset : Word) (length : Word)
  /-- R598: Service command that builds an attestation report. -/
  | attest (inst : Byte) (nonce : List Byte)
  /-- R588: Service command that performs a module reset, refused within 30 s of a trip. -/
  | restart (inst : Byte) (mode : Byte) (rsvd : BitVec 24)
  /-- R577: A reserved or malformed service request is answered INVALID. -/
  | serviceReservedCommand (inst : Byte) (cmd : Fin 128)
  /-- R592: Ostler appends a record to the current Ledger bank, valid within 20 ms. -/
  | ledgerAppend (ok : Bool)
  /-- R592: The current bank has under 32 KiB free and Ostler compacts into the other bank. -/
  | ledgerCompact
  /-- R594: The physical function writes the owner lock; Ostler issues an OWNER_LOCK record. -/
  | fwuOwnerWrite (req : Requester) (value : Word)
  /-- R594: The OWNER_LOCK record becomes valid, the lock takes effect and PENDING clears. -/
  | ownerLockValid
  /-- R598: ATT_CMD GO starts a host-requested attestation report. -/
  | attGo (req : Requester)
  /-- R598: An attestation report is complete, written to its destination or held as OBJECT 1. -/
  | attestDone
  /-- R504: Power is removed from the module; the retained store is cleared, work and slice contents are lost, and an exchange in
    progress is left at its last journalled phase. -/
  | powerLoss
  /-- R599: The seating interlock input opens or closes, changing SVC_STS.INTERLOCK_OPEN and the refusal of staging commands and
    boot exchanges. -/
  | seatingInterlockChange (isOpen : Bool)
  /-- R592: A Ledger compaction finishes: COMPACT_DONE is written to the other bank, that bank becomes current and
    LDG_STS.COMPACTING clears. -/
  | ledgerCompactionDone
  deriving DecidableEq, Repr

end Sys2Proof
end

