-- ==== Sys2Proof/Config.lean ====
section
/-! DEFINITION. What an implementation fixes and the manual leaves open. Every constant here is opaque: no proof can see its value,
so a claim holds whatever it is. Each is named in the assumption log. -/

namespace Sys2Proof

/-- A fresh free value: the manual states an effect and no value. Applied to the counter `freeCtr` of the state. -/
opaque Config.freeWord : Nat → Word

/-- A fresh free byte. -/
opaque Config.freeByte : Nat → Byte

/-- The FP32 result that RCP (op 9), RSQRT (10), EXP2 (11), EXPSUB's 2^u (12), SIGMOID (13) or SILU (14) aims at for an FP32 operand where R174
names no special case, taken where it lies within the manual's bound: the manual states no bits. -/
opaque Config.approx : Nat → Word → Word

/-- The FP32 result that LSE (R202) aims at for m and l, taken where it lies within the manual's bound, or where the manual states none. -/
opaque Config.lse : Word → Word → Word

/-- Events of one nanosecond that lie below the model's steps, by the counter of fresh values: domain-A edges delivered to a core, edges
skipped, array cycles of the keep-warm load (R546, R553), and replays and CRC failures of the die-to-die and companion links (R493, R495). -/
opaque Config.edges : Nat → BitVec 8

/-- Spare rows that the fuse map gives a bank (R304), by core · 64 + bank, or 65,536 + far device: the manual gives no number. -/
opaque Config.spareRows : Nat → Nat

/-- SOURCE [11:0] of a record of a hub unit (R563), by unit: 0 plat loader, 1 Datum master logic, 2 freeze line, 3 sampler, 4 MARK, 5
housekeeping; and the whole SOURCE of the GAP record of store d, as 16 + d. The manual numbers none of them. -/
opaque Config.hubUnit : Nat → Nat

/-- Lemelox's PCI-SIG vendor identifier (R380), which the manual does not print. -/
opaque Config.vendorId : BitVec 16

/-- The host link as it has trained (R380): log2 of its width, and the number of its rate from 0 for the lowest to 5 for 64 GT/s. -/
opaque Config.hostLink : Fin 5 × Fin 6

/-- What a rate correction of a LOCKED Datum has beside the error that it removes (R458, R459), in parts per million. -/
opaque Config.datumTrim : Nat → BitVec 8

/-- Lemelox's JEDEC manufacturer identity (R492), which the manual does not print. -/
opaque Config.jedecId : BitVec 11

/-- CAUSE of an FP_CHANGE record of a change for which R590 gives no cause: the flag MET at a module-scope load, or LOCKLOST. -/
opaque Config.otherCause : Byte

/-- The measurement of Ostler's ROM, fused at manufacture (R596). -/
opaque Config.romMeasure : BitVec 512

/-- The identity area: the certificate chain written at manufacture (R580, R595). -/
opaque Config.certChain : List Byte

/-- The provisional identifier of the I3C target (R575) beside its part, which the manual gives: MIPI manufacturer identity and fused
instance, which it does not print. -/
opaque Config.i3cPid : BitVec 48

/-- The mandatory data byte of an in-band interrupt (R575), which the MCTP over I3C binding assigns. -/
opaque Config.ibiByte : Byte

/-- Signature verification of an image under the part's keys (R581), by name only in the manual. -/
opaque Config.sigVerify : List Byte → Bool

/-- The signature of an attestation report (R598). -/
opaque Config.sign : List Byte → List Byte

end Sys2Proof
end

