-- ==== Sys2Proof/Machine/Flags.lean ====
section
/-! DEFINITION. The five lane flags of R113, in the bit order of every flag register: INVALID, OVERFLOW, UNDERFLOW, INEXACT,
SATURATION. -/

namespace Sys2Proof.Machine

/-- The flags of one lane, bit 0 INVALID to bit 4 SATURATION. -/
abbrev Flags := BitVec 5

/-- No flag. -/
def Flags.none : Flags := 0
/-- R113 INVALID. -/
def Flags.invalid : Flags := 1
/-- R113 OVERFLOW. -/
def Flags.overflow : Flags := 2
/-- R113 UNDERFLOW. -/
def Flags.underflow : Flags := 4
/-- R113 INEXACT. -/
def Flags.inexact : Flags := 8
/-- R113 SATURATION. -/
def Flags.saturation : Flags := 16

/-- A flag set only where a condition holds. -/
def Flags.when (b : Bool) (f : Flags) : Flags := if b then f else 0

/-- Whether SATURATION is among the flags. -/
def Flags.hasSat (f : Flags) : Bool := (f &&& Flags.saturation) != 0

/-- The OR of a list of lane flags (the summary registers of R162 and R188). -/
def Flags.orAll (l : List Flags) : Flags := l.foldl (· ||| ·) 0

/-- A flag in every place where either list has it; the longer list's tail is kept. -/
def Flags.zipOr : List Flags → List Flags → List Flags
  | [], b => b
  | a, [] => a
  | x :: a, y :: b => (x ||| y) :: Flags.zipOr a b

end Sys2Proof.Machine
end

