-- ==== Sys2Proof/Machine/Operands.lean ====
section
/-! DEFINITION. Number formats (R88 to R112): exact values, element layouts, FP32 and INT32 accumulation with one rounding, block
scales, and the conversion of one element. Every result is computed exactly on dyadic numbers and rounded once, where the rule
rounds. -/

namespace Sys2Proof.Machine

/-- The number formats of R88. -/
inductive Fmt where
  | fp32 | bf16 | fp16 | e4m3 | e5m2 | int8 | int32 | fp4 | int4 | t2 | c4
  deriving DecidableEq, Repr

/-- The 4-bit format codes of R88; none for the reserved codes. -/
def Fmt.ofCode : Nat → Option Fmt
  | 0 => some .fp32 | 1 => some .bf16 | 2 => some .fp16 | 3 => some .e4m3 | 4 => some .e5m2 | 5 => some .int8
  | 6 => some .int32 | 7 => some .fp4 | 8 => some .int4 | 9 => some .t2 | 10 => some .c4
  | _ => none

/-- The code of a format (R88). -/
def Fmt.code : Fmt → Nat
  | .fp32 => 0 | .bf16 => 1 | .fp16 => 2 | .e4m3 => 3 | .e5m2 => 4 | .int8 => 5
  | .int32 => 6 | .fp4 => 7 | .int4 => 8 | .t2 => 9 | .c4 => 10

/-- Element width in bits (R88). -/
def Fmt.bits : Fmt → Nat
  | .fp32 | .int32 => 32
  | .bf16 | .fp16 => 16
  | .e4m3 | .e5m2 | .int8 => 8
  | .fp4 | .int4 | .c4 => 4
  | .t2 => 2

/-- Formats that carry an E8M0 scale per 32 elements (R93). -/
def Fmt.blockScaled : Fmt → Bool
  | .fp4 | .int4 | .t2 => true
  | _ => false

/-- An exact dyadic number (−1)^neg · m · 2^e; zero keeps its sign. -/
structure Dy where
  neg : Bool
  m : Nat
  e : Int
  deriving DecidableEq, Repr

/-- A value on the way through an engine: NaN, an infinity, or an exact number. -/
inductive Val where
  | nan
  | inf (neg : Bool)
  | fin (d : Dy)
  deriving DecidableEq, Repr

/-- The number zero of a sign. -/
def Dy.zero (neg : Bool) : Dy := ⟨neg, 0, 0⟩

/-- The number of an integer. -/
def Dy.ofInt (i : Int) : Dy := ⟨decide (i < 0), i.natAbs, 0⟩

/-- Multiplication by 2^k. -/
def Dy.scale (d : Dy) (k : Int) : Dy := { d with e := d.e + k }

/-- The exact product. -/
def Dy.mul (a b : Dy) : Dy := ⟨a.neg != b.neg, a.m * b.m, a.e + b.e⟩

/-- The signed integer of a number at the exponent k, exact where k is at most its exponent. -/
def Dy.at (d : Dy) (k : Int) : Int :=
  let n : Int := (d.m <<< (d.e - k).toNat : Nat)
  if d.neg then -n else n

/-- The exact sum. A sum of zero is negative only where both terms are negative zeros (PRESUMED, log entry 12: IEEE 754 under
rounding to nearest). -/
def Dy.add (a b : Dy) : Dy :=
  let k := min a.e b.e
  let s := a.at k + b.at k
  if s = 0 then ⟨a.m = 0 && b.m = 0 && a.neg && b.neg, 0, 0⟩ else ⟨decide (s < 0), s.natAbs, k⟩

/-- The exact comparison a < b. -/
def Dy.lt (a b : Dy) : Bool :=
  let k := min a.e b.e
  decide (a.at k < b.at k)

/-- The exact comparison a = b (zeros of both signs are equal). -/
def Dy.eqv (a b : Dy) : Bool :=
  let k := min a.e b.e
  decide (a.at k = b.at k)

/-- ⌊log₂ |d|⌋ of a nonzero number. -/
def Dy.log2 (d : Dy) : Int := (Nat.log2 d.m : Int) + d.e

/-- A number of either sign, negated. -/
def Dy.negate (d : Dy) : Dy := { d with neg := !d.neg }

/-- The number's sign reversed; NaN stays. -/
def Val.negate : Val → Val
  | .nan => .nan
  | .inf n => .inf (!n)
  | .fin d => .fin d.negate

/-- The magnitude; NaN stays. -/
def Val.abs : Val → Val
  | .nan => .nan
  | .inf _ => .inf false
  | .fin d => .fin { d with neg := false }

/-- Whether a value is NaN. -/
def Val.isNan : Val → Bool
  | .nan => true
  | _ => false

/-- Whether a value is finite. -/
def Val.isFin : Val → Bool
  | .fin _ => true
  | _ => false

/-- Exact multiplication with the special values of R101: an infinity times zero is NaN. -/
def Val.mul : Val → Val → Val
  | .nan, _ => .nan
  | _, .nan => .nan
  | .inf a, .inf b => .inf (a != b)
  | .inf a, .fin d => if d.m = 0 then .nan else .inf (a != d.neg)
  | .fin d, .inf b => if d.m = 0 then .nan else .inf (d.neg != b)
  | .fin a, .fin b => .fin (a.mul b)

/-- Exact addition with the special values of R101: opposite infinities make NaN. -/
def Val.add : Val → Val → Val
  | .nan, _ => .nan
  | _, .nan => .nan
  | .inf a, .inf b => if a = b then .inf a else .nan
  | .inf a, .fin _ => .inf a
  | .fin _, .inf b => .inf b
  | .fin a, .fin b => .fin (a.add b)

/-- The exact sum of a list, from the left. It starts from +0, so that a sum of terms that are all −0 is +0 (DESIGN CHOICE, log entry 12). -/
def Val.sum (l : List Val) : Val := l.foldl Val.add (.fin (Dy.zero false))

/-- `n` bits of a word starting at bit `lo`. -/
def bitsAt (w lo n : Nat) : Nat := w / 2 ^ lo % 2 ^ n

/-- The value of a binary floating-point encoding with `eb` exponent bits, `mb` mantissa bits and the bias of R90, where no
encoding is special. -/
def fpFinite (eb mb bias : Nat) (w : Nat) : Dy :=
  let s := decide (bitsAt w (eb + mb) 1 = 1)
  let ex := bitsAt w mb eb
  let mn := bitsAt w 0 mb
  if ex = 0 then ⟨s, mn, 1 - (bias : Int) - mb⟩ else ⟨s, 2 ^ mb + mn, (ex : Int) - bias - mb⟩

/-- A floating-point encoding whose exponent field of all ones holds infinity and NaN (R90). -/
def fpIeee (eb mb bias : Nat) (w : Nat) : Val :=
  if bitsAt w mb eb = 2 ^ eb - 1 then
    if bitsAt w 0 mb = 0 then .inf (decide (bitsAt w (eb + mb) 1 = 1)) else .nan
  else .fin (fpFinite eb mb bias w)

/-- An FP32 word as an engine reads it: a subnormal reads as a zero of its sign (R91). -/
def Val.ofFp32 (w : Word) : Val :=
  if bitsAt w.toNat 23 8 = 0 then .fin (Dy.zero (decide (bitsAt w.toNat 31 1 = 1))) else fpIeee 8 23 127 w.toNat

/-- An integer of `n` bits in two's complement. -/
def Dy.ofTwos (n w : Nat) : Dy :=
  Dy.ofInt (if w % 2 ^ n < 2 ^ (n - 1) then (w % 2 ^ n : Nat) else (w % 2 ^ n : Nat) - 2 ^ n)

/-- The decoded value of an element before its block scale (R90 to R92). A C4 index has no value of its own and decodes as zero
here: its value is its codebook entry. -/
def Fmt.decode (f : Fmt) (w : Nat) : Val :=
  match f with
  | .fp32 => Val.ofFp32 (BitVec.ofNat 32 w)
  | .bf16 => fpIeee 8 7 127 w
  | .fp16 => fpIeee 5 10 15 w
  | .e4m3 => if w % 128 = 127 then .nan else .fin (fpFinite 4 3 7 w)
  | .e5m2 => fpIeee 5 2 15 w
  | .int8 => .fin (Dy.ofTwos 8 w)
  | .int32 => .fin (Dy.ofTwos 32 w)
  | .fp4 => .fin (fpFinite 2 1 1 w)
  | .int4 => .fin (Dy.ofTwos 4 w)
  | .t2 => match w % 4 with
    | 1 => .fin (Dy.ofInt 1)
    | 3 => .fin (Dy.ofInt (-1))
    | _ => .fin (Dy.zero false)
  | .c4 => .fin (Dy.zero false)

/-- A T2 code 0b10 is not a value and sets INVALID on every output lane it reaches (R92). -/
def Fmt.badCode (f : Fmt) (w : Nat) : Bool := decide (f = .t2) && decide (w % 4 = 2)

/-- The value of an E8M0 block scale (R93). -/
def Val.ofE8m0 (x : Nat) : Val := if x % 256 = 255 then .nan else .fin ⟨false, 1, (x % 256 : Nat) - 127⟩

/-- Division by 2^k of a natural number, rounded to nearest with ties to even. -/
def rneShift (m k : Nat) : Nat :=
  let q := m / 2 ^ k
  let r := m % 2 ^ k
  if 2 * r > 2 ^ k ∨ (2 * r = 2 ^ k ∧ q % 2 = 1) then q + 1 else q

/-- A number rounded once to FP32, to nearest with ties to even; a magnitude below 2^−126 before rounding becomes a zero of its
sign with UNDERFLOW and INEXACT (R91), one beyond the largest finite value after rounding an infinity with OVERFLOW and INEXACT
(R101). -/
def Dy.toFp32 (d : Dy) : Word × Flags :=
  let sgn : Nat := if d.neg then 2 ^ 31 else 0
  if d.m = 0 then (BitVec.ofNat 32 sgn, 0)
  else if d.log2 < -126 then (BitVec.ofNat 32 sgn, Flags.underflow ||| Flags.inexact)
  else
    let q := d.log2 - 23
    let m := if q ≤ d.e then d.m <<< (d.e - q).toNat else rneShift d.m (q - d.e).toNat
    let exact := decide (q ≤ d.e) || decide (d.m % 2 ^ (q - d.e).toNat = 0)
    -- m lies in 2^23 .. 2^24; 2^24 carries into the exponent
    let ex : Int := q + 150
    let w := (ex.toNat - 1) * 2 ^ 23 + m
    if w ≥ 255 * 2 ^ 23 then (BitVec.ofNat 32 (sgn + 255 * 2 ^ 23), Flags.overflow ||| Flags.inexact)
    else (BitVec.ofNat 32 (sgn + w), if exact then 0 else Flags.inexact)

/-- The canonical NaN of R101. -/
def fp32Nan : Word := 0x7FC0_0000

/-- An infinity of FP32. -/
def fp32Inf (neg : Bool) : Word := if neg then 0xFF80_0000 else 0x7F80_0000

/-- A value rounded once to FP32; NaN is the canonical one and sets INVALID where it is written (R101). -/
def Val.toFp32 : Val → Word × Flags
  | .nan => (fp32Nan, Flags.invalid)
  | .inf n => (fp32Inf n, 0)
  | .fin d => d.toFp32

/-- One rounding step of an accumulation: the FP32 value of a result, as a value again, with the flags of the rounding alone (NaN
sets INVALID only where it is written). -/
def Val.round (v : Val) : Val × Flags :=
  match v with
  | .fin d => (Val.ofFp32 d.toFp32.1, d.toFp32.2)
  | v => (v, 0)

/-- An integer clamped to INT32 (R102). -/
def clampInt32 (i : Int) : Int × Flags :=
  if i < -(2 ^ 31) then (-(2 ^ 31), Flags.saturation)
  else if i > 2 ^ 31 - 1 then (2 ^ 31 - 1, Flags.saturation) else (i, 0)

/-- The step of R111 for one stochastic generator. -/
def nextRandom (s : DWord) : DWord :=
  let a := s ^^^ (s <<< 13)
  let b := a ^^^ (a >>> 7)
  b ^^^ (b <<< 17)

/-- The seed of lane l (R111); a state of 0 is replaced by 1. -/
def seedLane (seed : DWord) (l : Nat) : DWord :=
  let s := seed ^^^ (BitVec.ofNat 64 ((l + 1) * 0x9E37_79B9_7F4A_7C15))
  if s = 0 then 1 else s

/-- How a conversion rounds: to nearest even, or stochastically with the 16 random bits of R110. -/
inductive RoundBy where
  | nearest
  | stochastic (r16 : Nat)
  deriving DecidableEq, Repr

/-- The magnitude |d| in units of 2^q, rounded (R110), and whether that was exact. -/
def Dy.roundUnits (d : Dy) (q : Int) (by' : RoundBy) : Nat × Bool :=
  if q ≤ d.e then (d.m <<< (d.e - q).toNat, true)
  else
    let k := (q - d.e).toNat
    let lo := d.m / 2 ^ k
    let r := d.m % 2 ^ k
    match by' with
    | .nearest => (rneShift d.m k, decide (r = 0))
    | .stochastic r16 => (if r16 < r * 65536 / 2 ^ k then lo + 1 else lo, decide (r = 0))

/-- A number converted to a floating-point layout of `eb` exponent bits, `mb` mantissa bits and bias, with the largest finite code
`top` (sign removed): rounding (R110), saturation (R112), UNDERFLOW and INEXACT. Stochastic rounding of a magnitude beyond the largest can
round it down to the largest, which then sets no SATURATION, as R110's pseudocode has it; R112's example has 7.9 saturate under RND 2 too
(DESIGN CHOICE, log entry 104). -/
def Dy.toFp (eb mb bias top : Nat) (d : Dy) (by' : RoundBy) : Nat × Flags :=
  let sgn := if d.neg then 2 ^ (eb + mb) else 0
  if d.m = 0 then (sgn, 0)
  else
    let emin : Int := 1 - bias
    let ex := max d.log2 emin
    let q := ex - mb
    let (n, exact) := d.roundUnits q by'
    -- units of 2^q at exponent field ex: the code counts units from the start of the binade
    let code := ((ex - emin).toNat) * 2 ^ mb + n
    if code > top then (sgn + top, Flags.saturation ||| Flags.inexact)
    else (sgn + code, Flags.when (!exact) Flags.inexact ||| Flags.when (decide (n = 0)) Flags.underflow)

/-- A number converted to an integer of `n` bits with the limits lo and hi (R112). -/
def Dy.toInt (n : Nat) (lo hi : Nat) (d : Dy) (by' : RoundBy) : Nat × Flags :=
  let (k, exact) := d.roundUnits 0 by'
  let lim := if d.neg then lo else hi
  let sat := decide (lim < k)
  let v := if sat then lim else k
  let w := if d.neg then (2 ^ n - v) % 2 ^ n else v
  (w, Flags.when (!exact || sat) Flags.inexact ||| Flags.when sat Flags.saturation
    ||| Flags.when (decide (d.m ≠ 0) && decide (v = 0)) Flags.underflow)

/-- A finite number converted to an element code of the target, for block formats after division by 2^E (R110, R112). -/
def Fmt.encode (f : Fmt) (d : Dy) (by' : RoundBy) : Nat × Flags :=
  match f with
  | .fp32 => d.toFp 8 23 127 0x7F7FFFFF by'
  | .bf16 => d.toFp 8 7 127 0x7F7F by'
  | .fp16 => d.toFp 5 10 15 0x7BFF by'
  | .e4m3 => d.toFp 4 3 7 0x7E by'
  | .e5m2 => d.toFp 5 2 15 0x7B by'
  | .fp4 => d.toFp 2 1 1 0x7 by'
  | .int8 => d.toInt 8 128 127 by'
  | .int32 => d.toInt 32 (2 ^ 31) (2 ^ 31 - 1) by'
  | .int4 => d.toInt 4 8 7 by'
  | .t2 => d.toInt 2 1 1 by'
  | .c4 => (0, 0)

/-- The code and flags of a NaN or an infinity in a target without block scales (the table of R112). -/
def Fmt.encodeSpecial (f : Fmt) (v : Val) : Nat × Flags :=
  match f, v with
  | .bf16, .nan => (0x7FC0, Flags.invalid)
  | .bf16, .inf n => (if n then 0xFF80 else 0x7F80, 0)
  | .fp16, .nan => (0x7E00, Flags.invalid)
  | .fp16, .inf n => (if n then 0xFC00 else 0x7C00, 0)
  | .e4m3, _ => (0x7F, Flags.invalid)
  | .e5m2, .nan => (0x7E, Flags.invalid)
  | .e5m2, .inf n => (if n then 0xFC else 0x7C, 0)
  | .fp32, v => let (w, fl) := v.toFp32; (w.toNat, fl)
  | .int8, .inf n => (if n then 0x80 else 0x7F, Flags.invalid)
  | .int32, .inf n => (if n then 0x8000_0000 else 0x7FFF_FFFF, Flags.invalid)
  | _, _ => (0, Flags.invalid)

/-- e_max of R109. -/
def Fmt.eMax : Fmt → Int
  | .t2 => 0
  | _ => 2

/-- The block scale exponent for a largest magnitude A (R109). -/
def blockExp (f : Fmt) (a : Dy) : Int :=
  if a.m = 0 then -127 else max (-127) (min 127 (a.log2 - f.eMax))

/-- The larger magnitude of two numbers. -/
def Dy.maxMag (a b : Dy) : Dy := if Dy.lt { a with neg := false } { b with neg := false } then { b with neg := false } else { a with neg := false }

/-- The magnitude of an INT32 converted to FP32 rounding toward +infinity (R115). -/
def ceilFp32 (n : Nat) : Word :=
  if n = 0 then 0
  else
    let l := Nat.log2 n
    if l ≤ 23 then BitVec.ofNat 32 ((l + 127 - 1) * 2 ^ 23 + n * 2 ^ (23 - l))
    else BitVec.ofNat 32 ((l + 127 - 1) * 2 ^ 23 + (n + 2 ^ (l - 23) - 1) / 2 ^ (l - 23))

end Sys2Proof.Machine
end

