-- ==== Sys2Proof/Machine/Approx.lean ====
section
/-! DEFINITION. Results that the manual bounds and does not state (R174, R202): reciprocals, roots, powers of two, e and the natural logarithm
to 128 bits or so, and the free choice of an FP32 result within its bound. -/

namespace Sys2Proof.Machine

/-! ### References, exact where the result is a dyadic number that they reach -/

/-- ln 2 · 2^128 and log₂ e · 2^128, rounded down. -/
def ln2Fix : Nat := 235865763225513294137944142764154484399
def log2eFix : Nat := 490923683258796565746369346286093237521

/-- a ÷ b to 260 bits; b is not zero. -/
def Dy.div (a b : Dy) : Dy :=
  let k := 260 + Nat.log2 b.m
  ⟨a.neg != b.neg, a.m <<< k / b.m, a.e - b.e - k⟩

/-- ⌊√n⌋ for n below 2^(2k + 2). -/
def isqrt (k n : Nat) : Nat := (List.range (k + 1)).foldl (fun r i => let x := r + 2 ^ (k - i); if x * x ≤ n then x else r) 0

/-- √d of a positive number to 130 bits or more, where d has at least 260. -/
def Dy.sqrt (d : Dy) : Dy :=
  let d : Dy := if d.e % 2 = 0 then d else ⟨false, d.m * 2, d.e - 1⟩
  ⟨false, isqrt (Nat.log2 d.m / 2) d.m, d.e / 2⟩

/-- e^(z ÷ 2^128) · 2^128 for z below 2^128, by its series. -/
def expFix (z : Nat) : Nat :=
  ((List.range 45).foldl (fun ((s, t) : Nat × Nat) i => let t := t * z / (2 ^ 128 * (i + 1)); (s + t, t)) (2 ^ 128, 2 ^ 128)).1

/-- ⌊d · 2^128⌋. -/
def Dy.fix (d : Dy) : Int :=
  let m : Int := if d.neg then -d.m else d.m
  if 0 ≤ d.e + 128 then m * 2 ^ (d.e + 128).toNat else m / 2 ^ (-(d.e + 128)).toNat

/-- 2^d. -/
def Dy.exp2 (d : Dy) : Dy :=
  let u := d.fix
  ⟨false, expFix ((u % 2 ^ 128).toNat * ln2Fix / 2 ^ 128), u / 2 ^ 128 - 128⟩

/-- e^d. -/
def Dy.exp (d : Dy) : Dy := (d.mul ⟨false, log2eFix, -128⟩).exp2

/-- ln d of a positive number: its exponent's part, and 2 · artanh((x − 1) ÷ (x + 1)) of its significand x. -/
def Dy.ln (d : Dy) : Dy :=
  let k := Nat.log2 d.m
  let x := if k ≤ 128 then d.m <<< (128 - k) else d.m / 2 ^ (k - 128)
  let z := (x - 2 ^ 128) * 2 ^ 128 / (x + 2 ^ 128)
  let s := ((List.range 45).foldl (fun ((s, t) : Nat × Nat) i => (s + t / (2 * i + 1), t * z / 2 ^ 128 * z / 2 ^ 128)) (0, z)).1
  let v : Int := (d.e + k) * ln2Fix + 2 * s
  ⟨decide (v < 0), v.natAbs, -128⟩

/-- 1 ÷ (1 + e^(−d)). -/
def Dy.logistic (d : Dy) : Dy := (Dy.ofInt 1).div ((Dy.ofInt 1).add d.negate.exp)

/-! ### The free choice -/

/-- A word lies within k ulps of a number, in units of its own last place; within fewer where `strict`. Only finite words that are not zero do. -/
def ulpsOk (k : Nat) (strict : Bool) (t : Dy) (w : Word) : Bool :=
  let ex := bitsAt w.toNat 23 8
  match Val.ofFp32 w with
  | .fin y =>
    let diff : Dy := { y.add t.negate with neg := false }
    let bound : Dy := ⟨false, k, (ex : Int) - 150⟩
    ex != 0 && (if strict then diff.lt bound else !bound.lt diff)
  | _ => false

/-- An FP32 result within k ulps of a reference, which it is free to choose (log entry 10): the candidate where it lies within the bound, else the
reference rounded. `exact` says that the reference is the result itself, which then sets INEXACT only where it is missed (R113). A result
whose magnitude is below 2^−126 flushes (R91). -/
def boundedOut (k : Nat) (strict : Bool) (candidate : Word) (t : Dy) (exact : Bool) : Word × Flags :=
  if ulpsOk k strict t candidate && decide (-126 ≤ t.log2) then
    (candidate, if exact && (match Val.ofFp32 candidate with | .fin y => y.eqv t | _ => false) then 0 else Flags.inexact)
  else (t.toFp32.1, if exact then t.toFp32.2 else t.toFp32.2 ||| Flags.inexact)

/-- RCP, RSQRT, EXP2 and EXPSUB's power, SIGMOID and SILU of an operand that R174 does not except (op 9 to 14): the reference, its bound in ulps,
whether the bound itself is outside it, and whether the reference is exact. -/
def approxRef (op : Nat) (d : Dy) : Dy × Nat × Bool × Bool :=
  let one := Dy.ofInt 1
  match op with
  | 9 => let t := one.div d; (t, 1, true, (t.mul d).eqv one)
  | 10 => let t := (one.div d).sqrt; (t, 1, true, ((t.mul t).mul d).eqv one)
  | 13 => (d.logistic, 2, false, d.m == 0)
  | 14 => (d.mul d.logistic, 3, false, false)
  | _ => (d.exp2, 1, true, d.e ≥ 0 || d.m % 2 ^ (-d.e).toNat == 0)

/-- The result and flags of such an operation (R113, R174). -/
def approxOut (op : Nat) (d : Dy) : Word × Flags :=
  let (t, k, strict, exact) := approxRef op d
  boundedOut k strict (Config.approx op d.toFp32.1) t exact

/-- m + ln l within 2 ulps (R202), of a finite m and a positive finite l. -/
def lseNear (mv l : Dy) : Word × Flags :=
  let t := mv.add l.ln
  if t.m = 0 then (0, 0) else boundedOut 2 false (Config.lse mv.toFp32.1 l.toFp32.1) t (l.eqv (Dy.ofInt 1))

end Sys2Proof.Machine
end

