-- ==== Sys2Proof/Machine/Codes.lean ====
section
/-! DEFINITION. The two Reed–Solomon codes of a memory page (R294 to R299) over GF(2⁸): their arithmetic, the check bytes they give, and
what their decoders make of a pattern of wrong symbols. Both codes are linear, so a decoder's outcome follows from the pattern alone: the
symbols in which what is stored differs from what was written, each with the XOR of the two. -/

namespace Sys2Proof.Machine

/-! ### The field: polynomial 0x11D, primitive element α = 2 -/

/-- α times an element. -/
def gfTwice (a : Nat) : Nat := if a ≥ 128 then (2 * a) ^^^ 0x11D else 2 * a

/-- The product of two elements: Horner's rule over the bits of b. -/
def gfMul (a b : Nat) : Nat :=
  [7, 6, 5, 4, 3, 2, 1, 0].foldl (fun acc i => (if Nat.testBit b i then a else 0) ^^^ gfTwice acc) 0

/-- α to a power. -/
def gfExp (e : Nat) : Nat := (List.range (e % 255)).foldl (fun a _ => gfTwice a) 1

/-- The logarithm of b ÷ a to the base α, for nonzero a and b: the least e with a·α^e = b. -/
def gfLogRatio (a b : Nat) : Option Nat := (List.range 255).find? fun e => gfMul a (gfExp e) == b

/-! ### Patterns -/

/-- Wrong symbols: each at most once, with its nonzero XOR. -/
abbrev Pat := List (Nat × Nat)

/-- Adds a difference to a symbol. -/
def Pat.flip (p : Pat) (s v : Nat) : Pat :=
  match p.find? fun x => x.1 == s with
  | some x => if x.2 ^^^ v = 0 then p.filter fun y => y.1 != s else (s, x.2 ^^^ v) :: p.filter fun y => y.1 != s
  | none => if v = 0 then p else (s, v) :: p

/-! ### The light word code (R294, R295) -/

/-- Symbols of a stored word: data bytes 0 to 63, the tag 64, the checks q0 to q6 as 65 to 71. Symbol s is the coefficient of
x^(71 − s). -/
def lightSymbols : Nat := 72

/-- The value of a word's difference polynomial at α^j. -/
def lightSyn (p : Pat) (j : Nat) : Nat := p.foldl (fun a (s, v) => a ^^^ gfMul v (gfExp (j * (71 - s)))) 0

/-- The light decoder (R295): what is left of a pattern after it corrects at most one symbol; none where it detects a failure. A
pattern of 7 or more wrong symbols, outside its guarantee, may leave a rest. -/
def lightDecode (p : Pat) : Option Pat :=
  if p.isEmpty then some p
  else
    let syn := (List.range 7).map (lightSyn p)
    if syn.all (· == 0) then some p
    else
      ((List.range lightSymbols).find? fun s => (List.range 7).all fun j => syn.getD j 0 == gfMul (syn.getD 0 0) (gfExp (j * (71 - s)))).bind
        fun s => if syn.getD 0 0 = 0 then none else some (p.flip s (syn.getD 0 0))

/-- The class of a word's pattern: 0 as written, 1 corrected by the light code, 2 its light code fails. A pattern of more than 6 wrong
symbols that the decoder would pass or miscorrect counts as failed (DESIGN CHOICE, log entry 83: R295 leaves it outside the guarantee). -/
def lightClass (p : Pat) : Nat :=
  if p.isEmpty then 0
  else match lightDecode p with
    | some r => if r.isEmpty then 1 else 2
    | none => 2

/-- The generator polynomial's lower coefficients, x⁶ first: g(x) = (x − α⁰)…(x − α⁶) without its leading term. -/
def lightGen : List Nat :=
  ((List.range 7).foldl (fun (g : List Nat) i =>
    ((g ++ [0]).zip (0 :: g)).map fun (a, b) => a ^^^ gfMul b (gfExp i)) [1]).drop 1

/-- The checks q0 to q6 of 64 data bytes and a tag (R294): the remainder of x⁷·m(x) by g(x), highest coefficient first. -/
def lightChecks (data : List Nat) (tag : Nat) : List Nat :=
  (data ++ [tag]).foldl (fun (r : List Nat) s =>
    let f := s ^^^ r.headD 0
    ((r.drop 1 ++ [0]).zip lightGen).map fun (a, g) => a ^^^ gfMul f g) (List.replicate 7 0)

/-- The 8 check bytes of a word: the tag, with POISON in bit 0, and the checks. -/
def wordChecks (data : List Nat) (poison : Bool) : List Nat :=
  let tag := if poison then 1 else 0
  tag :: lightChecks data tag

/-! ### The strong page code (R297, R299) -/

/-- The check bytes p_k0, p_k1 of codeword k of a page's data differences: those that make c(1) = c(α) = 0. -/
def strongPair (data : Pat) (k : Nat) : Nat × Nat :=
  let mine := data.filter fun x => x.1 % 32 == k
  let a := mine.foldl (fun a (_, v) => a ^^^ v) 0
  let b := mine.foldl (fun a (j, v) => a ^^^ gfMul v (gfExp (129 - j / 32))) 0
  -- p0 + p1 = a and α·p0 + p1 = b, so p0 = (a + b) ÷ (1 + α), and 1 + α = α^25
  let p0 := gfMul (a ^^^ b) (gfExp (255 - 25))
  (p0, a ^^^ p0)

/-- The 64 check-word bytes of a page's data differences, as a pattern (R297). -/
def strongCheck (data : Pat) : Pat :=
  let ks : List Nat := ((data.map Prod.fst).map (· % 32)).eraseDups
  (ks.flatMap fun k => [(2 * k, (strongPair data k).1), (2 * k + 1, (strongPair data k).2)]).filter fun x => x.2 != 0

/-- Decodes codeword k of a page (R299): what is left of the data pattern, given that of the check word's 64 bytes; none where it fails. -/
def strongDecode (data ck : Pat) (k : Nat) : Option Pat :=
  let mine := data.filter fun x => x.1 % 32 == k
  let p (i : Nat) : Nat := match ck.find? fun x => x.1 == i with | some x => x.2 | none => 0
  let s0 := mine.foldl (fun a (_, v) => a ^^^ v) (p (2 * k) ^^^ p (2 * k + 1))
  let s1 := mine.foldl (fun a (j, v) => a ^^^ gfMul v (gfExp (129 - j / 32))) (gfMul (p (2 * k)) 2 ^^^ p (2 * k + 1))
  if s0 = 0 ∧ s1 = 0 then some data
  else if s0 ≠ 0 ∧ s1 ≠ 0 then
    match gfLogRatio s0 s1 with
    | some e => if e ≤ 129 then some (if e ≥ 2 then data.flip (32 * (129 - e) + k) s0 else data) else none
    | none => none
  else none

/-- Decodes every codeword that a difference touches (R299 step 2): what is left of the data pattern; none where one fails. -/
def pageDecode (data ck : Pat) : Option Pat :=
  let ks : List Nat := ((data.map Prod.fst).map (· % 32) ++ (ck.map Prod.fst).map (· / 2)).eraseDups
  ks.foldl (fun acc k => acc.bind fun d => strongDecode d ck k) (some data)

end Sys2Proof.Machine
end

