-- ==== Sys2Proof/Machine/RegMap.lean ====
section
/-! DEFINITION. The register map (R11, R12, R38 to R40): every register the manual gives, its fields with their access type and
reset value as its register table prints them, the block that holds it, and the address map from a local address to a register.
The tables follow the register tables of the chapters (R40, R86, R165, R166, R196, R241, R243, R281, R283, R311 to R313, R353, R354,
R376 to R378, R414 to R416, R462 to R465, R493 to R495, R523 to R525, R549 to R551, R572 to R574, R599). A field whose reset the
table gives as fused, fixed or from the Ledger has 0 here and is computed where the register is read. -/

namespace Sys2Proof.Machine

/-- The access types of R12 (a reserved field has no entry: it reads 0 and ignores writes). -/
inductive Acc where
  | ro | rw | w1c | w1s | wo
  deriving DecidableEq, Repr

/-- Register blocks, by the prefixes of R38 and R39 (C: the core-side block of a position; H: hub only). -/
inductive Block where
  | BRG | PLT | SEQ | MXA | VEC | ATN | KVD | SLC | BNK | FMC | ECC | SCB | NOC | CTL | QOS | QOSC | ARQ | DPQ | PCE | TWP | TWL | DAT | DTD | DTDH | UCP | RSTC | RST | FLP | HSK | THM | CTRC | CTR | FBK | SVC | FWU | LDG | ATT
  deriving DecidableEq, Repr

/-- Every register of the manual, under its own name; a register that repeats is indexed by unit and index (see `RegId`). -/
inductive Reg where
  | BRG_DIEID | BRG_REVCAP | BRG_RAERR_STS | BRG_RAERR_ADDR_LO | BRG_RAERR_ADDR_HI | BRG_RAERR_CNT | BRG_LOCAL_STS | BRG_MOD_STS | BRG_MOD_TIME
  | PLT_SRC_LO | PLT_SRC_HI | PLT_SRC_LEN | PLT_CMD | PLT_STS | PLT_DETAIL | PLT_DETAIL2 | PLT_ID_LO | PLT_ID_HI | PLT_PART_STS | PLT_DIE_STS | SEQ_STS
  | SEQ_PC | SEQ_FAULT | SEQ_CFG | SEQ_FARE | SEQ_SCR_CE | SEQ_SCR_UE | SEQ_EVC | MXA_STS | MXA_FLAGS | MXA_POISON_CNT | MXA_CVT | VEC_STS | VEC_FLAGS
  | VEC_POISON_CNT | VEC_CVT | VEC_SDST | VEC_TFSUM | VEC_RWCNT | VEC_RRCNT | VEC_MASK_LO | VEC_MASK_HI | VEC_MON_CLR | VEC_MON | VEC_LFLAG_LO
  | VEC_LFLAG_HI | ATN_STS | ATN_RELAY_CFG | ATN_RELAY_LAND_LO | ATN_RELAY_LAND_HI | ATN_RELAY_NEXT_LO | ATN_RELAY_NEXT_HI | ATN_RELAY_CNT | KVD_STS
  | KVD_DETAIL | KVD_POISON_CNT | SLC_STS | SLC_PENDING | SLC_CE | SLC_SLOWFIX | SLC_POISON | SLC_PEND_POISON | SLC_BUSY_CNT | SLC_BUSY_CAP
  | SLC_BUSY_ADDR | BNK_STS | BNK_FLAGS | BNK_POISON_CNT | BNK_PROGRESS | FMC_STS | FMC_CTL | FMC_CE | FMC_SLOWFIX | FMC_POISON | FMC_RETRAIN | ECC_STS
  | ECC_PENDING | ECC_RECOMP | ECC_SLOW | SCB_CMD | SCB_START_LO | SCB_START_HI | SCB_LEN_LO | SCB_LEN_HI | SCB_SUM_LO | SCB_SUM_HI | SCB_STS
  | SCB_PROGRESS | SCB_RPR_CMD | SCB_RPR_PAGE | SCB_RPR_STS | NOC_STS | NOC_ABSORB_CNT | NOC_DRAIN_POISON_CNT | NOC_TIMEOUT_CNT | NOC_LATE_CNT
  | NOC_LINKDOWN_CNT | NOC_RET_STS | NOC_RET_STALL_CNT | NOC_FLIT_CNT | CTL_STS | CTL_SENT_CNT | CTL_RCVD_CNT | CTL_DROP_CNT | CTL_UNDELIV_CNT
  | QOS_HUBSRC_CFG | QOS_HUBSRC_REG | QOS_MOD_WEIGHT | QOS_VC_BSUM | QOS_VC_RSUM | QOS_PUB_STS | QOS_COMP_LOAD | QOS_COMP_DLMISS | QOS_TGT_LOAD
  | QOS_TGT_DLMISS | QOS_SRC_REG | QOS_SRC_HOLD_CNT | ARQ_COUNT | ARQ_ERR | ARQ_REWIND_CNT | ARQ_DISCARD_CNT | ARQ_POISON_CNT | ARQ_ABORT | ARQ_DEFFARE
  | DPQ_COUNT | DPQ_HEAD | DPQ_POP | DPQ_REWIND_CNT | DPQ_POISON_CNT | DPQ_DISCARD_CNT | PCE_FN_STS | PCE_RWIN | PCE_EVSTS | PCE_ERR_STS
  | PCE_ERR_ADDR_LO | PCE_ERR_ADDR_HI | PCE_PWDROP_CNT | PCE_MIR_CFG | PCE_MIR_ADDR_LO | PCE_MIR_ADDR_HI | PCE_MIR_SEQ | PCE_WIN_LO | PCE_WIN_HI
  | TWP_STS | TWP_NB | TWP_DATUM | TWP_REG | TWP_NOROUTE_CNT | TWP_HOPLIM_CNT | TWP_NOWIN_CNT | TWP_MALFORMED_CNT | TWP_LINKLOST_CNT | TWP_ADM_CFG
  | TWP_ADM_BASE_LO | TWP_ADM_BASE_HI | TWP_ADM_LEN | TWP_GRP | TWP_MBR | TWL_STS | TWL_CTL | TWL_FEC_CORR | TWL_FEC_FAIL | TWL_CRC_ERR
  | TWL_REPLAY_CNT | TWL_RETRAIN_CNT | DAT_NOW_LO | DAT_NOW_HI | DAT_DSTS | DAT_STS | DAT_OFFSET | DAT_STEP_CNT | DAT_LOST_CNT | DAT_MM | DTD_STS
  | DTD_CTL | DTD_GRP | DTD_LASTFAIL | DTD_SWAP_CNT | DTD_REPLAY_CNT | DTD_RETRAIN_CNT | DTD_LEVEL | DTD_PSTOP | UCP_STS | UCP_CTL | UCP_ID | UCP_CAP
  | UCP_ADM_CFG | UCP_ADM_BASE_LO | UCP_ADM_BASE_HI | UCP_ADM_LEN | UCP_CRC_ERR | UCP_REPLAY_CNT | UCP_MALFORMED_CNT | UCP_NOWIN_CNT | UCP_LOST_CNT
  | RST_CMD | RST_STS | RST_CL_CMD | RST_CL_STS | RST_PDIE_STS | RST_MOD_CMD | RST_PART_CMD | RST_PART_STS | RST_PFAULT_A | RST_PFAULT_B | FLP_MOD_STS
  | FLP_RECORD | FLP_DIE_STS | HSK_STS | HSK_ROUND | HSK_CLKLOSS | HSK_CLKLOSS_F | HSK_PIN | HSK_CH | THM_SPOT | THM_LAYER | THM_FAR | THM_THR_CNT
  | THM_STS | THM_ROR | THM_FLOW_CFG | THM_FLOW | THM_HEARTH | THM_EXCURSIONS | THM_COMP_CRIT | THM_LAST_ROR | CTR_N_LO | CTR_N_HI | CTR_FRZ_CMD
  | CTR_FRZ_STS | CTR_FRZ_DATUM_LO | CTR_FRZ_DATUM_HI | CTR_FRZ_AT_LO | CTR_FRZ_AT_HI | CTR_SMP_STS | CTR_SMP_SEQ | CTR_SMP_SKIP | CTR_DIE_STS
  | FBK_STS | FBK_WRPTR | FBK_POSTPTR | FBK_LOST | FBK_FILTER | FBK_TRIG_CFG | FBK_TRIG_MASK | FBK_TRIG_VAL | FBK_TRIG_DATUM_LO | FBK_TRIG_DATUM_HI
  | FBK_CMD | FBK_CMD_STS | FBK_AT_LO | FBK_AT_HI | FBK_MARK | FBK_DUMP_FIRST | FBK_DUMP_COUNT | FBK_DUMP_DST_LO | FBK_DUMP_DST_HI | SVC_STS | FWU_STS
  | FWU_VER_ACT | FWU_VER_STG | FWU_OWNER | LDG_STS | ATT_CMD | ATT_STS | ATT_DST_LO | ATT_DST_HI
  deriving DecidableEq, Repr

/-- One field of a register: the register, its lowest bit, its width, its access type (R12) and its reset value. -/
structure RegField where
  reg : Reg
  lo : Nat
  width : Nat
  acc : Acc
  reset : Nat
  deriving DecidableEq, Repr

namespace F
def BRG_DIEID_DIE_NUM : RegField := ⟨.BRG_DIEID, 0, 3, .ro, 0⟩
def BRG_DIEID_HUB : RegField := ⟨.BRG_DIEID, 3, 1, .ro, 0⟩
def BRG_DIEID_REVISION : RegField := ⟨.BRG_DIEID, 8, 8, .ro, 0⟩
def BRG_DIEID_VARIANT : RegField := ⟨.BRG_DIEID, 16, 2, .ro, 0⟩
def BRG_DIEID_COMP_FITTED : RegField := ⟨.BRG_DIEID, 18, 1, .ro, 0⟩
def BRG_REVCAP_MAX_LEVEL : RegField := ⟨.BRG_REVCAP, 0, 8, .ro, 0⟩
def BRG_RAERR_STS_ERR : RegField := ⟨.BRG_RAERR_STS, 0, 1, .w1c, 0⟩
def BRG_RAERR_STS_OVF : RegField := ⟨.BRG_RAERR_STS, 1, 1, .w1c, 0⟩
def BRG_RAERR_STS_KIND : RegField := ⟨.BRG_RAERR_STS, 2, 2, .ro, 0⟩
def BRG_RAERR_STS_WRITE : RegField := ⟨.BRG_RAERR_STS, 4, 1, .ro, 0⟩
def BRG_RAERR_STS_REQUESTER : RegField := ⟨.BRG_RAERR_STS, 16, 12, .ro, 0⟩
def BRG_RAERR_ADDR_LO_ADDR_LO : RegField := ⟨.BRG_RAERR_ADDR_LO, 0, 32, .ro, 0⟩
def BRG_RAERR_ADDR_HI_ADDR_HI : RegField := ⟨.BRG_RAERR_ADDR_HI, 0, 16, .ro, 0⟩
def BRG_RAERR_CNT_COUNT : RegField := ⟨.BRG_RAERR_CNT, 0, 32, .ro, 0⟩
def BRG_LOCAL_STS_MACHINES : RegField := ⟨.BRG_LOCAL_STS, 0, 12, .ro, 0⟩
def BRG_MOD_STS_STAGE : RegField := ⟨.BRG_MOD_STS, 0, 4, .ro, 0⟩
def BRG_MOD_STS_READY : RegField := ⟨.BRG_MOD_STS, 4, 1, .ro, 0⟩
def BRG_MOD_STS_WARM : RegField := ⟨.BRG_MOD_STS, 5, 1, .ro, 0⟩
def BRG_MOD_STS_FALLBACK : RegField := ⟨.BRG_MOD_STS, 6, 1, .ro, 0⟩
def BRG_MOD_STS_REASON : RegField := ⟨.BRG_MOD_STS, 8, 8, .ro, 1⟩
def BRG_MOD_TIME_MS : RegField := ⟨.BRG_MOD_TIME, 0, 32, .ro, 0⟩
def PLT_SRC_LO_ADDR_LO : RegField := ⟨.PLT_SRC_LO, 6, 26, .rw, 0⟩
def PLT_SRC_HI_ADDR_HI : RegField := ⟨.PLT_SRC_HI, 0, 16, .rw, 0⟩
def PLT_SRC_LEN_LEN : RegField := ⟨.PLT_SRC_LEN, 0, 32, .rw, 0⟩
def PLT_CMD_OP : RegField := ⟨.PLT_CMD, 0, 3, .wo, 0⟩
def PLT_CMD_PART : RegField := ⟨.PLT_CMD, 8, 4, .wo, 0⟩
def PLT_STS_BUSY : RegField := ⟨.PLT_STS, 0, 1, .ro, 0⟩
def PLT_STS_DONE : RegField := ⟨.PLT_STS, 1, 1, .w1c, 0⟩
def PLT_STS_CMD_LOST : RegField := ⟨.PLT_STS, 2, 1, .w1c, 0⟩
def PLT_STS_RESULT : RegField := ⟨.PLT_STS, 8, 8, .ro, 0⟩
def PLT_STS_STEP : RegField := ⟨.PLT_STS, 16, 3, .ro, 0⟩
def PLT_DETAIL_VALUE : RegField := ⟨.PLT_DETAIL, 0, 32, .ro, 0⟩
def PLT_DETAIL2_VALUE : RegField := ⟨.PLT_DETAIL2, 0, 32, .ro, 0⟩
def PLT_ID_LO_ID : RegField := ⟨.PLT_ID_LO, 0, 32, .ro, 0⟩
def PLT_ID_HI_ID : RegField := ⟨.PLT_ID_HI, 0, 32, .ro, 0⟩
def PLT_PART_STS_STATE : RegField := ⟨.PLT_PART_STS, 0, 3, .ro, 0⟩
def PLT_PART_STS_KIND : RegField := ⟨.PLT_PART_STS, 3, 2, .ro, 0⟩
def PLT_PART_STS_FUNCTION : RegField := ⟨.PLT_PART_STS, 8, 4, .ro, 0⟩
def PLT_PART_STS_LAST_RESULT : RegField := ⟨.PLT_PART_STS, 16, 8, .ro, 0⟩
def PLT_DIE_STS_WRITING : RegField := ⟨.PLT_DIE_STS, 0, 1, .ro, 0⟩
def PLT_DIE_STS_FAULT : RegField := ⟨.PLT_DIE_STS, 1, 1, .ro, 0⟩
def PLT_DIE_STS_PARTS : RegField := ⟨.PLT_DIE_STS, 8, 8, .ro, 0⟩
def SEQ_STS_STATE : RegField := ⟨.SEQ_STS, 0, 3, .ro, 0⟩
def SEQ_STS_ISSUE_STALL : RegField := ⟨.SEQ_STS, 3, 1, .ro, 0⟩
def SEQ_STS_MXQ : RegField := ⟨.SEQ_STS, 8, 4, .ro, 0⟩
def SEQ_STS_VXQ : RegField := ⟨.SEQ_STS, 12, 4, .ro, 0⟩
def SEQ_STS_DMQ : RegField := ⟨.SEQ_STS, 16, 4, .ro, 0⟩
def SEQ_STS_BKQ : RegField := ⟨.SEQ_STS, 20, 4, .ro, 0⟩
def SEQ_PC_PC : RegField := ⟨.SEQ_PC, 3, 18, .ro, 0⟩
def SEQ_FAULT_CODE : RegField := ⟨.SEQ_FAULT, 0, 8, .ro, 0⟩
def SEQ_FAULT_ENGINE : RegField := ⟨.SEQ_FAULT, 8, 3, .ro, 0⟩
def SEQ_FAULT_ENGINE_STS : RegField := ⟨.SEQ_FAULT, 16, 8, .ro, 0⟩
def SEQ_CFG_CFG : RegField := ⟨.SEQ_CFG, 0, 32, .ro, 0⟩
def SEQ_FARE_FARE : RegField := ⟨.SEQ_FARE, 0, 8, .ro, 0⟩
def SEQ_SCR_CE_COUNT : RegField := ⟨.SEQ_SCR_CE, 0, 32, .ro, 0⟩
def SEQ_SCR_UE_COUNT : RegField := ⟨.SEQ_SCR_UE, 0, 32, .ro, 0⟩
def SEQ_EVC_COUNT : RegField := ⟨.SEQ_EVC, 0, 32, .ro, 0⟩
def MXA_STS_BUSY : RegField := ⟨.MXA_STS, 0, 1, .ro, 0⟩
def MXA_STS_TILE_VALID : RegField := ⟨.MXA_STS, 1, 1, .ro, 0⟩
def MXA_STS_TILE_FMT : RegField := ⟨.MXA_STS, 4, 4, .ro, 0⟩
def MXA_STS_LAST_ERR : RegField := ⟨.MXA_STS, 8, 8, .ro, 0⟩
def MXA_STS_STALL_TILE : RegField := ⟨.MXA_STS, 16, 1, .ro, 0⟩
def MXA_STS_STALL_RING : RegField := ⟨.MXA_STS, 17, 1, .ro, 0⟩
def MXA_FLAGS_INVALID : RegField := ⟨.MXA_FLAGS, 0, 1, .w1c, 0⟩
def MXA_FLAGS_OVERFLOW : RegField := ⟨.MXA_FLAGS, 1, 1, .w1c, 0⟩
def MXA_FLAGS_UNDERFLOW : RegField := ⟨.MXA_FLAGS, 2, 1, .w1c, 0⟩
def MXA_FLAGS_INEXACT : RegField := ⟨.MXA_FLAGS, 3, 1, .w1c, 0⟩
def MXA_FLAGS_SATURATION : RegField := ⟨.MXA_FLAGS, 4, 1, .w1c, 0⟩
def MXA_POISON_CNT_COUNT : RegField := ⟨.MXA_POISON_CNT, 0, 32, .ro, 0⟩
def MXA_CVT_CVT : RegField := ⟨.MXA_CVT, 0, 32, .ro, 0⟩
def VEC_STS_BUSY : RegField := ⟨.VEC_STS, 0, 1, .ro, 0⟩
def VEC_STS_RING_WAIT : RegField := ⟨.VEC_STS, 1, 1, .ro, 0⟩
def VEC_STS_CVT_WAIT : RegField := ⟨.VEC_STS, 2, 1, .ro, 0⟩
def VEC_STS_LAST_ERR : RegField := ⟨.VEC_STS, 8, 8, .ro, 0⟩
def VEC_FLAGS_INVALID : RegField := ⟨.VEC_FLAGS, 0, 1, .w1c, 0⟩
def VEC_FLAGS_OVERFLOW : RegField := ⟨.VEC_FLAGS, 1, 1, .w1c, 0⟩
def VEC_FLAGS_UNDERFLOW : RegField := ⟨.VEC_FLAGS, 2, 1, .w1c, 0⟩
def VEC_FLAGS_INEXACT : RegField := ⟨.VEC_FLAGS, 3, 1, .w1c, 0⟩
def VEC_FLAGS_SATURATION : RegField := ⟨.VEC_FLAGS, 4, 1, .w1c, 0⟩
def VEC_POISON_CNT_COUNT : RegField := ⟨.VEC_POISON_CNT, 0, 32, .ro, 0⟩
def VEC_CVT_CVT : RegField := ⟨.VEC_CVT, 0, 32, .ro, 0⟩
def VEC_SDST_SDST : RegField := ⟨.VEC_SDST, 0, 21, .ro, 0⟩
def VEC_TFSUM_INVALID : RegField := ⟨.VEC_TFSUM, 0, 1, .w1c, 0⟩
def VEC_TFSUM_OVERFLOW : RegField := ⟨.VEC_TFSUM, 1, 1, .w1c, 0⟩
def VEC_TFSUM_UNDERFLOW : RegField := ⟨.VEC_TFSUM, 2, 1, .w1c, 0⟩
def VEC_TFSUM_INEXACT : RegField := ⟨.VEC_TFSUM, 3, 1, .w1c, 0⟩
def VEC_TFSUM_SATURATION : RegField := ⟨.VEC_TFSUM, 4, 1, .w1c, 0⟩
def VEC_RWCNT_COUNT : RegField := ⟨.VEC_RWCNT, 0, 25, .ro, 0⟩
def VEC_RRCNT_COUNT : RegField := ⟨.VEC_RRCNT, 0, 25, .ro, 0⟩
def VEC_MASK_LO_LANES : RegField := ⟨.VEC_MASK_LO, 0, 32, .ro, 4294967295⟩
def VEC_MASK_HI_LANES : RegField := ⟨.VEC_MASK_HI, 0, 32, .ro, 4294967295⟩
def VEC_MON_CLR_SLOTS : RegField := ⟨.VEC_MON_CLR, 0, 16, .wo, 0⟩
def VEC_MON_VALUE : RegField := ⟨.VEC_MON, 0, 32, .ro, 0⟩
def VEC_LFLAG_LO_LANES : RegField := ⟨.VEC_LFLAG_LO, 0, 32, .ro, 0⟩
def VEC_LFLAG_HI_LANES : RegField := ⟨.VEC_LFLAG_HI, 0, 32, .ro, 0⟩
def ATN_STS_BUSY : RegField := ⟨.ATN_STS, 0, 1, .ro, 0⟩
def ATN_STS_RELAY_ACTIVE : RegField := ⟨.ATN_STS, 1, 1, .ro, 0⟩
def ATN_STS_RELAY_ERR : RegField := ⟨.ATN_STS, 2, 1, .w1c, 0⟩
def ATN_STS_LAST_ERR : RegField := ⟨.ATN_STS, 8, 8, .ro, 0⟩
def ATN_RELAY_CFG_EN : RegField := ⟨.ATN_RELAY_CFG, 0, 1, .rw, 0⟩
def ATN_RELAY_CFG_SLOT_LINES : RegField := ⟨.ATN_RELAY_CFG, 8, 16, .rw, 0⟩
def ATN_RELAY_LAND_LO_ADDR_LO : RegField := ⟨.ATN_RELAY_LAND_LO, 6, 26, .rw, 0⟩
def ATN_RELAY_LAND_HI_ADDR_HI : RegField := ⟨.ATN_RELAY_LAND_HI, 0, 16, .rw, 0⟩
def ATN_RELAY_NEXT_LO_ADDR_LO : RegField := ⟨.ATN_RELAY_NEXT_LO, 6, 26, .rw, 0⟩
def ATN_RELAY_NEXT_HI_ADDR_HI : RegField := ⟨.ATN_RELAY_NEXT_HI, 0, 16, .rw, 0⟩
def ATN_RELAY_CNT_COUNT : RegField := ⟨.ATN_RELAY_CNT, 0, 32, .ro, 0⟩
def KVD_STS_BUSY : RegField := ⟨.KVD_STS, 0, 1, .ro, 0⟩
def KVD_STS_TABLE_WAIT : RegField := ⟨.KVD_STS, 1, 1, .ro, 0⟩
def KVD_STS_RING_WAIT : RegField := ⟨.KVD_STS, 2, 1, .ro, 0⟩
def KVD_STS_LAST_STS : RegField := ⟨.KVD_STS, 8, 8, .ro, 0⟩
def KVD_STS_LAST_OP : RegField := ⟨.KVD_STS, 16, 4, .ro, 0⟩
def KVD_DETAIL_DETAIL : RegField := ⟨.KVD_DETAIL, 0, 32, .ro, 0⟩
def KVD_POISON_CNT_COUNT : RegField := ⟨.KVD_POISON_CNT, 0, 32, .ro, 0⟩
def SLC_STS_CLEANING : RegField := ⟨.SLC_STS, 0, 1, .ro, 0⟩
def SLC_STS_LODGER : RegField := ⟨.SLC_STS, 1, 1, .ro, 0⟩
def SLC_STS_LIVE : RegField := ⟨.SLC_STS, 2, 1, .ro, 0⟩
def SLC_STS_REFRESH : RegField := ⟨.SLC_STS, 8, 16, .ro, 0⟩
def SLC_PENDING_PAGES : RegField := ⟨.SLC_PENDING, 0, 19, .ro, 0⟩
def SLC_CE_COUNT : RegField := ⟨.SLC_CE, 0, 32, .ro, 0⟩
def SLC_SLOWFIX_COUNT : RegField := ⟨.SLC_SLOWFIX, 0, 32, .ro, 0⟩
def SLC_POISON_COUNT : RegField := ⟨.SLC_POISON, 0, 32, .ro, 0⟩
def SLC_PEND_POISON_COUNT : RegField := ⟨.SLC_PEND_POISON, 0, 32, .ro, 0⟩
def SLC_BUSY_CNT_COUNT : RegField := ⟨.SLC_BUSY_CNT, 0, 32, .ro, 0⟩
def SLC_BUSY_CAP_VALID : RegField := ⟨.SLC_BUSY_CAP, 0, 1, .w1c, 0⟩
def SLC_BUSY_CAP_OVF : RegField := ⟨.SLC_BUSY_CAP, 1, 1, .w1c, 0⟩
def SLC_BUSY_CAP_REQUESTER : RegField := ⟨.SLC_BUSY_CAP, 16, 12, .ro, 0⟩
def SLC_BUSY_ADDR_OFFSET : RegField := ⟨.SLC_BUSY_ADDR, 0, 25, .ro, 0⟩
def BNK_STS_BUSY : RegField := ⟨.BNK_STS, 0, 1, .ro, 0⟩
def BNK_STS_PROTECT : RegField := ⟨.BNK_STS, 1, 1, .ro, 0⟩
def BNK_STS_LAST_ERR : RegField := ⟨.BNK_STS, 8, 8, .ro, 0⟩
def BNK_STS_ISSUER : RegField := ⟨.BNK_STS, 16, 2, .ro, 0⟩
def BNK_STS_TSLOT_VALID : RegField := ⟨.BNK_STS, 20, 4, .ro, 0⟩
def BNK_FLAGS_INVALID : RegField := ⟨.BNK_FLAGS, 0, 1, .w1c, 0⟩
def BNK_FLAGS_OVERFLOW : RegField := ⟨.BNK_FLAGS, 1, 1, .w1c, 0⟩
def BNK_FLAGS_UNDERFLOW : RegField := ⟨.BNK_FLAGS, 2, 1, .w1c, 0⟩
def BNK_FLAGS_INEXACT : RegField := ⟨.BNK_FLAGS, 3, 1, .w1c, 0⟩
def BNK_FLAGS_SATURATION : RegField := ⟨.BNK_FLAGS, 4, 1, .w1c, 0⟩
def BNK_POISON_CNT_COUNT : RegField := ⟨.BNK_POISON_CNT, 0, 32, .ro, 0⟩
def BNK_PROGRESS_PAGES : RegField := ⟨.BNK_PROGRESS, 0, 19, .ro, 0⟩
def FMC_STS_UP : RegField := ⟨.FMC_STS, 0, 1, .ro, 0⟩
def FMC_STS_ISOLATED : RegField := ⟨.FMC_STS, 1, 1, .ro, 0⟩
def FMC_STS_RETRAINING : RegField := ⟨.FMC_STS, 2, 1, .ro, 0⟩
def FMC_STS_LOST : RegField := ⟨.FMC_STS, 3, 1, .ro, 0⟩
def FMC_STS_REFRESH : RegField := ⟨.FMC_STS, 4, 2, .ro, 0⟩
def FMC_STS_SLOW_Q : RegField := ⟨.FMC_STS, 8, 5, .ro, 0⟩
def FMC_CTL_ISOLATE : RegField := ⟨.FMC_CTL, 0, 1, .w1s, 0⟩
def FMC_CE_COUNT : RegField := ⟨.FMC_CE, 0, 32, .ro, 0⟩
def FMC_SLOWFIX_COUNT : RegField := ⟨.FMC_SLOWFIX, 0, 32, .ro, 0⟩
def FMC_POISON_COUNT : RegField := ⟨.FMC_POISON, 0, 32, .ro, 0⟩
def FMC_RETRAIN_COUNT : RegField := ⟨.FMC_RETRAIN, 0, 32, .ro, 0⟩
def ECC_STS_QUEUE : RegField := ⟨.ECC_STS, 0, 7, .ro, 0⟩
def ECC_STS_ACTIVE : RegField := ⟨.ECC_STS, 8, 3, .ro, 0⟩
def ECC_PENDING_PAGES : RegField := ⟨.ECC_PENDING, 0, 26, .ro, 0⟩
def ECC_RECOMP_COUNT : RegField := ⟨.ECC_RECOMP, 0, 32, .ro, 0⟩
def ECC_SLOW_COUNT : RegField := ⟨.ECC_SLOW, 0, 32, .ro, 0⟩
def SCB_CMD_OP : RegField := ⟨.SCB_CMD, 0, 2, .wo, 0⟩
def SCB_CMD_KIND : RegField := ⟨.SCB_CMD, 2, 2, .wo, 0⟩
def SCB_CMD_UNIT : RegField := ⟨.SCB_CMD, 8, 8, .wo, 0⟩
def SCB_CMD_FARE : RegField := ⟨.SCB_CMD, 16, 8, .wo, 0⟩
def SCB_START_LO_VALUE_LO : RegField := ⟨.SCB_START_LO, 12, 20, .rw, 0⟩
def SCB_START_HI_VALUE_HI : RegField := ⟨.SCB_START_HI, 0, 7, .rw, 0⟩
def SCB_LEN_LO_VALUE_LO : RegField := ⟨.SCB_LEN_LO, 12, 20, .rw, 0⟩
def SCB_LEN_HI_VALUE_HI : RegField := ⟨.SCB_LEN_HI, 0, 7, .rw, 0⟩
def SCB_SUM_LO_ADDR_LO : RegField := ⟨.SCB_SUM_LO, 6, 26, .rw, 0⟩
def SCB_SUM_HI_ADDR_HI : RegField := ⟨.SCB_SUM_HI, 0, 16, .rw, 0⟩
def SCB_STS_BUSY : RegField := ⟨.SCB_STS, 0, 1, .ro, 0⟩
def SCB_STS_DONE : RegField := ⟨.SCB_STS, 1, 1, .w1c, 0⟩
def SCB_STS_CMD_LOST : RegField := ⟨.SCB_STS, 2, 1, .w1c, 0⟩
def SCB_STS_RESULT : RegField := ⟨.SCB_STS, 8, 8, .ro, 0⟩
def SCB_PROGRESS_PAGES : RegField := ⟨.SCB_PROGRESS, 0, 27, .ro, 0⟩
def SCB_RPR_CMD_GO : RegField := ⟨.SCB_RPR_CMD, 0, 1, .wo, 0⟩
def SCB_RPR_CMD_KIND : RegField := ⟨.SCB_RPR_CMD, 1, 2, .wo, 0⟩
def SCB_RPR_CMD_UNIT : RegField := ⟨.SCB_RPR_CMD, 8, 8, .wo, 0⟩
def SCB_RPR_PAGE_PAGE : RegField := ⟨.SCB_RPR_PAGE, 0, 27, .rw, 0⟩
def SCB_RPR_STS_BUSY : RegField := ⟨.SCB_RPR_STS, 0, 1, .ro, 0⟩
def SCB_RPR_STS_DONE : RegField := ⟨.SCB_RPR_STS, 1, 1, .w1c, 0⟩
def SCB_RPR_STS_RESULT : RegField := ⟨.SCB_RPR_STS, 8, 8, .ro, 0⟩
def SCB_RPR_STS_SPARES_LEFT : RegField := ⟨.SCB_RPR_STS, 16, 8, .ro, 0⟩
def NOC_STS_ENDPOINT_STATE : RegField := ⟨.NOC_STS, 0, 2, .ro, 3⟩
def NOC_STS_LODGER : RegField := ⟨.NOC_STS, 2, 1, .ro, 0⟩
def NOC_STS_DRAINING : RegField := ⟨.NOC_STS, 3, 1, .ro, 0⟩
def NOC_ABSORB_CNT_COUNT : RegField := ⟨.NOC_ABSORB_CNT, 0, 32, .ro, 0⟩
def NOC_DRAIN_POISON_CNT_COUNT : RegField := ⟨.NOC_DRAIN_POISON_CNT, 0, 32, .ro, 0⟩
def NOC_TIMEOUT_CNT_COUNT : RegField := ⟨.NOC_TIMEOUT_CNT, 0, 32, .ro, 0⟩
def NOC_LATE_CNT_COUNT : RegField := ⟨.NOC_LATE_CNT, 0, 32, .ro, 0⟩
def NOC_LINKDOWN_CNT_COUNT : RegField := ⟨.NOC_LINKDOWN_CNT, 0, 32, .ro, 0⟩
def NOC_RET_STS_FLITS : RegField := ⟨.NOC_RET_STS, 0, 4, .ro, 0⟩
def NOC_RET_STS_HIGH : RegField := ⟨.NOC_RET_STS, 8, 4, .ro, 0⟩
def NOC_RET_STALL_CNT_COUNT : RegField := ⟨.NOC_RET_STALL_CNT, 0, 32, .ro, 0⟩
def NOC_FLIT_CNT_COUNT : RegField := ⟨.NOC_FLIT_CNT, 0, 32, .ro, 0⟩
def CTL_STS_RXQ0 : RegField := ⟨.CTL_STS, 0, 5, .ro, 0⟩
def CTL_STS_RXQ1 : RegField := ⟨.CTL_STS, 8, 5, .ro, 0⟩
def CTL_STS_TXQ : RegField := ⟨.CTL_STS, 16, 3, .ro, 0⟩
def CTL_SENT_CNT_COUNT : RegField := ⟨.CTL_SENT_CNT, 0, 32, .ro, 0⟩
def CTL_RCVD_CNT_COUNT : RegField := ⟨.CTL_RCVD_CNT, 0, 32, .ro, 0⟩
def CTL_DROP_CNT_COUNT : RegField := ⟨.CTL_DROP_CNT, 0, 32, .ro, 0⟩
def CTL_UNDELIV_CNT_COUNT : RegField := ⟨.CTL_UNDELIV_CNT, 0, 32, .ro, 0⟩
def QOS_HUBSRC_CFG_FARE : RegField := ⟨.QOS_HUBSRC_CFG, 0, 8, .rw, 0⟩
def QOS_HUBSRC_CFG_VC : RegField := ⟨.QOS_HUBSRC_CFG, 8, 2, .rw, 2⟩
def QOS_HUBSRC_CFG_DL : RegField := ⟨.QOS_HUBSRC_CFG, 10, 1, .rw, 0⟩
def QOS_HUBSRC_CFG_DLOFF : RegField := ⟨.QOS_HUBSRC_CFG, 16, 15, .rw, 0⟩
def QOS_HUBSRC_REG_RATE : RegField := ⟨.QOS_HUBSRC_REG, 0, 16, .rw, 1280⟩
def QOS_HUBSRC_REG_BURST : RegField := ⟨.QOS_HUBSRC_REG, 16, 16, .rw, 64⟩
def QOS_MOD_WEIGHT_WEIGHT : RegField := ⟨.QOS_MOD_WEIGHT, 0, 16, .rw, 1⟩
def QOS_VC_BSUM_BSUM : RegField := ⟨.QOS_VC_BSUM, 0, 24, .ro, 0⟩
def QOS_VC_BSUM_NONE : RegField := ⟨.QOS_VC_BSUM, 31, 1, .ro, 1⟩
def QOS_VC_RSUM_RSUM : RegField := ⟨.QOS_VC_RSUM, 0, 24, .ro, 0⟩
def QOS_PUB_STS_STALE : RegField := ⟨.QOS_PUB_STS, 0, 1, .ro, 1⟩
def QOS_PUB_STS_CFANIN_MAX : RegField := ⟨.QOS_PUB_STS, 8, 8, .ro, 0⟩
def QOS_COMP_LOAD_VALUE : RegField := ⟨.QOS_COMP_LOAD, 0, 32, .ro, 0⟩
def QOS_COMP_DLMISS_VALUE : RegField := ⟨.QOS_COMP_DLMISS, 0, 32, .ro, 0⟩
def QOS_TGT_LOAD_LOAD : RegField := ⟨.QOS_TGT_LOAD, 0, 17, .ro, 0⟩
def QOS_TGT_DLMISS_COUNT : RegField := ⟨.QOS_TGT_DLMISS, 0, 32, .ro, 0⟩
def QOS_SRC_REG_RATE : RegField := ⟨.QOS_SRC_REG, 0, 16, .ro, 0⟩
def QOS_SRC_REG_BURST : RegField := ⟨.QOS_SRC_REG, 16, 16, .ro, 0⟩
def QOS_SRC_HOLD_CNT_COUNT : RegField := ⟨.QOS_SRC_HOLD_CNT, 0, 32, .ro, 0⟩
def ARQ_COUNT_FREE : RegField := ⟨.ARQ_COUNT, 0, 11, .ro, 1024⟩
def ARQ_COUNT_PACKETS : RegField := ⟨.ARQ_COUNT, 16, 11, .ro, 0⟩
def ARQ_COUNT_STAGED : RegField := ⟨.ARQ_COUNT, 27, 1, .ro, 0⟩
def ARQ_COUNT_MODE : RegField := ⟨.ARQ_COUNT, 28, 1, .ro, 0⟩
def ARQ_COUNT_OWNED : RegField := ⟨.ARQ_COUNT, 29, 1, .ro, 0⟩
def ARQ_ERR_PARITY : RegField := ⟨.ARQ_ERR, 0, 1, .w1c, 0⟩
def ARQ_ERR_HOLE : RegField := ⟨.ARQ_ERR, 1, 1, .w1c, 0⟩
def ARQ_ERR_OVERRUN : RegField := ⟨.ARQ_ERR, 2, 1, .w1c, 0⟩
def ARQ_ERR_SIZE : RegField := ⟨.ARQ_ERR, 3, 1, .w1c, 0⟩
def ARQ_ERR_HEADER : RegField := ⟨.ARQ_ERR, 4, 1, .w1c, 0⟩
def ARQ_ERR_OVERFLOW : RegField := ⟨.ARQ_ERR, 5, 1, .w1c, 0⟩
def ARQ_ERR_LONG : RegField := ⟨.ARQ_ERR, 6, 1, .w1c, 0⟩
def ARQ_REWIND_CNT_COUNT : RegField := ⟨.ARQ_REWIND_CNT, 0, 32, .ro, 0⟩
def ARQ_DISCARD_CNT_COUNT : RegField := ⟨.ARQ_DISCARD_CNT, 0, 32, .ro, 0⟩
def ARQ_POISON_CNT_COUNT : RegField := ⟨.ARQ_POISON_CNT, 0, 32, .ro, 0⟩
def ARQ_ABORT_ABORT : RegField := ⟨.ARQ_ABORT, 0, 1, .wo, 0⟩
def ARQ_DEFFARE_FARE : RegField := ⟨.ARQ_DEFFARE, 0, 8, .ro, 0⟩
def DPQ_COUNT_PACKETS : RegField := ⟨.DPQ_COUNT, 0, 11, .ro, 0⟩
def DPQ_COUNT_WORDS : RegField := ⟨.DPQ_COUNT, 16, 11, .ro, 0⟩
def DPQ_COUNT_MODE : RegField := ⟨.DPQ_COUNT, 27, 1, .ro, 0⟩
def DPQ_COUNT_OWNED : RegField := ⟨.DPQ_COUNT, 28, 1, .ro, 0⟩
def DPQ_HEAD_WORDS_M1 : RegField := ⟨.DPQ_HEAD, 0, 9, .ro, 0⟩
def DPQ_HEAD_VALID : RegField := ⟨.DPQ_HEAD, 31, 1, .ro, 0⟩
def DPQ_POP_POP : RegField := ⟨.DPQ_POP, 0, 1, .wo, 0⟩
def DPQ_REWIND_CNT_COUNT : RegField := ⟨.DPQ_REWIND_CNT, 0, 32, .ro, 0⟩
def DPQ_POISON_CNT_COUNT : RegField := ⟨.DPQ_POISON_CNT, 0, 32, .ro, 0⟩
def DPQ_DISCARD_CNT_COUNT : RegField := ⟨.DPQ_DISCARD_CNT, 0, 32, .ro, 0⟩
def PCE_FN_STS_PART : RegField := ⟨.PCE_FN_STS, 0, 4, .ro, 0⟩
def PCE_FN_STS_BOUND : RegField := ⟨.PCE_FN_STS, 4, 1, .ro, 0⟩
def PCE_FN_STS_BAR2_SIZE : RegField := ⟨.PCE_FN_STS, 8, 4, .ro, 0⟩
def PCE_RWIN_INDEX : RegField := ⟨.PCE_RWIN, 0, 6, .rw, 0⟩
def PCE_EVSTS_EVENTS : RegField := ⟨.PCE_EVSTS, 0, 32, .w1c, 0⟩
def PCE_ERR_STS_VALID : RegField := ⟨.PCE_ERR_STS, 0, 1, .w1c, 0⟩
def PCE_ERR_STS_OVF : RegField := ⟨.PCE_ERR_STS, 1, 1, .w1c, 0⟩
def PCE_ERR_STS_WRITE : RegField := ⟨.PCE_ERR_STS, 2, 1, .ro, 0⟩
def PCE_ERR_STS_BAR : RegField := ⟨.PCE_ERR_STS, 3, 1, .ro, 0⟩
def PCE_ERR_STS_STATUS : RegField := ⟨.PCE_ERR_STS, 8, 8, .ro, 0⟩
def PCE_ERR_ADDR_LO_OFFSET : RegField := ⟨.PCE_ERR_ADDR_LO, 0, 32, .ro, 0⟩
def PCE_ERR_ADDR_HI_OFFSET : RegField := ⟨.PCE_ERR_ADDR_HI, 0, 12, .ro, 0⟩
def PCE_PWDROP_CNT_COUNT : RegField := ⟨.PCE_PWDROP_CNT, 0, 32, .ro, 0⟩
def PCE_MIR_CFG_EN : RegField := ⟨.PCE_MIR_CFG, 0, 1, .rw, 0⟩
def PCE_MIR_CFG_INTERVAL : RegField := ⟨.PCE_MIR_CFG, 16, 16, .rw, 0⟩
def PCE_MIR_ADDR_LO_ADDR : RegField := ⟨.PCE_MIR_ADDR_LO, 6, 26, .rw, 0⟩
def PCE_MIR_ADDR_HI_ADDR : RegField := ⟨.PCE_MIR_ADDR_HI, 0, 32, .rw, 0⟩
def PCE_MIR_SEQ_SEQ : RegField := ⟨.PCE_MIR_SEQ, 0, 32, .ro, 0⟩
def PCE_WIN_LO_EN : RegField := ⟨.PCE_WIN_LO, 0, 1, .rw, 0⟩
def PCE_WIN_LO_BASE_LO : RegField := ⟨.PCE_WIN_LO, 28, 4, .rw, 0⟩
def PCE_WIN_HI_BASE_HI : RegField := ⟨.PCE_WIN_HI, 0, 16, .rw, 0⟩
def TWP_STS_HALF_LINKS : RegField := ⟨.TWP_STS, 0, 5, .ro, 0⟩
def TWP_STS_EXCLUDED : RegField := ⟨.TWP_STS, 5, 1, .ro, 0⟩
def TWP_STS_FEC : RegField := ⟨.TWP_STS, 6, 1, .ro, 1⟩
def TWP_STS_RESULT : RegField := ⟨.TWP_STS, 16, 4, .ro, 0⟩
def TWP_NB_UNIT : RegField := ⟨.TWP_NB, 0, 16, .ro, 65535⟩
def TWP_NB_PORT : RegField := ⟨.TWP_NB, 16, 3, .ro, 0⟩
def TWP_NB_VALID : RegField := ⟨.TWP_NB, 19, 1, .ro, 0⟩
def TWP_NB_FEC_WANT : RegField := ⟨.TWP_NB, 20, 1, .ro, 1⟩
def TWP_DATUM_STATUS : RegField := ⟨.TWP_DATUM, 0, 2, .ro, 0⟩
def TWP_DATUM_MISSES : RegField := ⟨.TWP_DATUM, 8, 8, .ro, 0⟩
def TWP_DATUM_DELAY : RegField := ⟨.TWP_DATUM, 16, 16, .ro, 0⟩
def TWP_REG_RATE : RegField := ⟨.TWP_REG, 0, 16, .rw, 16⟩
def TWP_REG_BURST : RegField := ⟨.TWP_REG, 16, 16, .rw, 16⟩
def TWP_NOROUTE_CNT_COUNT : RegField := ⟨.TWP_NOROUTE_CNT, 0, 32, .ro, 0⟩
def TWP_HOPLIM_CNT_COUNT : RegField := ⟨.TWP_HOPLIM_CNT, 0, 32, .ro, 0⟩
def TWP_NOWIN_CNT_COUNT : RegField := ⟨.TWP_NOWIN_CNT, 0, 32, .ro, 0⟩
def TWP_MALFORMED_CNT_COUNT : RegField := ⟨.TWP_MALFORMED_CNT, 0, 32, .ro, 0⟩
def TWP_LINKLOST_CNT_COUNT : RegField := ⟨.TWP_LINKLOST_CNT, 0, 32, .ro, 0⟩
def TWP_ADM_CFG_EN : RegField := ⟨.TWP_ADM_CFG, 0, 1, .rw, 0⟩
def TWP_ADM_CFG_RD : RegField := ⟨.TWP_ADM_CFG, 1, 1, .rw, 0⟩
def TWP_ADM_CFG_WR : RegField := ⟨.TWP_ADM_CFG, 2, 1, .rw, 0⟩
def TWP_ADM_CFG_AT : RegField := ⟨.TWP_ADM_CFG, 3, 1, .rw, 0⟩
def TWP_ADM_CFG_PART : RegField := ⟨.TWP_ADM_CFG, 4, 4, .rw, 0⟩
def TWP_ADM_CFG_FARE : RegField := ⟨.TWP_ADM_CFG, 8, 8, .rw, 0⟩
def TWP_ADM_BASE_LO_BASE_LO : RegField := ⟨.TWP_ADM_BASE_LO, 12, 20, .rw, 0⟩
def TWP_ADM_BASE_HI_BASE_HI : RegField := ⟨.TWP_ADM_BASE_HI, 0, 16, .rw, 0⟩
def TWP_ADM_LEN_PAGES : RegField := ⟨.TWP_ADM_LEN, 0, 32, .rw, 0⟩
def TWP_GRP_PRIMARY : RegField := ⟨.TWP_GRP, 0, 4, .ro, 15⟩
def TWP_GRP_ALTERNATE : RegField := ⟨.TWP_GRP, 4, 4, .ro, 15⟩
def TWP_GRP_DIST : RegField := ⟨.TWP_GRP, 8, 6, .ro, 63⟩
def TWP_MBR_PRIMARY : RegField := ⟨.TWP_MBR, 0, 4, .ro, 15⟩
def TWP_MBR_ALTERNATE : RegField := ⟨.TWP_MBR, 4, 4, .ro, 15⟩
def TWP_MBR_DIST : RegField := ⟨.TWP_MBR, 8, 6, .ro, 63⟩
def TWL_STS_STATE : RegField := ⟨.TWL_STS, 0, 3, .ro, 1⟩
def TWL_STS_WIDTH : RegField := ⟨.TWL_STS, 3, 2, .ro, 0⟩
def TWL_STS_FEC : RegField := ⟨.TWL_STS, 5, 1, .ro, 1⟩
def TWL_STS_REPLAY_RUN : RegField := ⟨.TWL_STS, 8, 4, .ro, 0⟩
def TWL_CTL_RETRAIN : RegField := ⟨.TWL_CTL, 0, 1, .wo, 0⟩
def TWL_CTL_DISABLE : RegField := ⟨.TWL_CTL, 1, 1, .rw, 0⟩
def TWL_FEC_CORR_COUNT : RegField := ⟨.TWL_FEC_CORR, 0, 32, .ro, 0⟩
def TWL_FEC_FAIL_COUNT : RegField := ⟨.TWL_FEC_FAIL, 0, 32, .ro, 0⟩
def TWL_CRC_ERR_COUNT : RegField := ⟨.TWL_CRC_ERR, 0, 32, .ro, 0⟩
def TWL_REPLAY_CNT_COUNT : RegField := ⟨.TWL_REPLAY_CNT, 0, 32, .ro, 0⟩
def TWL_RETRAIN_CNT_COUNT : RegField := ⟨.TWL_RETRAIN_CNT, 0, 32, .ro, 0⟩
def DAT_NOW_LO_NOW : RegField := ⟨.DAT_NOW_LO, 0, 32, .ro, 0⟩
def DAT_NOW_HI_NOW : RegField := ⟨.DAT_NOW_HI, 0, 32, .ro, 0⟩
def DAT_DSTS_TRACK : RegField := ⟨.DAT_DSTS, 0, 1, .ro, 0⟩
def DAT_STS_STATE : RegField := ⟨.DAT_STS, 0, 3, .ro, 0⟩
def DAT_STS_SRC_PORT : RegField := ⟨.DAT_STS, 4, 3, .ro, 0⟩
def DAT_STS_SRC_VALID : RegField := ⟨.DAT_STS, 7, 1, .ro, 0⟩
def DAT_STS_MHOPS : RegField := ⟨.DAT_STS, 8, 6, .ro, 0⟩
def DAT_STS_MASTER : RegField := ⟨.DAT_STS, 16, 16, .ro, 65535⟩
def DAT_OFFSET_THETA : RegField := ⟨.DAT_OFFSET, 0, 32, .ro, 0⟩
def DAT_STEP_CNT_COUNT : RegField := ⟨.DAT_STEP_CNT, 0, 32, .ro, 0⟩
def DAT_LOST_CNT_COUNT : RegField := ⟨.DAT_LOST_CNT, 0, 32, .ro, 0⟩
def DAT_MM_OTHER : RegField := ⟨.DAT_MM, 0, 16, .ro, 65535⟩
def DAT_MM_SEEN : RegField := ⟨.DAT_MM, 16, 1, .w1c, 0⟩
def DTD_STS_STATE : RegField := ⟨.DTD_STS, 0, 3, .ro, 0⟩
def DTD_STS_HALF : RegField := ⟨.DTD_STS, 3, 1, .ro, 0⟩
def DTD_STS_LINK : RegField := ⟨.DTD_STS, 8, 3, .ro, 0⟩
def DTD_STS_SPARES_USED : RegField := ⟨.DTD_STS, 16, 7, .ro, 0⟩
def DTD_CTL_RETRAIN : RegField := ⟨.DTD_CTL, 0, 1, .wo, 0⟩
def DTD_CTL_DISABLE : RegField := ⟨.DTD_CTL, 1, 1, .rw, 0⟩
def DTD_GRP_G : RegField := ⟨.DTD_GRP, 0, 32, .ro, 0⟩
def DTD_LASTFAIL_GROUP : RegField := ⟨.DTD_LASTFAIL, 0, 7, .ro, 0⟩
def DTD_LASTFAIL_LANE : RegField := ⟨.DTD_LASTFAIL, 8, 4, .ro, 0⟩
def DTD_LASTFAIL_VALID : RegField := ⟨.DTD_LASTFAIL, 16, 1, .ro, 0⟩
def DTD_SWAP_CNT_COUNT : RegField := ⟨.DTD_SWAP_CNT, 0, 32, .ro, 0⟩
def DTD_REPLAY_CNT_COUNT : RegField := ⟨.DTD_REPLAY_CNT, 0, 32, .ro, 0⟩
def DTD_RETRAIN_CNT_COUNT : RegField := ⟨.DTD_RETRAIN_CNT, 0, 32, .ro, 0⟩
def DTD_LEVEL_LEVEL : RegField := ⟨.DTD_LEVEL, 0, 8, .ro, 0⟩
def DTD_LEVEL_VALID : RegField := ⟨.DTD_LEVEL, 8, 1, .ro, 0⟩
def DTD_LEVEL_DIE : RegField := ⟨.DTD_LEVEL, 16, 3, .ro, 0⟩
def DTD_PSTOP_PARTS : RegField := ⟨.DTD_PSTOP, 0, 16, .w1c, 0⟩
def DTD_PSTOP_LINK : RegField := ⟨.DTD_PSTOP, 16, 3, .ro, 0⟩
def UCP_STS_STATE : RegField := ⟨.UCP_STS, 0, 3, .ro, 0⟩
def UCP_STS_IDENT_ERR : RegField := ⟨.UCP_STS, 3, 1, .w1c, 0⟩
def UCP_STS_MODULES : RegField := ⟨.UCP_STS, 4, 2, .ro, 0⟩
def UCP_STS_X8 : RegField := ⟨.UCP_STS, 6, 1, .ro, 0⟩
def UCP_STS_RATE : RegField := ⟨.UCP_STS, 8, 4, .ro, 0⟩
def UCP_CTL_RETRAIN : RegField := ⟨.UCP_CTL, 0, 1, .wo, 0⟩
def UCP_CTL_DISABLE : RegField := ⟨.UCP_CTL, 1, 1, .rw, 0⟩
def UCP_ID_VENDOR : RegField := ⟨.UCP_ID, 0, 16, .ro, 0⟩
def UCP_ID_PRODUCT : RegField := ⟨.UCP_ID, 16, 16, .ro, 0⟩
def UCP_CAP_REVISION : RegField := ⟨.UCP_CAP, 0, 8, .ro, 0⟩
def UCP_CAP_WINDOW_LOG2 : RegField := ⟨.UCP_CAP, 8, 6, .ro, 0⟩
def UCP_CAP_ATOMICS : RegField := ⟨.UCP_CAP, 14, 1, .ro, 0⟩
def UCP_CAP_REQUESTS : RegField := ⟨.UCP_CAP, 15, 1, .ro, 0⟩
def UCP_CAP_ADMIT : RegField := ⟨.UCP_CAP, 16, 16, .ro, 0⟩
def UCP_ADM_CFG_EN : RegField := ⟨.UCP_ADM_CFG, 0, 1, .rw, 0⟩
def UCP_ADM_CFG_RD : RegField := ⟨.UCP_ADM_CFG, 1, 1, .rw, 0⟩
def UCP_ADM_CFG_WR : RegField := ⟨.UCP_ADM_CFG, 2, 1, .rw, 0⟩
def UCP_ADM_CFG_AT : RegField := ⟨.UCP_ADM_CFG, 3, 1, .rw, 0⟩
def UCP_ADM_CFG_PART : RegField := ⟨.UCP_ADM_CFG, 4, 4, .rw, 0⟩
def UCP_ADM_BASE_LO_BASE_LO : RegField := ⟨.UCP_ADM_BASE_LO, 12, 20, .rw, 0⟩
def UCP_ADM_BASE_HI_BASE_HI : RegField := ⟨.UCP_ADM_BASE_HI, 0, 16, .rw, 0⟩
def UCP_ADM_LEN_PAGES : RegField := ⟨.UCP_ADM_LEN, 0, 32, .rw, 0⟩
def UCP_CRC_ERR_COUNT : RegField := ⟨.UCP_CRC_ERR, 0, 32, .ro, 0⟩
def UCP_REPLAY_CNT_COUNT : RegField := ⟨.UCP_REPLAY_CNT, 0, 32, .ro, 0⟩
def UCP_MALFORMED_CNT_COUNT : RegField := ⟨.UCP_MALFORMED_CNT, 0, 32, .ro, 0⟩
def UCP_NOWIN_CNT_COUNT : RegField := ⟨.UCP_NOWIN_CNT, 0, 32, .ro, 0⟩
def UCP_LOST_CNT_COUNT : RegField := ⟨.UCP_LOST_CNT, 0, 32, .ro, 0⟩
def RST_CMD_OP : RegField := ⟨.RST_CMD, 0, 3, .wo, 0⟩
def RST_CMD_T_CORE : RegField := ⟨.RST_CMD, 3, 1, .wo, 0⟩
def RST_CMD_T_SLICE : RegField := ⟨.RST_CMD, 4, 1, .wo, 0⟩
def RST_CMD_LEND : RegField := ⟨.RST_CMD, 5, 1, .wo, 0⟩
def RST_STS_BUSY : RegField := ⟨.RST_STS, 0, 1, .ro, 0⟩
def RST_STS_DONE : RegField := ⟨.RST_STS, 1, 1, .w1c, 0⟩
def RST_STS_CMD_LOST : RegField := ⟨.RST_STS, 2, 1, .w1c, 0⟩
def RST_STS_PENDING : RegField := ⟨.RST_STS, 3, 1, .ro, 0⟩
def RST_STS_RESULT : RegField := ⟨.RST_STS, 8, 8, .ro, 0⟩
def RST_STS_TEST : RegField := ⟨.RST_STS, 16, 3, .ro, 0⟩
def RST_STS_CODE : RegField := ⟨.RST_STS, 20, 4, .ro, 0⟩
def RST_CL_CMD_OP : RegField := ⟨.RST_CL_CMD, 0, 3, .wo, 0⟩
def RST_CL_CMD_T_CORE : RegField := ⟨.RST_CL_CMD, 3, 1, .wo, 0⟩
def RST_CL_CMD_T_SLICE : RegField := ⟨.RST_CL_CMD, 4, 1, .wo, 0⟩
def RST_CL_CMD_CLUSTER : RegField := ⟨.RST_CL_CMD, 8, 6, .wo, 0⟩
def RST_CL_STS_BUSY : RegField := ⟨.RST_CL_STS, 0, 1, .ro, 0⟩
def RST_CL_STS_DONE : RegField := ⟨.RST_CL_STS, 1, 1, .w1c, 0⟩
def RST_CL_STS_CMD_LOST : RegField := ⟨.RST_CL_STS, 2, 1, .w1c, 0⟩
def RST_CL_STS_PENDING : RegField := ⟨.RST_CL_STS, 3, 1, .ro, 0⟩
def RST_CL_STS_RESULT : RegField := ⟨.RST_CL_STS, 8, 8, .ro, 0⟩
def RST_CL_STS_CLUSTER : RegField := ⟨.RST_CL_STS, 16, 6, .ro, 0⟩
def RST_PDIE_STS_DRAINING : RegField := ⟨.RST_PDIE_STS, 0, 16, .ro, 0⟩
def RST_MOD_CMD_RESET : RegField := ⟨.RST_MOD_CMD, 0, 1, .wo, 0⟩
def RST_MOD_CMD_COLD : RegField := ⟨.RST_MOD_CMD, 1, 1, .wo, 0⟩
def RST_MOD_CMD_KEY : RegField := ⟨.RST_MOD_CMD, 16, 16, .wo, 0⟩
def RST_PART_CMD_OP : RegField := ⟨.RST_PART_CMD, 0, 2, .wo, 0⟩
def RST_PART_CMD_PART : RegField := ⟨.RST_PART_CMD, 8, 4, .wo, 0⟩
def RST_PART_STS_BUSY : RegField := ⟨.RST_PART_STS, 0, 1, .ro, 0⟩
def RST_PART_STS_DONE : RegField := ⟨.RST_PART_STS, 1, 1, .w1c, 0⟩
def RST_PART_STS_CMD_LOST : RegField := ⟨.RST_PART_STS, 2, 1, .w1c, 0⟩
def RST_PART_STS_PENDING : RegField := ⟨.RST_PART_STS, 3, 1, .ro, 0⟩
def RST_PART_STS_RESULT : RegField := ⟨.RST_PART_STS, 8, 8, .ro, 0⟩
def RST_PART_STS_PART : RegField := ⟨.RST_PART_STS, 16, 4, .ro, 0⟩
def RST_PFAULT_A_CORE : RegField := ⟨.RST_PFAULT_A, 0, 10, .ro, 0⟩
def RST_PFAULT_A_CODE : RegField := ⟨.RST_PFAULT_A, 16, 8, .ro, 0⟩
def RST_PFAULT_A_VALID : RegField := ⟨.RST_PFAULT_A, 31, 1, .w1c, 0⟩
def RST_PFAULT_B_PC : RegField := ⟨.RST_PFAULT_B, 0, 18, .ro, 0⟩
def RST_PFAULT_B_COUNT : RegField := ⟨.RST_PFAULT_B, 18, 14, .ro, 0⟩
def FLP_MOD_STS_GOOD : RegField := ⟨.FLP_MOD_STS, 0, 16, .ro, 0⟩
def FLP_MOD_STS_SHORT : RegField := ⟨.FLP_MOD_STS, 16, 1, .ro, 0⟩
def FLP_MOD_STS_VALID : RegField := ⟨.FLP_MOD_STS, 17, 1, .ro, 0⟩
def FLP_RECORD_VALUE : RegField := ⟨.FLP_RECORD, 0, 32, .ro, 0⟩
def FLP_DIE_STS_GOOD : RegField := ⟨.FLP_DIE_STS, 0, 8, .ro, 0⟩
def FLP_DIE_STS_LODGERS : RegField := ⟨.FLP_DIE_STS, 8, 8, .ro, 0⟩
def FLP_DIE_STS_DEAD : RegField := ⟨.FLP_DIE_STS, 16, 8, .ro, 0⟩
def FLP_DIE_STS_SHORT : RegField := ⟨.FLP_DIE_STS, 24, 1, .ro, 0⟩
def HSK_STS_BROKEN : RegField := ⟨.HSK_STS, 0, 7, .ro, 0⟩
def HSK_STS_DISAGREE : RegField := ⟨.HSK_STS, 8, 7, .ro, 0⟩
def HSK_ROUND_ROUND : RegField := ⟨.HSK_ROUND, 0, 32, .ro, 0⟩
def HSK_CLKLOSS_DOM_A : RegField := ⟨.HSK_CLKLOSS, 0, 4, .w1c, 0⟩
def HSK_CLKLOSS_DOM_N : RegField := ⟨.HSK_CLKLOSS, 4, 5, .w1c, 0⟩
def HSK_CLKLOSS_DOM_M : RegField := ⟨.HSK_CLKLOSS, 9, 4, .w1c, 0⟩
def HSK_CLKLOSS_DOM_P : RegField := ⟨.HSK_CLKLOSS, 13, 1, .w1c, 0⟩
def HSK_CLKLOSS_DOM_U : RegField := ⟨.HSK_CLKLOSS, 14, 1, .w1c, 0⟩
def HSK_CLKLOSS_DOM_D : RegField := ⟨.HSK_CLKLOSS, 15, 1, .w1c, 0⟩
def HSK_CLKLOSS_DOM_L : RegField := ⟨.HSK_CLKLOSS, 16, 8, .w1c, 0⟩
def HSK_CLKLOSS_DOM_K : RegField := ⟨.HSK_CLKLOSS, 24, 6, .w1c, 0⟩
def HSK_CLKLOSS_F_DOM_F : RegField := ⟨.HSK_CLKLOSS_F, 0, 20, .w1c, 0⟩
def HSK_PIN_P_AVG : RegField := ⟨.HSK_PIN, 0, 16, .ro, 0⟩
def HSK_PIN_P_LIM : RegField := ⟨.HSK_PIN, 16, 16, .ro, 0⟩
def HSK_CH_VALUE : RegField := ⟨.HSK_CH, 0, 16, .ro, 0⟩
def HSK_CH_KIND : RegField := ⟨.HSK_CH, 16, 4, .ro, 0⟩
def HSK_CH_BROKEN : RegField := ⟨.HSK_CH, 20, 2, .ro, 0⟩
def HSK_CH_DISAGREE : RegField := ⟨.HSK_CH, 22, 1, .ro, 0⟩
def HSK_CH_ROUND : RegField := ⟨.HSK_CH, 24, 8, .ro, 0⟩
def THM_SPOT_TEMP : RegField := ⟨.THM_SPOT, 0, 16, .ro, 0⟩
def THM_SPOT_LEVEL : RegField := ⟨.THM_SPOT, 16, 4, .ro, 0⟩
def THM_SPOT_REFRESH : RegField := ⟨.THM_SPOT, 20, 2, .ro, 0⟩
def THM_SPOT_HELD : RegField := ⟨.THM_SPOT, 22, 1, .ro, 0⟩
def THM_SPOT_DUTY : RegField := ⟨.THM_SPOT, 23, 5, .ro, 0⟩
def THM_LAYER_TEMP : RegField := ⟨.THM_LAYER, 0, 16, .ro, 0⟩
def THM_LAYER_LEVEL : RegField := ⟨.THM_LAYER, 16, 4, .ro, 0⟩
def THM_LAYER_REFRESH : RegField := ⟨.THM_LAYER, 20, 2, .ro, 0⟩
def THM_LAYER_HELD : RegField := ⟨.THM_LAYER, 22, 1, .ro, 0⟩
def THM_LAYER_DUTY : RegField := ⟨.THM_LAYER, 23, 5, .ro, 0⟩
def THM_FAR_TEMP : RegField := ⟨.THM_FAR, 0, 16, .ro, 0⟩
def THM_FAR_LEVEL : RegField := ⟨.THM_FAR, 16, 4, .ro, 0⟩
def THM_FAR_REFRESH : RegField := ⟨.THM_FAR, 20, 2, .ro, 0⟩
def THM_FAR_HELD : RegField := ⟨.THM_FAR, 22, 1, .ro, 0⟩
def THM_FAR_DUTY : RegField := ⟨.THM_FAR, 23, 5, .ro, 0⟩
def THM_THR_CNT_COUNT : RegField := ⟨.THM_THR_CNT, 0, 32, .ro, 0⟩
def THM_STS_ROR_ALARM : RegField := ⟨.THM_STS, 0, 1, .w1c, 0⟩
def THM_STS_FLOW_ALARM : RegField := ⟨.THM_STS, 1, 1, .ro, 0⟩
def THM_STS_RISE_HOLD : RegField := ⟨.THM_STS, 2, 1, .ro, 0⟩
def THM_STS_INLET_RANGE : RegField := ⟨.THM_STS, 3, 1, .ro, 0⟩
def THM_STS_G : RegField := ⟨.THM_STS, 4, 4, .ro, 0⟩
def THM_STS_POWER_UNHELD : RegField := ⟨.THM_STS, 8, 1, .ro, 0⟩
def THM_STS_HALF_LIMIT : RegField := ⟨.THM_STS, 9, 1, .ro, 0⟩
def THM_ROR_A_RATE : RegField := ⟨.THM_ROR, 0, 8, .rw, 15⟩
def THM_ROR_A_WIN : RegField := ⟨.THM_ROR, 8, 6, .rw, 24⟩
def THM_ROR_T_RATE : RegField := ⟨.THM_ROR, 16, 8, .rw, 50⟩
def THM_ROR_T_WIN : RegField := ⟨.THM_ROR, 24, 6, .rw, 4⟩
def THM_FLOW_CFG_NOMINAL : RegField := ⟨.THM_FLOW_CFG, 0, 16, .rw, 300⟩
def THM_FLOW_CFG_RISE_MAX : RegField := ⟨.THM_FLOW_CFG, 16, 8, .rw, 12⟩
def THM_FLOW_CFG_CV : RegField := ⟨.THM_FLOW_CFG, 24, 8, .rw, 40⟩
def THM_FLOW_ESTIMATE : RegField := ⟨.THM_FLOW, 0, 16, .ro, 65535⟩
def THM_FLOW_RISE : RegField := ⟨.THM_FLOW, 16, 16, .ro, 0⟩
def THM_HEARTH_FLOOR : RegField := ⟨.THM_HEARTH, 0, 7, .rw, 40⟩
def THM_EXCURSIONS_COUNT : RegField := ⟨.THM_EXCURSIONS, 0, 32, .ro, 0⟩
def THM_COMP_CRIT_CRIT : RegField := ⟨.THM_COMP_CRIT, 0, 8, .rw, 105⟩
def THM_LAST_ROR_DIE : RegField := ⟨.THM_LAST_ROR, 0, 3, .ro, 0⟩
def THM_LAST_ROR_CLASS : RegField := ⟨.THM_LAST_ROR, 3, 3, .ro, 0⟩
def THM_LAST_ROR_CHANNEL : RegField := ⟨.THM_LAST_ROR, 8, 7, .ro, 0⟩
def THM_LAST_ROR_ROUND : RegField := ⟨.THM_LAST_ROR, 16, 16, .ro, 0⟩
def CTR_N_LO_VALUE : RegField := ⟨.CTR_N_LO, 0, 32, .ro, 0⟩
def CTR_N_HI_VALUE : RegField := ⟨.CTR_N_HI, 0, 32, .ro, 0⟩
def CTR_FRZ_CMD_OP : RegField := ⟨.CTR_FRZ_CMD, 0, 3, .wo, 0⟩
def CTR_FRZ_STS_FROZEN : RegField := ⟨.CTR_FRZ_STS, 0, 1, .ro, 0⟩
def CTR_FRZ_STS_SOURCE : RegField := ⟨.CTR_FRZ_STS, 1, 2, .ro, 0⟩
def CTR_FRZ_STS_ARMED : RegField := ⟨.CTR_FRZ_STS, 3, 1, .ro, 0⟩
def CTR_FRZ_STS_BAD_OP : RegField := ⟨.CTR_FRZ_STS, 4, 1, .w1c, 0⟩
def CTR_FRZ_DATUM_LO_VALUE : RegField := ⟨.CTR_FRZ_DATUM_LO, 0, 32, .ro, 0⟩
def CTR_FRZ_DATUM_HI_VALUE : RegField := ⟨.CTR_FRZ_DATUM_HI, 0, 32, .ro, 0⟩
def CTR_FRZ_AT_LO_VALUE : RegField := ⟨.CTR_FRZ_AT_LO, 0, 32, .rw, 0⟩
def CTR_FRZ_AT_HI_VALUE : RegField := ⟨.CTR_FRZ_AT_HI, 0, 32, .rw, 0⟩
def CTR_SMP_STS_ON : RegField := ⟨.CTR_SMP_STS, 0, 1, .ro, 0⟩
def CTR_SMP_STS_TALLY_FULL : RegField := ⟨.CTR_SMP_STS, 1, 1, .ro, 0⟩
def CTR_SMP_STS_WFAULT : RegField := ⟨.CTR_SMP_STS, 2, 1, .w1c, 0⟩
def CTR_SMP_SEQ_COUNT : RegField := ⟨.CTR_SMP_SEQ, 0, 32, .ro, 0⟩
def CTR_SMP_SKIP_COUNT : RegField := ⟨.CTR_SMP_SKIP, 0, 32, .ro, 0⟩
def CTR_DIE_STS_FROZEN : RegField := ⟨.CTR_DIE_STS, 0, 1, .ro, 0⟩
def FBK_STS_MODE : RegField := ⟨.FBK_STS, 0, 2, .ro, 0⟩
def FBK_STS_TRIGGERED : RegField := ⟨.FBK_STS, 2, 1, .ro, 0⟩
def FBK_STS_STOPPED : RegField := ⟨.FBK_STS, 3, 1, .ro, 0⟩
def FBK_STS_WRAPPED : RegField := ⟨.FBK_STS, 4, 1, .ro, 0⟩
def FBK_WRPTR_VALUE : RegField := ⟨.FBK_WRPTR, 0, 20, .ro, 0⟩
def FBK_POSTPTR_VALUE : RegField := ⟨.FBK_POSTPTR, 0, 20, .ro, 0⟩
def FBK_LOST_VALUE : RegField := ⟨.FBK_LOST, 0, 20, .ro, 0⟩
def FBK_FILTER_TYPES : RegField := ⟨.FBK_FILTER, 2, 15, .rw, 32767⟩
def FBK_TRIG_CFG_TYPE : RegField := ⟨.FBK_TRIG_CFG, 0, 8, .rw, 0⟩
def FBK_TRIG_CFG_EN : RegField := ⟨.FBK_TRIG_CFG, 8, 1, .rw, 0⟩
def FBK_TRIG_CFG_FREEZE : RegField := ⟨.FBK_TRIG_CFG, 9, 1, .rw, 0⟩
def FBK_TRIG_CFG_SRC_EN : RegField := ⟨.FBK_TRIG_CFG, 10, 1, .rw, 0⟩
def FBK_TRIG_CFG_SOURCE : RegField := ⟨.FBK_TRIG_CFG, 16, 16, .rw, 0⟩
def FBK_TRIG_MASK_VALUE : RegField := ⟨.FBK_TRIG_MASK, 0, 32, .rw, 0⟩
def FBK_TRIG_VAL_VALUE : RegField := ⟨.FBK_TRIG_VAL, 0, 32, .rw, 0⟩
def FBK_TRIG_DATUM_LO_VALUE : RegField := ⟨.FBK_TRIG_DATUM_LO, 0, 32, .ro, 0⟩
def FBK_TRIG_DATUM_HI_VALUE : RegField := ⟨.FBK_TRIG_DATUM_HI, 0, 32, .ro, 0⟩
def FBK_CMD_OP : RegField := ⟨.FBK_CMD, 0, 3, .wo, 0⟩
def FBK_CMD_STORE : RegField := ⟨.FBK_CMD, 3, 3, .wo, 0⟩
def FBK_CMD_STS_BUSY : RegField := ⟨.FBK_CMD_STS, 0, 1, .ro, 0⟩
def FBK_CMD_STS_DONE : RegField := ⟨.FBK_CMD_STS, 1, 1, .w1c, 0⟩
def FBK_CMD_STS_CMD_LOST : RegField := ⟨.FBK_CMD_STS, 2, 1, .w1c, 0⟩
def FBK_CMD_STS_RESULT : RegField := ⟨.FBK_CMD_STS, 8, 8, .ro, 0⟩
def FBK_AT_LO_VALUE : RegField := ⟨.FBK_AT_LO, 0, 32, .rw, 0⟩
def FBK_AT_HI_VALUE : RegField := ⟨.FBK_AT_HI, 0, 32, .rw, 0⟩
def FBK_MARK_VALUE : RegField := ⟨.FBK_MARK, 0, 32, .wo, 0⟩
def FBK_DUMP_FIRST_VALUE : RegField := ⟨.FBK_DUMP_FIRST, 0, 32, .rw, 0⟩
def FBK_DUMP_COUNT_VALUE : RegField := ⟨.FBK_DUMP_COUNT, 0, 32, .rw, 0⟩
def FBK_DUMP_DST_LO_VALUE : RegField := ⟨.FBK_DUMP_DST_LO, 6, 26, .rw, 0⟩
def FBK_DUMP_DST_HI_VALUE : RegField := ⟨.FBK_DUMP_DST_HI, 0, 16, .rw, 0⟩
def SVC_STS_DYN_ADDR : RegField := ⟨.SVC_STS, 0, 7, .ro, 0⟩
def SVC_STS_INTERLOCK_OPEN : RegField := ⟨.SVC_STS, 8, 1, .ro, 0⟩
def SVC_STS_HOLDUP_LOW : RegField := ⟨.SVC_STS, 9, 1, .ro, 0⟩
def SVC_STS_TRIPPED : RegField := ⟨.SVC_STS, 10, 1, .ro, 0⟩
def SVC_STS_RECOVERY : RegField := ⟨.SVC_STS, 11, 1, .ro, 0⟩
def SVC_STS_LAST_CMD : RegField := ⟨.SVC_STS, 16, 8, .ro, 0⟩
def SVC_STS_LAST_STATUS : RegField := ⟨.SVC_STS, 24, 8, .ro, 0⟩
def FWU_STS_SLOT : RegField := ⟨.FWU_STS, 0, 3, .ro, 0⟩
def FWU_STS_SEC_FLOOR : RegField := ⟨.FWU_STS, 4, 7, .ro, 0⟩
def FWU_STS_SEC_ACTIVE : RegField := ⟨.FWU_STS, 12, 7, .ro, 0⟩
def FWU_STS_LAST_OUTCOME : RegField := ⟨.FWU_STS, 24, 8, .ro, 0⟩
def FWU_VER_ACT_VERSION : RegField := ⟨.FWU_VER_ACT, 0, 32, .ro, 0⟩
def FWU_VER_STG_VERSION : RegField := ⟨.FWU_VER_STG, 0, 32, .ro, 0⟩
def FWU_OWNER_LOCK : RegField := ⟨.FWU_OWNER, 0, 1, .rw, 0⟩
def FWU_OWNER_PENDING : RegField := ⟨.FWU_OWNER, 1, 1, .ro, 0⟩
def LDG_STS_BANK : RegField := ⟨.LDG_STS, 0, 1, .ro, 0⟩
def LDG_STS_COMPACTING : RegField := ⟨.LDG_STS, 1, 1, .ro, 0⟩
def LDG_STS_FAULT : RegField := ⟨.LDG_STS, 2, 1, .w1c, 0⟩
def LDG_STS_FREE_KIB : RegField := ⟨.LDG_STS, 16, 16, .ro, 0⟩
def ATT_CMD_GO : RegField := ⟨.ATT_CMD, 0, 1, .wo, 0⟩
def ATT_STS_BUSY : RegField := ⟨.ATT_STS, 0, 1, .ro, 0⟩
def ATT_STS_DONE : RegField := ⟨.ATT_STS, 1, 1, .w1c, 0⟩
def ATT_STS_CMD_LOST : RegField := ⟨.ATT_STS, 2, 1, .w1c, 0⟩
def ATT_STS_RESULT : RegField := ⟨.ATT_STS, 8, 8, .ro, 0⟩
def ATT_DST_LO_ADDR : RegField := ⟨.ATT_DST_LO, 6, 26, .rw, 0⟩
def ATT_DST_HI_ADDR : RegField := ⟨.ATT_DST_HI, 0, 16, .rw, 0⟩
end F

/-- The fields of each register, in ascending bit order. -/
def Reg.fields : Reg → List RegField
  | .BRG_DIEID => [F.BRG_DIEID_DIE_NUM, F.BRG_DIEID_HUB, F.BRG_DIEID_REVISION, F.BRG_DIEID_VARIANT, F.BRG_DIEID_COMP_FITTED]
  | .BRG_REVCAP => [F.BRG_REVCAP_MAX_LEVEL]
  | .BRG_RAERR_STS => [F.BRG_RAERR_STS_ERR, F.BRG_RAERR_STS_OVF, F.BRG_RAERR_STS_KIND, F.BRG_RAERR_STS_WRITE, F.BRG_RAERR_STS_REQUESTER]
  | .BRG_RAERR_ADDR_LO => [F.BRG_RAERR_ADDR_LO_ADDR_LO]
  | .BRG_RAERR_ADDR_HI => [F.BRG_RAERR_ADDR_HI_ADDR_HI]
  | .BRG_RAERR_CNT => [F.BRG_RAERR_CNT_COUNT]
  | .BRG_LOCAL_STS => [F.BRG_LOCAL_STS_MACHINES]
  | .BRG_MOD_STS => [F.BRG_MOD_STS_STAGE, F.BRG_MOD_STS_READY, F.BRG_MOD_STS_WARM, F.BRG_MOD_STS_FALLBACK, F.BRG_MOD_STS_REASON]
  | .BRG_MOD_TIME => [F.BRG_MOD_TIME_MS]
  | .PLT_SRC_LO => [F.PLT_SRC_LO_ADDR_LO]
  | .PLT_SRC_HI => [F.PLT_SRC_HI_ADDR_HI]
  | .PLT_SRC_LEN => [F.PLT_SRC_LEN_LEN]
  | .PLT_CMD => [F.PLT_CMD_OP, F.PLT_CMD_PART]
  | .PLT_STS => [F.PLT_STS_BUSY, F.PLT_STS_DONE, F.PLT_STS_CMD_LOST, F.PLT_STS_RESULT, F.PLT_STS_STEP]
  | .PLT_DETAIL => [F.PLT_DETAIL_VALUE]
  | .PLT_DETAIL2 => [F.PLT_DETAIL2_VALUE]
  | .PLT_ID_LO => [F.PLT_ID_LO_ID]
  | .PLT_ID_HI => [F.PLT_ID_HI_ID]
  | .PLT_PART_STS => [F.PLT_PART_STS_STATE, F.PLT_PART_STS_KIND, F.PLT_PART_STS_FUNCTION, F.PLT_PART_STS_LAST_RESULT]
  | .PLT_DIE_STS => [F.PLT_DIE_STS_WRITING, F.PLT_DIE_STS_FAULT, F.PLT_DIE_STS_PARTS]
  | .SEQ_STS => [F.SEQ_STS_STATE, F.SEQ_STS_ISSUE_STALL, F.SEQ_STS_MXQ, F.SEQ_STS_VXQ, F.SEQ_STS_DMQ, F.SEQ_STS_BKQ]
  | .SEQ_PC => [F.SEQ_PC_PC]
  | .SEQ_FAULT => [F.SEQ_FAULT_CODE, F.SEQ_FAULT_ENGINE, F.SEQ_FAULT_ENGINE_STS]
  | .SEQ_CFG => [F.SEQ_CFG_CFG]
  | .SEQ_FARE => [F.SEQ_FARE_FARE]
  | .SEQ_SCR_CE => [F.SEQ_SCR_CE_COUNT]
  | .SEQ_SCR_UE => [F.SEQ_SCR_UE_COUNT]
  | .SEQ_EVC => [F.SEQ_EVC_COUNT]
  | .MXA_STS => [F.MXA_STS_BUSY, F.MXA_STS_TILE_VALID, F.MXA_STS_TILE_FMT, F.MXA_STS_LAST_ERR, F.MXA_STS_STALL_TILE, F.MXA_STS_STALL_RING]
  | .MXA_FLAGS => [F.MXA_FLAGS_INVALID, F.MXA_FLAGS_OVERFLOW, F.MXA_FLAGS_UNDERFLOW, F.MXA_FLAGS_INEXACT, F.MXA_FLAGS_SATURATION]
  | .MXA_POISON_CNT => [F.MXA_POISON_CNT_COUNT]
  | .MXA_CVT => [F.MXA_CVT_CVT]
  | .VEC_STS => [F.VEC_STS_BUSY, F.VEC_STS_RING_WAIT, F.VEC_STS_CVT_WAIT, F.VEC_STS_LAST_ERR]
  | .VEC_FLAGS => [F.VEC_FLAGS_INVALID, F.VEC_FLAGS_OVERFLOW, F.VEC_FLAGS_UNDERFLOW, F.VEC_FLAGS_INEXACT, F.VEC_FLAGS_SATURATION]
  | .VEC_POISON_CNT => [F.VEC_POISON_CNT_COUNT]
  | .VEC_CVT => [F.VEC_CVT_CVT]
  | .VEC_SDST => [F.VEC_SDST_SDST]
  | .VEC_TFSUM => [F.VEC_TFSUM_INVALID, F.VEC_TFSUM_OVERFLOW, F.VEC_TFSUM_UNDERFLOW, F.VEC_TFSUM_INEXACT, F.VEC_TFSUM_SATURATION]
  | .VEC_RWCNT => [F.VEC_RWCNT_COUNT]
  | .VEC_RRCNT => [F.VEC_RRCNT_COUNT]
  | .VEC_MASK_LO => [F.VEC_MASK_LO_LANES]
  | .VEC_MASK_HI => [F.VEC_MASK_HI_LANES]
  | .VEC_MON_CLR => [F.VEC_MON_CLR_SLOTS]
  | .VEC_MON => [F.VEC_MON_VALUE]
  | .VEC_LFLAG_LO => [F.VEC_LFLAG_LO_LANES]
  | .VEC_LFLAG_HI => [F.VEC_LFLAG_HI_LANES]
  | .ATN_STS => [F.ATN_STS_BUSY, F.ATN_STS_RELAY_ACTIVE, F.ATN_STS_RELAY_ERR, F.ATN_STS_LAST_ERR]
  | .ATN_RELAY_CFG => [F.ATN_RELAY_CFG_EN, F.ATN_RELAY_CFG_SLOT_LINES]
  | .ATN_RELAY_LAND_LO => [F.ATN_RELAY_LAND_LO_ADDR_LO]
  | .ATN_RELAY_LAND_HI => [F.ATN_RELAY_LAND_HI_ADDR_HI]
  | .ATN_RELAY_NEXT_LO => [F.ATN_RELAY_NEXT_LO_ADDR_LO]
  | .ATN_RELAY_NEXT_HI => [F.ATN_RELAY_NEXT_HI_ADDR_HI]
  | .ATN_RELAY_CNT => [F.ATN_RELAY_CNT_COUNT]
  | .KVD_STS => [F.KVD_STS_BUSY, F.KVD_STS_TABLE_WAIT, F.KVD_STS_RING_WAIT, F.KVD_STS_LAST_STS, F.KVD_STS_LAST_OP]
  | .KVD_DETAIL => [F.KVD_DETAIL_DETAIL]
  | .KVD_POISON_CNT => [F.KVD_POISON_CNT_COUNT]
  | .SLC_STS => [F.SLC_STS_CLEANING, F.SLC_STS_LODGER, F.SLC_STS_LIVE, F.SLC_STS_REFRESH]
  | .SLC_PENDING => [F.SLC_PENDING_PAGES]
  | .SLC_CE => [F.SLC_CE_COUNT]
  | .SLC_SLOWFIX => [F.SLC_SLOWFIX_COUNT]
  | .SLC_POISON => [F.SLC_POISON_COUNT]
  | .SLC_PEND_POISON => [F.SLC_PEND_POISON_COUNT]
  | .SLC_BUSY_CNT => [F.SLC_BUSY_CNT_COUNT]
  | .SLC_BUSY_CAP => [F.SLC_BUSY_CAP_VALID, F.SLC_BUSY_CAP_OVF, F.SLC_BUSY_CAP_REQUESTER]
  | .SLC_BUSY_ADDR => [F.SLC_BUSY_ADDR_OFFSET]
  | .BNK_STS => [F.BNK_STS_BUSY, F.BNK_STS_PROTECT, F.BNK_STS_LAST_ERR, F.BNK_STS_ISSUER, F.BNK_STS_TSLOT_VALID]
  | .BNK_FLAGS => [F.BNK_FLAGS_INVALID, F.BNK_FLAGS_OVERFLOW, F.BNK_FLAGS_UNDERFLOW, F.BNK_FLAGS_INEXACT, F.BNK_FLAGS_SATURATION]
  | .BNK_POISON_CNT => [F.BNK_POISON_CNT_COUNT]
  | .BNK_PROGRESS => [F.BNK_PROGRESS_PAGES]
  | .FMC_STS => [F.FMC_STS_UP, F.FMC_STS_ISOLATED, F.FMC_STS_RETRAINING, F.FMC_STS_LOST, F.FMC_STS_REFRESH, F.FMC_STS_SLOW_Q]
  | .FMC_CTL => [F.FMC_CTL_ISOLATE]
  | .FMC_CE => [F.FMC_CE_COUNT]
  | .FMC_SLOWFIX => [F.FMC_SLOWFIX_COUNT]
  | .FMC_POISON => [F.FMC_POISON_COUNT]
  | .FMC_RETRAIN => [F.FMC_RETRAIN_COUNT]
  | .ECC_STS => [F.ECC_STS_QUEUE, F.ECC_STS_ACTIVE]
  | .ECC_PENDING => [F.ECC_PENDING_PAGES]
  | .ECC_RECOMP => [F.ECC_RECOMP_COUNT]
  | .ECC_SLOW => [F.ECC_SLOW_COUNT]
  | .SCB_CMD => [F.SCB_CMD_OP, F.SCB_CMD_KIND, F.SCB_CMD_UNIT, F.SCB_CMD_FARE]
  | .SCB_START_LO => [F.SCB_START_LO_VALUE_LO]
  | .SCB_START_HI => [F.SCB_START_HI_VALUE_HI]
  | .SCB_LEN_LO => [F.SCB_LEN_LO_VALUE_LO]
  | .SCB_LEN_HI => [F.SCB_LEN_HI_VALUE_HI]
  | .SCB_SUM_LO => [F.SCB_SUM_LO_ADDR_LO]
  | .SCB_SUM_HI => [F.SCB_SUM_HI_ADDR_HI]
  | .SCB_STS => [F.SCB_STS_BUSY, F.SCB_STS_DONE, F.SCB_STS_CMD_LOST, F.SCB_STS_RESULT]
  | .SCB_PROGRESS => [F.SCB_PROGRESS_PAGES]
  | .SCB_RPR_CMD => [F.SCB_RPR_CMD_GO, F.SCB_RPR_CMD_KIND, F.SCB_RPR_CMD_UNIT]
  | .SCB_RPR_PAGE => [F.SCB_RPR_PAGE_PAGE]
  | .SCB_RPR_STS => [F.SCB_RPR_STS_BUSY, F.SCB_RPR_STS_DONE, F.SCB_RPR_STS_RESULT, F.SCB_RPR_STS_SPARES_LEFT]
  | .NOC_STS => [F.NOC_STS_ENDPOINT_STATE, F.NOC_STS_LODGER, F.NOC_STS_DRAINING]
  | .NOC_ABSORB_CNT => [F.NOC_ABSORB_CNT_COUNT]
  | .NOC_DRAIN_POISON_CNT => [F.NOC_DRAIN_POISON_CNT_COUNT]
  | .NOC_TIMEOUT_CNT => [F.NOC_TIMEOUT_CNT_COUNT]
  | .NOC_LATE_CNT => [F.NOC_LATE_CNT_COUNT]
  | .NOC_LINKDOWN_CNT => [F.NOC_LINKDOWN_CNT_COUNT]
  | .NOC_RET_STS => [F.NOC_RET_STS_FLITS, F.NOC_RET_STS_HIGH]
  | .NOC_RET_STALL_CNT => [F.NOC_RET_STALL_CNT_COUNT]
  | .NOC_FLIT_CNT => [F.NOC_FLIT_CNT_COUNT]
  | .CTL_STS => [F.CTL_STS_RXQ0, F.CTL_STS_RXQ1, F.CTL_STS_TXQ]
  | .CTL_SENT_CNT => [F.CTL_SENT_CNT_COUNT]
  | .CTL_RCVD_CNT => [F.CTL_RCVD_CNT_COUNT]
  | .CTL_DROP_CNT => [F.CTL_DROP_CNT_COUNT]
  | .CTL_UNDELIV_CNT => [F.CTL_UNDELIV_CNT_COUNT]
  | .QOS_HUBSRC_CFG => [F.QOS_HUBSRC_CFG_FARE, F.QOS_HUBSRC_CFG_VC, F.QOS_HUBSRC_CFG_DL, F.QOS_HUBSRC_CFG_DLOFF]
  | .QOS_HUBSRC_REG => [F.QOS_HUBSRC_REG_RATE, F.QOS_HUBSRC_REG_BURST]
  | .QOS_MOD_WEIGHT => [F.QOS_MOD_WEIGHT_WEIGHT]
  | .QOS_VC_BSUM => [F.QOS_VC_BSUM_BSUM, F.QOS_VC_BSUM_NONE]
  | .QOS_VC_RSUM => [F.QOS_VC_RSUM_RSUM]
  | .QOS_PUB_STS => [F.QOS_PUB_STS_STALE, F.QOS_PUB_STS_CFANIN_MAX]
  | .QOS_COMP_LOAD => [F.QOS_COMP_LOAD_VALUE]
  | .QOS_COMP_DLMISS => [F.QOS_COMP_DLMISS_VALUE]
  | .QOS_TGT_LOAD => [F.QOS_TGT_LOAD_LOAD]
  | .QOS_TGT_DLMISS => [F.QOS_TGT_DLMISS_COUNT]
  | .QOS_SRC_REG => [F.QOS_SRC_REG_RATE, F.QOS_SRC_REG_BURST]
  | .QOS_SRC_HOLD_CNT => [F.QOS_SRC_HOLD_CNT_COUNT]
  | .ARQ_COUNT => [F.ARQ_COUNT_FREE, F.ARQ_COUNT_PACKETS, F.ARQ_COUNT_STAGED, F.ARQ_COUNT_MODE, F.ARQ_COUNT_OWNED]
  | .ARQ_ERR => [F.ARQ_ERR_PARITY, F.ARQ_ERR_HOLE, F.ARQ_ERR_OVERRUN, F.ARQ_ERR_SIZE, F.ARQ_ERR_HEADER, F.ARQ_ERR_OVERFLOW, F.ARQ_ERR_LONG]
  | .ARQ_REWIND_CNT => [F.ARQ_REWIND_CNT_COUNT]
  | .ARQ_DISCARD_CNT => [F.ARQ_DISCARD_CNT_COUNT]
  | .ARQ_POISON_CNT => [F.ARQ_POISON_CNT_COUNT]
  | .ARQ_ABORT => [F.ARQ_ABORT_ABORT]
  | .ARQ_DEFFARE => [F.ARQ_DEFFARE_FARE]
  | .DPQ_COUNT => [F.DPQ_COUNT_PACKETS, F.DPQ_COUNT_WORDS, F.DPQ_COUNT_MODE, F.DPQ_COUNT_OWNED]
  | .DPQ_HEAD => [F.DPQ_HEAD_WORDS_M1, F.DPQ_HEAD_VALID]
  | .DPQ_POP => [F.DPQ_POP_POP]
  | .DPQ_REWIND_CNT => [F.DPQ_REWIND_CNT_COUNT]
  | .DPQ_POISON_CNT => [F.DPQ_POISON_CNT_COUNT]
  | .DPQ_DISCARD_CNT => [F.DPQ_DISCARD_CNT_COUNT]
  | .PCE_FN_STS => [F.PCE_FN_STS_PART, F.PCE_FN_STS_BOUND, F.PCE_FN_STS_BAR2_SIZE]
  | .PCE_RWIN => [F.PCE_RWIN_INDEX]
  | .PCE_EVSTS => [F.PCE_EVSTS_EVENTS]
  | .PCE_ERR_STS => [F.PCE_ERR_STS_VALID, F.PCE_ERR_STS_OVF, F.PCE_ERR_STS_WRITE, F.PCE_ERR_STS_BAR, F.PCE_ERR_STS_STATUS]
  | .PCE_ERR_ADDR_LO => [F.PCE_ERR_ADDR_LO_OFFSET]
  | .PCE_ERR_ADDR_HI => [F.PCE_ERR_ADDR_HI_OFFSET]
  | .PCE_PWDROP_CNT => [F.PCE_PWDROP_CNT_COUNT]
  | .PCE_MIR_CFG => [F.PCE_MIR_CFG_EN, F.PCE_MIR_CFG_INTERVAL]
  | .PCE_MIR_ADDR_LO => [F.PCE_MIR_ADDR_LO_ADDR]
  | .PCE_MIR_ADDR_HI => [F.PCE_MIR_ADDR_HI_ADDR]
  | .PCE_MIR_SEQ => [F.PCE_MIR_SEQ_SEQ]
  | .PCE_WIN_LO => [F.PCE_WIN_LO_EN, F.PCE_WIN_LO_BASE_LO]
  | .PCE_WIN_HI => [F.PCE_WIN_HI_BASE_HI]
  | .TWP_STS => [F.TWP_STS_HALF_LINKS, F.TWP_STS_EXCLUDED, F.TWP_STS_FEC, F.TWP_STS_RESULT]
  | .TWP_NB => [F.TWP_NB_UNIT, F.TWP_NB_PORT, F.TWP_NB_VALID, F.TWP_NB_FEC_WANT]
  | .TWP_DATUM => [F.TWP_DATUM_STATUS, F.TWP_DATUM_MISSES, F.TWP_DATUM_DELAY]
  | .TWP_REG => [F.TWP_REG_RATE, F.TWP_REG_BURST]
  | .TWP_NOROUTE_CNT => [F.TWP_NOROUTE_CNT_COUNT]
  | .TWP_HOPLIM_CNT => [F.TWP_HOPLIM_CNT_COUNT]
  | .TWP_NOWIN_CNT => [F.TWP_NOWIN_CNT_COUNT]
  | .TWP_MALFORMED_CNT => [F.TWP_MALFORMED_CNT_COUNT]
  | .TWP_LINKLOST_CNT => [F.TWP_LINKLOST_CNT_COUNT]
  | .TWP_ADM_CFG => [F.TWP_ADM_CFG_EN, F.TWP_ADM_CFG_RD, F.TWP_ADM_CFG_WR, F.TWP_ADM_CFG_AT, F.TWP_ADM_CFG_PART, F.TWP_ADM_CFG_FARE]
  | .TWP_ADM_BASE_LO => [F.TWP_ADM_BASE_LO_BASE_LO]
  | .TWP_ADM_BASE_HI => [F.TWP_ADM_BASE_HI_BASE_HI]
  | .TWP_ADM_LEN => [F.TWP_ADM_LEN_PAGES]
  | .TWP_GRP => [F.TWP_GRP_PRIMARY, F.TWP_GRP_ALTERNATE, F.TWP_GRP_DIST]
  | .TWP_MBR => [F.TWP_MBR_PRIMARY, F.TWP_MBR_ALTERNATE, F.TWP_MBR_DIST]
  | .TWL_STS => [F.TWL_STS_STATE, F.TWL_STS_WIDTH, F.TWL_STS_FEC, F.TWL_STS_REPLAY_RUN]
  | .TWL_CTL => [F.TWL_CTL_RETRAIN, F.TWL_CTL_DISABLE]
  | .TWL_FEC_CORR => [F.TWL_FEC_CORR_COUNT]
  | .TWL_FEC_FAIL => [F.TWL_FEC_FAIL_COUNT]
  | .TWL_CRC_ERR => [F.TWL_CRC_ERR_COUNT]
  | .TWL_REPLAY_CNT => [F.TWL_REPLAY_CNT_COUNT]
  | .TWL_RETRAIN_CNT => [F.TWL_RETRAIN_CNT_COUNT]
  | .DAT_NOW_LO => [F.DAT_NOW_LO_NOW]
  | .DAT_NOW_HI => [F.DAT_NOW_HI_NOW]
  | .DAT_DSTS => [F.DAT_DSTS_TRACK]
  | .DAT_STS => [F.DAT_STS_STATE, F.DAT_STS_SRC_PORT, F.DAT_STS_SRC_VALID, F.DAT_STS_MHOPS, F.DAT_STS_MASTER]
  | .DAT_OFFSET => [F.DAT_OFFSET_THETA]
  | .DAT_STEP_CNT => [F.DAT_STEP_CNT_COUNT]
  | .DAT_LOST_CNT => [F.DAT_LOST_CNT_COUNT]
  | .DAT_MM => [F.DAT_MM_OTHER, F.DAT_MM_SEEN]
  | .DTD_STS => [F.DTD_STS_STATE, F.DTD_STS_HALF, F.DTD_STS_LINK, F.DTD_STS_SPARES_USED]
  | .DTD_CTL => [F.DTD_CTL_RETRAIN, F.DTD_CTL_DISABLE]
  | .DTD_GRP => [F.DTD_GRP_G]
  | .DTD_LASTFAIL => [F.DTD_LASTFAIL_GROUP, F.DTD_LASTFAIL_LANE, F.DTD_LASTFAIL_VALID]
  | .DTD_SWAP_CNT => [F.DTD_SWAP_CNT_COUNT]
  | .DTD_REPLAY_CNT => [F.DTD_REPLAY_CNT_COUNT]
  | .DTD_RETRAIN_CNT => [F.DTD_RETRAIN_CNT_COUNT]
  | .DTD_LEVEL => [F.DTD_LEVEL_LEVEL, F.DTD_LEVEL_VALID, F.DTD_LEVEL_DIE]
  | .DTD_PSTOP => [F.DTD_PSTOP_PARTS, F.DTD_PSTOP_LINK]
  | .UCP_STS => [F.UCP_STS_STATE, F.UCP_STS_IDENT_ERR, F.UCP_STS_MODULES, F.UCP_STS_X8, F.UCP_STS_RATE]
  | .UCP_CTL => [F.UCP_CTL_RETRAIN, F.UCP_CTL_DISABLE]
  | .UCP_ID => [F.UCP_ID_VENDOR, F.UCP_ID_PRODUCT]
  | .UCP_CAP => [F.UCP_CAP_REVISION, F.UCP_CAP_WINDOW_LOG2, F.UCP_CAP_ATOMICS, F.UCP_CAP_REQUESTS, F.UCP_CAP_ADMIT]
  | .UCP_ADM_CFG => [F.UCP_ADM_CFG_EN, F.UCP_ADM_CFG_RD, F.UCP_ADM_CFG_WR, F.UCP_ADM_CFG_AT, F.UCP_ADM_CFG_PART]
  | .UCP_ADM_BASE_LO => [F.UCP_ADM_BASE_LO_BASE_LO]
  | .UCP_ADM_BASE_HI => [F.UCP_ADM_BASE_HI_BASE_HI]
  | .UCP_ADM_LEN => [F.UCP_ADM_LEN_PAGES]
  | .UCP_CRC_ERR => [F.UCP_CRC_ERR_COUNT]
  | .UCP_REPLAY_CNT => [F.UCP_REPLAY_CNT_COUNT]
  | .UCP_MALFORMED_CNT => [F.UCP_MALFORMED_CNT_COUNT]
  | .UCP_NOWIN_CNT => [F.UCP_NOWIN_CNT_COUNT]
  | .UCP_LOST_CNT => [F.UCP_LOST_CNT_COUNT]
  | .RST_CMD => [F.RST_CMD_OP, F.RST_CMD_T_CORE, F.RST_CMD_T_SLICE, F.RST_CMD_LEND]
  | .RST_STS => [F.RST_STS_BUSY, F.RST_STS_DONE, F.RST_STS_CMD_LOST, F.RST_STS_PENDING, F.RST_STS_RESULT, F.RST_STS_TEST, F.RST_STS_CODE]
  | .RST_CL_CMD => [F.RST_CL_CMD_OP, F.RST_CL_CMD_T_CORE, F.RST_CL_CMD_T_SLICE, F.RST_CL_CMD_CLUSTER]
  | .RST_CL_STS => [F.RST_CL_STS_BUSY, F.RST_CL_STS_DONE, F.RST_CL_STS_CMD_LOST, F.RST_CL_STS_PENDING, F.RST_CL_STS_RESULT, F.RST_CL_STS_CLUSTER]
  | .RST_PDIE_STS => [F.RST_PDIE_STS_DRAINING]
  | .RST_MOD_CMD => [F.RST_MOD_CMD_RESET, F.RST_MOD_CMD_COLD, F.RST_MOD_CMD_KEY]
  | .RST_PART_CMD => [F.RST_PART_CMD_OP, F.RST_PART_CMD_PART]
  | .RST_PART_STS => [F.RST_PART_STS_BUSY, F.RST_PART_STS_DONE, F.RST_PART_STS_CMD_LOST, F.RST_PART_STS_PENDING, F.RST_PART_STS_RESULT, F.RST_PART_STS_PART]
  | .RST_PFAULT_A => [F.RST_PFAULT_A_CORE, F.RST_PFAULT_A_CODE, F.RST_PFAULT_A_VALID]
  | .RST_PFAULT_B => [F.RST_PFAULT_B_PC, F.RST_PFAULT_B_COUNT]
  | .FLP_MOD_STS => [F.FLP_MOD_STS_GOOD, F.FLP_MOD_STS_SHORT, F.FLP_MOD_STS_VALID]
  | .FLP_RECORD => [F.FLP_RECORD_VALUE]
  | .FLP_DIE_STS => [F.FLP_DIE_STS_GOOD, F.FLP_DIE_STS_LODGERS, F.FLP_DIE_STS_DEAD, F.FLP_DIE_STS_SHORT]
  | .HSK_STS => [F.HSK_STS_BROKEN, F.HSK_STS_DISAGREE]
  | .HSK_ROUND => [F.HSK_ROUND_ROUND]
  | .HSK_CLKLOSS => [F.HSK_CLKLOSS_DOM_A, F.HSK_CLKLOSS_DOM_N, F.HSK_CLKLOSS_DOM_M, F.HSK_CLKLOSS_DOM_P, F.HSK_CLKLOSS_DOM_U, F.HSK_CLKLOSS_DOM_D, F.HSK_CLKLOSS_DOM_L, F.HSK_CLKLOSS_DOM_K]
  | .HSK_CLKLOSS_F => [F.HSK_CLKLOSS_F_DOM_F]
  | .HSK_PIN => [F.HSK_PIN_P_AVG, F.HSK_PIN_P_LIM]
  | .HSK_CH => [F.HSK_CH_VALUE, F.HSK_CH_KIND, F.HSK_CH_BROKEN, F.HSK_CH_DISAGREE, F.HSK_CH_ROUND]
  | .THM_SPOT => [F.THM_SPOT_TEMP, F.THM_SPOT_LEVEL, F.THM_SPOT_REFRESH, F.THM_SPOT_HELD, F.THM_SPOT_DUTY]
  | .THM_LAYER => [F.THM_LAYER_TEMP, F.THM_LAYER_LEVEL, F.THM_LAYER_REFRESH, F.THM_LAYER_HELD, F.THM_LAYER_DUTY]
  | .THM_FAR => [F.THM_FAR_TEMP, F.THM_FAR_LEVEL, F.THM_FAR_REFRESH, F.THM_FAR_HELD, F.THM_FAR_DUTY]
  | .THM_THR_CNT => [F.THM_THR_CNT_COUNT]
  | .THM_STS => [F.THM_STS_ROR_ALARM, F.THM_STS_FLOW_ALARM, F.THM_STS_RISE_HOLD, F.THM_STS_INLET_RANGE, F.THM_STS_G, F.THM_STS_POWER_UNHELD, F.THM_STS_HALF_LIMIT]
  | .THM_ROR => [F.THM_ROR_A_RATE, F.THM_ROR_A_WIN, F.THM_ROR_T_RATE, F.THM_ROR_T_WIN]
  | .THM_FLOW_CFG => [F.THM_FLOW_CFG_NOMINAL, F.THM_FLOW_CFG_RISE_MAX, F.THM_FLOW_CFG_CV]
  | .THM_FLOW => [F.THM_FLOW_ESTIMATE, F.THM_FLOW_RISE]
  | .THM_HEARTH => [F.THM_HEARTH_FLOOR]
  | .THM_EXCURSIONS => [F.THM_EXCURSIONS_COUNT]
  | .THM_COMP_CRIT => [F.THM_COMP_CRIT_CRIT]
  | .THM_LAST_ROR => [F.THM_LAST_ROR_DIE, F.THM_LAST_ROR_CLASS, F.THM_LAST_ROR_CHANNEL, F.THM_LAST_ROR_ROUND]
  | .CTR_N_LO => [F.CTR_N_LO_VALUE]
  | .CTR_N_HI => [F.CTR_N_HI_VALUE]
  | .CTR_FRZ_CMD => [F.CTR_FRZ_CMD_OP]
  | .CTR_FRZ_STS => [F.CTR_FRZ_STS_FROZEN, F.CTR_FRZ_STS_SOURCE, F.CTR_FRZ_STS_ARMED, F.CTR_FRZ_STS_BAD_OP]
  | .CTR_FRZ_DATUM_LO => [F.CTR_FRZ_DATUM_LO_VALUE]
  | .CTR_FRZ_DATUM_HI => [F.CTR_FRZ_DATUM_HI_VALUE]
  | .CTR_FRZ_AT_LO => [F.CTR_FRZ_AT_LO_VALUE]
  | .CTR_FRZ_AT_HI => [F.CTR_FRZ_AT_HI_VALUE]
  | .CTR_SMP_STS => [F.CTR_SMP_STS_ON, F.CTR_SMP_STS_TALLY_FULL, F.CTR_SMP_STS_WFAULT]
  | .CTR_SMP_SEQ => [F.CTR_SMP_SEQ_COUNT]
  | .CTR_SMP_SKIP => [F.CTR_SMP_SKIP_COUNT]
  | .CTR_DIE_STS => [F.CTR_DIE_STS_FROZEN]
  | .FBK_STS => [F.FBK_STS_MODE, F.FBK_STS_TRIGGERED, F.FBK_STS_STOPPED, F.FBK_STS_WRAPPED]
  | .FBK_WRPTR => [F.FBK_WRPTR_VALUE]
  | .FBK_POSTPTR => [F.FBK_POSTPTR_VALUE]
  | .FBK_LOST => [F.FBK_LOST_VALUE]
  | .FBK_FILTER => [F.FBK_FILTER_TYPES]
  | .FBK_TRIG_CFG => [F.FBK_TRIG_CFG_TYPE, F.FBK_TRIG_CFG_EN, F.FBK_TRIG_CFG_FREEZE, F.FBK_TRIG_CFG_SRC_EN, F.FBK_TRIG_CFG_SOURCE]
  | .FBK_TRIG_MASK => [F.FBK_TRIG_MASK_VALUE]
  | .FBK_TRIG_VAL => [F.FBK_TRIG_VAL_VALUE]
  | .FBK_TRIG_DATUM_LO => [F.FBK_TRIG_DATUM_LO_VALUE]
  | .FBK_TRIG_DATUM_HI => [F.FBK_TRIG_DATUM_HI_VALUE]
  | .FBK_CMD => [F.FBK_CMD_OP, F.FBK_CMD_STORE]
  | .FBK_CMD_STS => [F.FBK_CMD_STS_BUSY, F.FBK_CMD_STS_DONE, F.FBK_CMD_STS_CMD_LOST, F.FBK_CMD_STS_RESULT]
  | .FBK_AT_LO => [F.FBK_AT_LO_VALUE]
  | .FBK_AT_HI => [F.FBK_AT_HI_VALUE]
  | .FBK_MARK => [F.FBK_MARK_VALUE]
  | .FBK_DUMP_FIRST => [F.FBK_DUMP_FIRST_VALUE]
  | .FBK_DUMP_COUNT => [F.FBK_DUMP_COUNT_VALUE]
  | .FBK_DUMP_DST_LO => [F.FBK_DUMP_DST_LO_VALUE]
  | .FBK_DUMP_DST_HI => [F.FBK_DUMP_DST_HI_VALUE]
  | .SVC_STS => [F.SVC_STS_DYN_ADDR, F.SVC_STS_INTERLOCK_OPEN, F.SVC_STS_HOLDUP_LOW, F.SVC_STS_TRIPPED, F.SVC_STS_RECOVERY, F.SVC_STS_LAST_CMD, F.SVC_STS_LAST_STATUS]
  | .FWU_STS => [F.FWU_STS_SLOT, F.FWU_STS_SEC_FLOOR, F.FWU_STS_SEC_ACTIVE, F.FWU_STS_LAST_OUTCOME]
  | .FWU_VER_ACT => [F.FWU_VER_ACT_VERSION]
  | .FWU_VER_STG => [F.FWU_VER_STG_VERSION]
  | .FWU_OWNER => [F.FWU_OWNER_LOCK, F.FWU_OWNER_PENDING]
  | .LDG_STS => [F.LDG_STS_BANK, F.LDG_STS_COMPACTING, F.LDG_STS_FAULT, F.LDG_STS_FREE_KIB]
  | .ATT_CMD => [F.ATT_CMD_GO]
  | .ATT_STS => [F.ATT_STS_BUSY, F.ATT_STS_DONE, F.ATT_STS_CMD_LOST, F.ATT_STS_RESULT]
  | .ATT_DST_LO => [F.ATT_DST_LO_ADDR]
  | .ATT_DST_HI => [F.ATT_DST_HI_ADDR]

/-- Which dies of a die-level block hold a register: every die, a logic die, or the hub. -/
inductive Where where
  | all | logic | hub
  deriving DecidableEq, Repr

/-- Where a register lies: its block, which dies hold it, its offset, and its stride and count where it repeats. -/
structure RegPlace where
  block : Block
  dies : Where
  off : Nat
  stride : Nat
  count : Nat
  deriving DecidableEq, Repr

/-- The offset tables of the chapters. -/
def Reg.place : Reg → RegPlace
  | .BRG_DIEID => ⟨.BRG, .all, 0x0, 4, 1⟩
  | .BRG_REVCAP => ⟨.BRG, .all, 0x4, 4, 1⟩
  | .BRG_RAERR_STS => ⟨.BRG, .all, 0x40, 4, 1⟩
  | .BRG_RAERR_ADDR_LO => ⟨.BRG, .all, 0x44, 4, 1⟩
  | .BRG_RAERR_ADDR_HI => ⟨.BRG, .all, 0x48, 4, 1⟩
  | .BRG_RAERR_CNT => ⟨.BRG, .all, 0x4c, 4, 1⟩
  | .BRG_LOCAL_STS => ⟨.BRG, .logic, 0x100, 4, 1⟩
  | .BRG_MOD_STS => ⟨.BRG, .hub, 0x100, 4, 1⟩
  | .BRG_MOD_TIME => ⟨.BRG, .hub, 0x104, 4, 1⟩
  | .PLT_SRC_LO => ⟨.PLT, .hub, 0x0, 4, 1⟩
  | .PLT_SRC_HI => ⟨.PLT, .hub, 0x4, 4, 1⟩
  | .PLT_SRC_LEN => ⟨.PLT, .hub, 0x8, 4, 1⟩
  | .PLT_CMD => ⟨.PLT, .hub, 0xc, 4, 1⟩
  | .PLT_STS => ⟨.PLT, .hub, 0x10, 4, 1⟩
  | .PLT_DETAIL => ⟨.PLT, .hub, 0x14, 4, 1⟩
  | .PLT_DETAIL2 => ⟨.PLT, .hub, 0x18, 4, 1⟩
  | .PLT_ID_LO => ⟨.PLT, .hub, 0x20, 4, 1⟩
  | .PLT_ID_HI => ⟨.PLT, .hub, 0x24, 4, 1⟩
  | .PLT_PART_STS => ⟨.PLT, .hub, 0x40, 4, 16⟩
  | .PLT_DIE_STS => ⟨.PLT, .logic, 0x0, 4, 1⟩
  | .SEQ_STS => ⟨.SEQ, .all, 0x0, 4, 1⟩
  | .SEQ_PC => ⟨.SEQ, .all, 0x4, 4, 1⟩
  | .SEQ_FAULT => ⟨.SEQ, .all, 0x8, 4, 1⟩
  | .SEQ_CFG => ⟨.SEQ, .all, 0xc, 4, 1⟩
  | .SEQ_FARE => ⟨.SEQ, .all, 0x10, 4, 1⟩
  | .SEQ_SCR_CE => ⟨.SEQ, .all, 0x14, 4, 1⟩
  | .SEQ_SCR_UE => ⟨.SEQ, .all, 0x18, 4, 1⟩
  | .SEQ_EVC => ⟨.SEQ, .all, 0x40, 4, 16⟩
  | .MXA_STS => ⟨.MXA, .all, 0x0, 4, 1⟩
  | .MXA_FLAGS => ⟨.MXA, .all, 0x4, 4, 1⟩
  | .MXA_POISON_CNT => ⟨.MXA, .all, 0x8, 4, 1⟩
  | .MXA_CVT => ⟨.MXA, .all, 0x14, 4, 3⟩
  | .VEC_STS => ⟨.VEC, .all, 0x0, 4, 1⟩
  | .VEC_FLAGS => ⟨.VEC, .all, 0x4, 4, 1⟩
  | .VEC_POISON_CNT => ⟨.VEC, .all, 0x8, 4, 1⟩
  | .VEC_CVT => ⟨.VEC, .all, 0x14, 4, 3⟩
  | .VEC_SDST => ⟨.VEC, .all, 0x24, 4, 3⟩
  | .VEC_TFSUM => ⟨.VEC, .all, 0x40, 4, 6⟩
  | .VEC_RWCNT => ⟨.VEC, .all, 0x60, 4, 6⟩
  | .VEC_RRCNT => ⟨.VEC, .all, 0x80, 4, 6⟩
  | .VEC_MASK_LO => ⟨.VEC, .all, 0xa0, 8, 8⟩
  | .VEC_MASK_HI => ⟨.VEC, .all, 0xa4, 8, 8⟩
  | .VEC_MON_CLR => ⟨.VEC, .all, 0xe0, 4, 1⟩
  | .VEC_MON => ⟨.VEC, .all, 0x100, 4, 64⟩
  | .VEC_LFLAG_LO => ⟨.VEC, .all, 0x200, 8, 48⟩
  | .VEC_LFLAG_HI => ⟨.VEC, .all, 0x204, 8, 48⟩
  | .ATN_STS => ⟨.ATN, .all, 0x0, 4, 1⟩
  | .ATN_RELAY_CFG => ⟨.ATN, .all, 0x4, 4, 1⟩
  | .ATN_RELAY_LAND_LO => ⟨.ATN, .all, 0x8, 4, 1⟩
  | .ATN_RELAY_LAND_HI => ⟨.ATN, .all, 0xc, 4, 1⟩
  | .ATN_RELAY_NEXT_LO => ⟨.ATN, .all, 0x10, 4, 1⟩
  | .ATN_RELAY_NEXT_HI => ⟨.ATN, .all, 0x14, 4, 1⟩
  | .ATN_RELAY_CNT => ⟨.ATN, .all, 0x18, 4, 1⟩
  | .KVD_STS => ⟨.KVD, .all, 0x0, 4, 1⟩
  | .KVD_DETAIL => ⟨.KVD, .all, 0x4, 4, 1⟩
  | .KVD_POISON_CNT => ⟨.KVD, .all, 0x8, 4, 1⟩
  | .SLC_STS => ⟨.SLC, .all, 0x0, 4, 1⟩
  | .SLC_PENDING => ⟨.SLC, .all, 0x4, 4, 1⟩
  | .SLC_CE => ⟨.SLC, .all, 0x8, 4, 1⟩
  | .SLC_SLOWFIX => ⟨.SLC, .all, 0xc, 4, 1⟩
  | .SLC_POISON => ⟨.SLC, .all, 0x10, 4, 1⟩
  | .SLC_PEND_POISON => ⟨.SLC, .all, 0x14, 4, 1⟩
  | .SLC_BUSY_CNT => ⟨.SLC, .all, 0x18, 4, 1⟩
  | .SLC_BUSY_CAP => ⟨.SLC, .all, 0x1c, 4, 1⟩
  | .SLC_BUSY_ADDR => ⟨.SLC, .all, 0x20, 4, 1⟩
  | .BNK_STS => ⟨.BNK, .all, 0x0, 4, 1⟩
  | .BNK_FLAGS => ⟨.BNK, .all, 0x4, 4, 1⟩
  | .BNK_POISON_CNT => ⟨.BNK, .all, 0x8, 4, 1⟩
  | .BNK_PROGRESS => ⟨.BNK, .all, 0xc, 4, 1⟩
  | .FMC_STS => ⟨.FMC, .all, 0x0, 4, 1⟩
  | .FMC_CTL => ⟨.FMC, .all, 0x4, 4, 1⟩
  | .FMC_CE => ⟨.FMC, .all, 0x8, 4, 1⟩
  | .FMC_SLOWFIX => ⟨.FMC, .all, 0xc, 4, 1⟩
  | .FMC_POISON => ⟨.FMC, .all, 0x10, 4, 1⟩
  | .FMC_RETRAIN => ⟨.FMC, .all, 0x14, 4, 1⟩
  | .ECC_STS => ⟨.ECC, .logic, 0x0, 4, 1⟩
  | .ECC_PENDING => ⟨.ECC, .logic, 0x4, 4, 1⟩
  | .ECC_RECOMP => ⟨.ECC, .logic, 0x8, 4, 1⟩
  | .ECC_SLOW => ⟨.ECC, .logic, 0xc, 4, 1⟩
  | .SCB_CMD => ⟨.SCB, .logic, 0x0, 4, 1⟩
  | .SCB_START_LO => ⟨.SCB, .logic, 0x4, 4, 1⟩
  | .SCB_START_HI => ⟨.SCB, .logic, 0x8, 4, 1⟩
  | .SCB_LEN_LO => ⟨.SCB, .logic, 0xc, 4, 1⟩
  | .SCB_LEN_HI => ⟨.SCB, .logic, 0x10, 4, 1⟩
  | .SCB_SUM_LO => ⟨.SCB, .logic, 0x14, 4, 1⟩
  | .SCB_SUM_HI => ⟨.SCB, .logic, 0x18, 4, 1⟩
  | .SCB_STS => ⟨.SCB, .logic, 0x1c, 4, 1⟩
  | .SCB_PROGRESS => ⟨.SCB, .logic, 0x20, 4, 1⟩
  | .SCB_RPR_CMD => ⟨.SCB, .logic, 0x30, 4, 1⟩
  | .SCB_RPR_PAGE => ⟨.SCB, .logic, 0x34, 4, 1⟩
  | .SCB_RPR_STS => ⟨.SCB, .logic, 0x38, 4, 1⟩
  | .NOC_STS => ⟨.NOC, .all, 0x0, 4, 1⟩
  | .NOC_ABSORB_CNT => ⟨.NOC, .all, 0x4, 4, 1⟩
  | .NOC_DRAIN_POISON_CNT => ⟨.NOC, .all, 0x8, 4, 1⟩
  | .NOC_TIMEOUT_CNT => ⟨.NOC, .all, 0xc, 4, 1⟩
  | .NOC_LATE_CNT => ⟨.NOC, .all, 0x10, 4, 1⟩
  | .NOC_LINKDOWN_CNT => ⟨.NOC, .all, 0x14, 4, 1⟩
  | .NOC_RET_STS => ⟨.NOC, .all, 0x18, 4, 1⟩
  | .NOC_RET_STALL_CNT => ⟨.NOC, .all, 0x1c, 4, 1⟩
  | .NOC_FLIT_CNT => ⟨.NOC, .all, 0x20, 4, 4⟩
  | .CTL_STS => ⟨.CTL, .all, 0x0, 4, 1⟩
  | .CTL_SENT_CNT => ⟨.CTL, .all, 0x4, 4, 1⟩
  | .CTL_RCVD_CNT => ⟨.CTL, .all, 0x8, 4, 1⟩
  | .CTL_DROP_CNT => ⟨.CTL, .all, 0xc, 4, 1⟩
  | .CTL_UNDELIV_CNT => ⟨.CTL, .all, 0x10, 4, 1⟩
  | .QOS_HUBSRC_CFG => ⟨.QOS, .hub, 0x0, 16, 11⟩
  | .QOS_HUBSRC_REG => ⟨.QOS, .hub, 0x4, 16, 11⟩
  | .QOS_MOD_WEIGHT => ⟨.QOS, .hub, 0xb0, 4, 1⟩
  | .QOS_VC_BSUM => ⟨.QOS, .hub, 0x100, 8, 4⟩
  | .QOS_VC_RSUM => ⟨.QOS, .hub, 0x104, 8, 4⟩
  | .QOS_PUB_STS => ⟨.QOS, .hub, 0x120, 4, 1⟩
  | .QOS_COMP_LOAD => ⟨.QOS, .hub, 0x130, 4, 1⟩
  | .QOS_COMP_DLMISS => ⟨.QOS, .hub, 0x134, 4, 1⟩
  | .QOS_TGT_LOAD => ⟨.QOS, .logic, 0x0, 8, 149⟩
  | .QOS_TGT_DLMISS => ⟨.QOS, .logic, 0x4, 8, 149⟩
  | .QOS_SRC_REG => ⟨.QOSC, .all, 0x0, 4, 4⟩
  | .QOS_SRC_HOLD_CNT => ⟨.QOSC, .all, 0x10, 4, 1⟩
  | .ARQ_COUNT => ⟨.ARQ, .all, 0x0, 4, 1⟩
  | .ARQ_ERR => ⟨.ARQ, .all, 0x4, 4, 1⟩
  | .ARQ_REWIND_CNT => ⟨.ARQ, .all, 0x8, 4, 1⟩
  | .ARQ_DISCARD_CNT => ⟨.ARQ, .all, 0xc, 4, 1⟩
  | .ARQ_POISON_CNT => ⟨.ARQ, .all, 0x10, 4, 1⟩
  | .ARQ_ABORT => ⟨.ARQ, .all, 0x14, 4, 1⟩
  | .ARQ_DEFFARE => ⟨.ARQ, .all, 0x18, 4, 1⟩
  | .DPQ_COUNT => ⟨.DPQ, .all, 0x0, 4, 1⟩
  | .DPQ_HEAD => ⟨.DPQ, .all, 0x4, 4, 1⟩
  | .DPQ_POP => ⟨.DPQ, .all, 0x8, 4, 1⟩
  | .DPQ_REWIND_CNT => ⟨.DPQ, .all, 0xc, 4, 1⟩
  | .DPQ_POISON_CNT => ⟨.DPQ, .all, 0x10, 4, 1⟩
  | .DPQ_DISCARD_CNT => ⟨.DPQ, .all, 0x14, 4, 1⟩
  | .PCE_FN_STS => ⟨.PCE, .all, 0x0, 4, 1⟩
  | .PCE_RWIN => ⟨.PCE, .all, 0x4, 4, 1⟩
  | .PCE_EVSTS => ⟨.PCE, .all, 0x8, 4, 1⟩
  | .PCE_ERR_STS => ⟨.PCE, .all, 0xc, 4, 1⟩
  | .PCE_ERR_ADDR_LO => ⟨.PCE, .all, 0x10, 4, 1⟩
  | .PCE_ERR_ADDR_HI => ⟨.PCE, .all, 0x14, 4, 1⟩
  | .PCE_PWDROP_CNT => ⟨.PCE, .all, 0x18, 4, 1⟩
  | .PCE_MIR_CFG => ⟨.PCE, .all, 0x20, 4, 1⟩
  | .PCE_MIR_ADDR_LO => ⟨.PCE, .all, 0x24, 4, 1⟩
  | .PCE_MIR_ADDR_HI => ⟨.PCE, .all, 0x28, 4, 1⟩
  | .PCE_MIR_SEQ => ⟨.PCE, .all, 0x2c, 4, 1⟩
  | .PCE_WIN_LO => ⟨.PCE, .all, 0x100, 8, 64⟩
  | .PCE_WIN_HI => ⟨.PCE, .all, 0x104, 8, 64⟩
  | .TWP_STS => ⟨.TWP, .all, 0x0, 4, 1⟩
  | .TWP_NB => ⟨.TWP, .all, 0x4, 4, 1⟩
  | .TWP_DATUM => ⟨.TWP, .all, 0x8, 4, 1⟩
  | .TWP_REG => ⟨.TWP, .all, 0x10, 4, 4⟩
  | .TWP_NOROUTE_CNT => ⟨.TWP, .all, 0x20, 4, 1⟩
  | .TWP_HOPLIM_CNT => ⟨.TWP, .all, 0x24, 4, 1⟩
  | .TWP_NOWIN_CNT => ⟨.TWP, .all, 0x28, 4, 1⟩
  | .TWP_MALFORMED_CNT => ⟨.TWP, .all, 0x2c, 4, 1⟩
  | .TWP_LINKLOST_CNT => ⟨.TWP, .all, 0x30, 4, 1⟩
  | .TWP_ADM_CFG => ⟨.TWP, .all, 0x100, 16, 16⟩
  | .TWP_ADM_BASE_LO => ⟨.TWP, .all, 0x104, 16, 16⟩
  | .TWP_ADM_BASE_HI => ⟨.TWP, .all, 0x108, 16, 16⟩
  | .TWP_ADM_LEN => ⟨.TWP, .all, 0x10c, 16, 16⟩
  | .TWP_GRP => ⟨.TWP, .all, 0x400, 4, 256⟩
  | .TWP_MBR => ⟨.TWP, .all, 0x800, 4, 256⟩
  | .TWL_STS => ⟨.TWL, .all, 0x0, 4, 1⟩
  | .TWL_CTL => ⟨.TWL, .all, 0x4, 4, 1⟩
  | .TWL_FEC_CORR => ⟨.TWL, .all, 0x8, 4, 1⟩
  | .TWL_FEC_FAIL => ⟨.TWL, .all, 0xc, 4, 1⟩
  | .TWL_CRC_ERR => ⟨.TWL, .all, 0x10, 4, 1⟩
  | .TWL_REPLAY_CNT => ⟨.TWL, .all, 0x14, 4, 1⟩
  | .TWL_RETRAIN_CNT => ⟨.TWL, .all, 0x18, 4, 1⟩
  | .DAT_NOW_LO => ⟨.DAT, .all, 0x0, 4, 1⟩
  | .DAT_NOW_HI => ⟨.DAT, .all, 0x4, 4, 1⟩
  | .DAT_DSTS => ⟨.DAT, .logic, 0x8, 4, 1⟩
  | .DAT_STS => ⟨.DAT, .hub, 0x8, 4, 1⟩
  | .DAT_OFFSET => ⟨.DAT, .hub, 0xc, 4, 1⟩
  | .DAT_STEP_CNT => ⟨.DAT, .hub, 0x10, 4, 1⟩
  | .DAT_LOST_CNT => ⟨.DAT, .hub, 0x14, 4, 1⟩
  | .DAT_MM => ⟨.DAT, .hub, 0x18, 4, 1⟩
  | .DTD_STS => ⟨.DTD, .all, 0x0, 4, 1⟩
  | .DTD_CTL => ⟨.DTD, .all, 0x4, 4, 1⟩
  | .DTD_GRP => ⟨.DTD, .all, 0x10, 4, 5⟩
  | .DTD_LASTFAIL => ⟨.DTD, .all, 0x30, 4, 1⟩
  | .DTD_SWAP_CNT => ⟨.DTD, .all, 0x40, 4, 1⟩
  | .DTD_REPLAY_CNT => ⟨.DTD, .all, 0x44, 4, 1⟩
  | .DTD_RETRAIN_CNT => ⟨.DTD, .all, 0x48, 4, 1⟩
  | .DTD_LEVEL => ⟨.DTDH, .all, 0x8000, 4, 1⟩
  | .DTD_PSTOP => ⟨.DTDH, .all, 0x8004, 4, 1⟩
  | .UCP_STS => ⟨.UCP, .all, 0x0, 4, 1⟩
  | .UCP_CTL => ⟨.UCP, .all, 0x4, 4, 1⟩
  | .UCP_ID => ⟨.UCP, .all, 0x8, 4, 1⟩
  | .UCP_CAP => ⟨.UCP, .all, 0xc, 4, 1⟩
  | .UCP_ADM_CFG => ⟨.UCP, .all, 0x20, 16, 4⟩
  | .UCP_ADM_BASE_LO => ⟨.UCP, .all, 0x24, 16, 4⟩
  | .UCP_ADM_BASE_HI => ⟨.UCP, .all, 0x28, 16, 4⟩
  | .UCP_ADM_LEN => ⟨.UCP, .all, 0x2c, 16, 4⟩
  | .UCP_CRC_ERR => ⟨.UCP, .all, 0x80, 4, 1⟩
  | .UCP_REPLAY_CNT => ⟨.UCP, .all, 0x84, 4, 1⟩
  | .UCP_MALFORMED_CNT => ⟨.UCP, .all, 0x88, 4, 1⟩
  | .UCP_NOWIN_CNT => ⟨.UCP, .all, 0x8c, 4, 1⟩
  | .UCP_LOST_CNT => ⟨.UCP, .all, 0x90, 4, 1⟩
  | .RST_CMD => ⟨.RSTC, .all, 0x0, 4, 1⟩
  | .RST_STS => ⟨.RSTC, .all, 0x4, 4, 1⟩
  | .RST_CL_CMD => ⟨.RST, .logic, 0x0, 4, 1⟩
  | .RST_CL_STS => ⟨.RST, .logic, 0x4, 4, 1⟩
  | .RST_PDIE_STS => ⟨.RST, .logic, 0x10, 4, 1⟩
  | .RST_MOD_CMD => ⟨.RST, .hub, 0x0, 4, 1⟩
  | .RST_PART_CMD => ⟨.RST, .hub, 0x4, 4, 1⟩
  | .RST_PART_STS => ⟨.RST, .hub, 0x8, 4, 1⟩
  | .RST_PFAULT_A => ⟨.RST, .hub, 0x40, 8, 16⟩
  | .RST_PFAULT_B => ⟨.RST, .hub, 0x44, 8, 16⟩
  | .FLP_MOD_STS => ⟨.FLP, .hub, 0x0, 4, 1⟩
  | .FLP_RECORD => ⟨.FLP, .hub, 0x1000, 4, 128⟩
  | .FLP_DIE_STS => ⟨.FLP, .logic, 0x0, 4, 1⟩
  | .HSK_STS => ⟨.HSK, .logic, 0x0, 4, 1⟩
  | .HSK_ROUND => ⟨.HSK, .hub, 0x0, 4, 1⟩
  | .HSK_CLKLOSS => ⟨.HSK, .hub, 0x4, 4, 1⟩
  | .HSK_CLKLOSS_F => ⟨.HSK, .hub, 0x8, 4, 1⟩
  | .HSK_PIN => ⟨.HSK, .hub, 0x10, 4, 1⟩
  | .HSK_CH => ⟨.HSK, .all, 0x100, 4, 70⟩
  | .THM_SPOT => ⟨.THM, .logic, 0x0, 4, 18⟩
  | .THM_LAYER => ⟨.THM, .logic, 0x80, 4, 8⟩
  | .THM_FAR => ⟨.THM, .logic, 0xa0, 4, 5⟩
  | .THM_THR_CNT => ⟨.THM, .logic, 0xc0, 4, 1⟩
  | .THM_STS => ⟨.THM, .hub, 0x0, 4, 1⟩
  | .THM_ROR => ⟨.THM, .hub, 0x10, 4, 5⟩
  | .THM_FLOW_CFG => ⟨.THM, .hub, 0x30, 4, 1⟩
  | .THM_FLOW => ⟨.THM, .hub, 0x34, 4, 1⟩
  | .THM_HEARTH => ⟨.THM, .hub, 0x40, 4, 1⟩
  | .THM_EXCURSIONS => ⟨.THM, .hub, 0x44, 4, 1⟩
  | .THM_COMP_CRIT => ⟨.THM, .hub, 0x48, 4, 1⟩
  | .THM_LAST_ROR => ⟨.THM, .hub, 0x4c, 4, 1⟩
  | .CTR_N_LO => ⟨.CTRC, .all, 0x0, 8, 64⟩
  | .CTR_N_HI => ⟨.CTRC, .all, 0x4, 8, 64⟩
  | .CTR_FRZ_CMD => ⟨.CTR, .hub, 0x0, 4, 1⟩
  | .CTR_FRZ_STS => ⟨.CTR, .hub, 0x4, 4, 1⟩
  | .CTR_FRZ_DATUM_LO => ⟨.CTR, .hub, 0x8, 4, 1⟩
  | .CTR_FRZ_DATUM_HI => ⟨.CTR, .hub, 0xc, 4, 1⟩
  | .CTR_FRZ_AT_LO => ⟨.CTR, .hub, 0x10, 4, 1⟩
  | .CTR_FRZ_AT_HI => ⟨.CTR, .hub, 0x14, 4, 1⟩
  | .CTR_SMP_STS => ⟨.CTR, .hub, 0x20, 4, 1⟩
  | .CTR_SMP_SEQ => ⟨.CTR, .hub, 0x24, 4, 1⟩
  | .CTR_SMP_SKIP => ⟨.CTR, .hub, 0x28, 4, 1⟩
  | .CTR_DIE_STS => ⟨.CTR, .logic, 0x0, 4, 1⟩
  | .FBK_STS => ⟨.FBK, .all, 0x0, 4, 1⟩
  | .FBK_WRPTR => ⟨.FBK, .all, 0x4, 4, 1⟩
  | .FBK_POSTPTR => ⟨.FBK, .all, 0x8, 4, 1⟩
  | .FBK_LOST => ⟨.FBK, .all, 0xc, 4, 1⟩
  | .FBK_FILTER => ⟨.FBK, .all, 0x10, 4, 1⟩
  | .FBK_TRIG_CFG => ⟨.FBK, .all, 0x14, 4, 1⟩
  | .FBK_TRIG_MASK => ⟨.FBK, .all, 0x18, 4, 1⟩
  | .FBK_TRIG_VAL => ⟨.FBK, .all, 0x1c, 4, 1⟩
  | .FBK_TRIG_DATUM_LO => ⟨.FBK, .all, 0x20, 4, 1⟩
  | .FBK_TRIG_DATUM_HI => ⟨.FBK, .all, 0x24, 4, 1⟩
  | .FBK_CMD => ⟨.FBK, .hub, 0x100, 4, 1⟩
  | .FBK_CMD_STS => ⟨.FBK, .hub, 0x104, 4, 1⟩
  | .FBK_AT_LO => ⟨.FBK, .hub, 0x108, 4, 1⟩
  | .FBK_AT_HI => ⟨.FBK, .hub, 0x10c, 4, 1⟩
  | .FBK_MARK => ⟨.FBK, .hub, 0x110, 4, 1⟩
  | .FBK_DUMP_FIRST => ⟨.FBK, .hub, 0x120, 4, 1⟩
  | .FBK_DUMP_COUNT => ⟨.FBK, .hub, 0x124, 4, 1⟩
  | .FBK_DUMP_DST_LO => ⟨.FBK, .hub, 0x128, 4, 1⟩
  | .FBK_DUMP_DST_HI => ⟨.FBK, .hub, 0x12c, 4, 1⟩
  | .SVC_STS => ⟨.SVC, .all, 0x0, 4, 1⟩
  | .FWU_STS => ⟨.FWU, .all, 0x0, 4, 1⟩
  | .FWU_VER_ACT => ⟨.FWU, .all, 0x4, 4, 1⟩
  | .FWU_VER_STG => ⟨.FWU, .all, 0x8, 4, 1⟩
  | .FWU_OWNER => ⟨.FWU, .all, 0xc, 4, 1⟩
  | .LDG_STS => ⟨.LDG, .all, 0x0, 4, 1⟩
  | .ATT_CMD => ⟨.ATT, .all, 0x0, 4, 1⟩
  | .ATT_STS => ⟨.ATT, .all, 0x4, 4, 1⟩
  | .ATT_DST_LO => ⟨.ATT, .all, 0x8, 4, 1⟩
  | .ATT_DST_HI => ⟨.ATT, .all, 0xc, 4, 1⟩

def Reg.all0 : List Reg := [.BRG_DIEID, .BRG_REVCAP, .BRG_RAERR_STS, .BRG_RAERR_ADDR_LO, .BRG_RAERR_ADDR_HI, .BRG_RAERR_CNT, .BRG_LOCAL_STS, .BRG_MOD_STS, .BRG_MOD_TIME, .PLT_SRC_LO, .PLT_SRC_HI, .PLT_SRC_LEN, .PLT_CMD, .PLT_STS, .PLT_DETAIL, .PLT_DETAIL2, .PLT_ID_LO, .PLT_ID_HI, .PLT_PART_STS, .PLT_DIE_STS, .SEQ_STS, .SEQ_PC, .SEQ_FAULT, .SEQ_CFG]
def Reg.all1 : List Reg := [.SEQ_FARE, .SEQ_SCR_CE, .SEQ_SCR_UE, .SEQ_EVC, .MXA_STS, .MXA_FLAGS, .MXA_POISON_CNT, .MXA_CVT, .VEC_STS, .VEC_FLAGS, .VEC_POISON_CNT, .VEC_CVT, .VEC_SDST, .VEC_TFSUM, .VEC_RWCNT, .VEC_RRCNT, .VEC_MASK_LO, .VEC_MASK_HI, .VEC_MON_CLR, .VEC_MON, .VEC_LFLAG_LO, .VEC_LFLAG_HI, .ATN_STS, .ATN_RELAY_CFG]
def Reg.all2 : List Reg := [.ATN_RELAY_LAND_LO, .ATN_RELAY_LAND_HI, .ATN_RELAY_NEXT_LO, .ATN_RELAY_NEXT_HI, .ATN_RELAY_CNT, .KVD_STS, .KVD_DETAIL, .KVD_POISON_CNT, .SLC_STS, .SLC_PENDING, .SLC_CE, .SLC_SLOWFIX, .SLC_POISON, .SLC_PEND_POISON, .SLC_BUSY_CNT, .SLC_BUSY_CAP, .SLC_BUSY_ADDR, .BNK_STS, .BNK_FLAGS, .BNK_POISON_CNT, .BNK_PROGRESS, .FMC_STS, .FMC_CTL, .FMC_CE]
def Reg.all3 : List Reg := [.FMC_SLOWFIX, .FMC_POISON, .FMC_RETRAIN, .ECC_STS, .ECC_PENDING, .ECC_RECOMP, .ECC_SLOW, .SCB_CMD, .SCB_START_LO, .SCB_START_HI, .SCB_LEN_LO, .SCB_LEN_HI, .SCB_SUM_LO, .SCB_SUM_HI, .SCB_STS, .SCB_PROGRESS, .SCB_RPR_CMD, .SCB_RPR_PAGE, .SCB_RPR_STS, .NOC_STS, .NOC_ABSORB_CNT, .NOC_DRAIN_POISON_CNT, .NOC_TIMEOUT_CNT, .NOC_LATE_CNT]
def Reg.all4 : List Reg := [.NOC_LINKDOWN_CNT, .NOC_RET_STS, .NOC_RET_STALL_CNT, .NOC_FLIT_CNT, .CTL_STS, .CTL_SENT_CNT, .CTL_RCVD_CNT, .CTL_DROP_CNT, .CTL_UNDELIV_CNT, .QOS_HUBSRC_CFG, .QOS_HUBSRC_REG, .QOS_MOD_WEIGHT, .QOS_VC_BSUM, .QOS_VC_RSUM, .QOS_PUB_STS, .QOS_COMP_LOAD, .QOS_COMP_DLMISS, .QOS_TGT_LOAD, .QOS_TGT_DLMISS, .QOS_SRC_REG, .QOS_SRC_HOLD_CNT, .ARQ_COUNT, .ARQ_ERR, .ARQ_REWIND_CNT]
def Reg.all5 : List Reg := [.ARQ_DISCARD_CNT, .ARQ_POISON_CNT, .ARQ_ABORT, .ARQ_DEFFARE, .DPQ_COUNT, .DPQ_HEAD, .DPQ_POP, .DPQ_REWIND_CNT, .DPQ_POISON_CNT, .DPQ_DISCARD_CNT, .PCE_FN_STS, .PCE_RWIN, .PCE_EVSTS, .PCE_ERR_STS, .PCE_ERR_ADDR_LO, .PCE_ERR_ADDR_HI, .PCE_PWDROP_CNT, .PCE_MIR_CFG, .PCE_MIR_ADDR_LO, .PCE_MIR_ADDR_HI, .PCE_MIR_SEQ, .PCE_WIN_LO, .PCE_WIN_HI, .TWP_STS]
def Reg.all6 : List Reg := [.TWP_NB, .TWP_DATUM, .TWP_REG, .TWP_NOROUTE_CNT, .TWP_HOPLIM_CNT, .TWP_NOWIN_CNT, .TWP_MALFORMED_CNT, .TWP_LINKLOST_CNT, .TWP_ADM_CFG, .TWP_ADM_BASE_LO, .TWP_ADM_BASE_HI, .TWP_ADM_LEN, .TWP_GRP, .TWP_MBR, .TWL_STS, .TWL_CTL, .TWL_FEC_CORR, .TWL_FEC_FAIL, .TWL_CRC_ERR, .TWL_REPLAY_CNT, .TWL_RETRAIN_CNT, .DAT_NOW_LO, .DAT_NOW_HI, .DAT_DSTS]
def Reg.all7 : List Reg := [.DAT_STS, .DAT_OFFSET, .DAT_STEP_CNT, .DAT_LOST_CNT, .DAT_MM, .DTD_STS, .DTD_CTL, .DTD_GRP, .DTD_LASTFAIL, .DTD_SWAP_CNT, .DTD_REPLAY_CNT, .DTD_RETRAIN_CNT, .DTD_LEVEL, .DTD_PSTOP, .UCP_STS, .UCP_CTL, .UCP_ID, .UCP_CAP, .UCP_ADM_CFG, .UCP_ADM_BASE_LO, .UCP_ADM_BASE_HI, .UCP_ADM_LEN, .UCP_CRC_ERR, .UCP_REPLAY_CNT]
def Reg.all8 : List Reg := [.UCP_MALFORMED_CNT, .UCP_NOWIN_CNT, .UCP_LOST_CNT, .RST_CMD, .RST_STS, .RST_CL_CMD, .RST_CL_STS, .RST_PDIE_STS, .RST_MOD_CMD, .RST_PART_CMD, .RST_PART_STS, .RST_PFAULT_A, .RST_PFAULT_B, .FLP_MOD_STS, .FLP_RECORD, .FLP_DIE_STS, .HSK_STS, .HSK_ROUND, .HSK_CLKLOSS, .HSK_CLKLOSS_F, .HSK_PIN, .HSK_CH, .THM_SPOT, .THM_LAYER]
def Reg.all9 : List Reg := [.THM_FAR, .THM_THR_CNT, .THM_STS, .THM_ROR, .THM_FLOW_CFG, .THM_FLOW, .THM_HEARTH, .THM_EXCURSIONS, .THM_COMP_CRIT, .THM_LAST_ROR, .CTR_N_LO, .CTR_N_HI, .CTR_FRZ_CMD, .CTR_FRZ_STS, .CTR_FRZ_DATUM_LO, .CTR_FRZ_DATUM_HI, .CTR_FRZ_AT_LO, .CTR_FRZ_AT_HI, .CTR_SMP_STS, .CTR_SMP_SEQ, .CTR_SMP_SKIP, .CTR_DIE_STS, .FBK_STS, .FBK_WRPTR]
def Reg.all10 : List Reg := [.FBK_POSTPTR, .FBK_LOST, .FBK_FILTER, .FBK_TRIG_CFG, .FBK_TRIG_MASK, .FBK_TRIG_VAL, .FBK_TRIG_DATUM_LO, .FBK_TRIG_DATUM_HI, .FBK_CMD, .FBK_CMD_STS, .FBK_AT_LO, .FBK_AT_HI, .FBK_MARK, .FBK_DUMP_FIRST, .FBK_DUMP_COUNT, .FBK_DUMP_DST_LO, .FBK_DUMP_DST_HI, .SVC_STS, .FWU_STS, .FWU_VER_ACT, .FWU_VER_STG, .FWU_OWNER, .LDG_STS, .ATT_CMD]
def Reg.all11 : List Reg := [.ATT_STS, .ATT_DST_LO, .ATT_DST_HI]

/-- Every register, in the order of the chapters. -/
def Reg.all : List Reg :=
  Reg.all0 ++ (Reg.all1 ++ (Reg.all2 ++ (Reg.all3 ++ (Reg.all4 ++ (Reg.all5 ++ (Reg.all6 ++ (Reg.all7 ++ (Reg.all8 ++ (Reg.all9 ++ (Reg.all10 ++ (Reg.all11)))))))))))

end Sys2Proof.Machine
end

