-- ==== Sys2Proof/Machine/RegAddr.lean ====
section
/-! DEFINITION. Reset words of registers whose reset differs between indexes, and the address map of register space (R33, R38, R39):
from a local address to the die, block, unit and offset it names, and from there to a register. -/

namespace Sys2Proof.Machine

/-- The reset value of one field at an index: as the register tables print it, with the values that R376, R462 and R114 give
per index. -/
def RegField.resetAt (f : RegField) (idx : Nat) : Nat :=
  match f.reg with
  | .QOS_HUBSRC_CFG => if idx = 10 ∧ f.lo = 8 then 0 else f.reset
  | .QOS_HUBSRC_REG =>
    if idx = 10 then 0x10
    else if idx = 9 ∧ f.lo = 0 then 0x200 else f.reset
  | .TWP_REG => if idx = 0 then f.reset else 0
  | .VEC_MON => if idx % 4 = 1 then 0x7F800000 else 0
  | _ => f.reset

/-- The word a register holds after module reset: its fields' reset values at their places. -/
def Reg.resetWord (r : Reg) (idx : Nat) : Word :=
  r.fields.foldl (fun w f => w ||| (BitVec.ofNat 32 (f.resetAt idx) <<< f.lo)) 0

/-- Where an address of register space lies: die, block, unit (the numbering of `RegId`) and offset in the unit's block. -/
structure RegLoc where
  die : Nat
  block : Block
  unit : Nat
  off : Nat
  deriving DecidableEq, Repr

/-- One register of the module: the register, the unit that holds it and its index there. Units: a core block has core number
0 to 575; a die-level block the die number 0 to 4; FMC the far device 0 to 19; TWP the port 0 to 7; TWL port · 12 + link; a DTD
station 2d for the vertical link and 2d + 1 for the hub link of logic die d, 8 + d for the hub bridge to die d; ARQ and DPQ the
queue; PCE the function page. -/
structure RegId where
  reg : Reg
  unit : Nat
  idx : Nat
  deriving DecidableEq, Repr

/-- The core-side block at position 2^16 · b of a core's megabyte (R38). -/
def coreBlock : Nat → Option Block
  | 0 => some .SEQ | 1 => some .MXA | 2 => some .VEC | 3 => some .ATN | 4 => some .KVD | 5 => some .SLC
  | 6 => some .BNK | 7 => some .NOC | 8 => some .CTL | 9 => some .QOSC | 10 => some .CTRC | 11 => some .RSTC
  | _ => none

/-- Register space of logic die d at offset o (R38). -/
def logicLoc (d o : Nat) : Option RegLoc :=
  if o < 0x0900_0000 then
    (coreBlock (o / 0x1_0000 % 16)).map fun b => ⟨d, b, 144 * d + o / 0x10_0000, o % 0x1_0000⟩
  else if o < 0x1000_0000 then none
  else
    let q := (o - 0x1000_0000) / 0x10_0000
    let r := o % 0x10_0000
    match q with
    | 0 => some ⟨d, .BRG, d, r⟩
    | 1 => some ⟨d, .RST, d, r⟩
    | 2 => some ⟨d, .FLP, d, r⟩
    | 3 => some ⟨d, .PLT, d, r⟩
    | 4 | 5 | 6 | 7 | 8 => some ⟨d, .FMC, 5 * d + (q - 4), r⟩
    | 9 => some ⟨d, .ECC, d, r⟩
    | 10 => some ⟨d, .SCB, d, r⟩
    | 11 | 12 => some ⟨d, .TWP, 2 * d + (q - 11), r⟩
    | 13 | 14 =>
      if r / 0x1_0000 < 12 then some ⟨d, .TWL, 12 * (2 * d + (q - 13)) + r / 0x1_0000, r % 0x1_0000⟩ else none
    | 15 => if r / 0x1000 < 2 then some ⟨d, .DTD, 2 * d + r / 0x1000, r % 0x1000⟩ else none
    | 16 => some ⟨d, .HSK, d, r⟩
    | 17 => some ⟨d, .THM, d, r⟩
    | 18 => some ⟨d, .CTR, d, r⟩
    | 19 => some ⟨d, .FBK, d, r⟩
    | 20 => some ⟨d, .DAT, d, r⟩
    | 21 => some ⟨d, .QOS, d, r⟩
    | _ => none

/-- Register space of the hub die at offset o (R39). -/
def hubLoc (o : Nat) : Option RegLoc :=
  if o < 0x0040_0000 then
    match o / 0x10_0000 with
    | 0 => some ⟨4, .BRG, 4, o⟩
    | 1 => some ⟨4, .RST, 4, o % 0x10_0000⟩
    | 2 => some ⟨4, .FLP, 4, o % 0x10_0000⟩
    | _ => some ⟨4, .PLT, 4, o % 0x10_0000⟩
  else if 0x0100_0000 ≤ o ∧ o < 0x0100_9000 then some ⟨4, .PCE, (o - 0x0100_0000) / 0x1000, o % 0x1000⟩
  else if 0x0400_0000 ≤ o ∧ o < 0x0440_0000 then some ⟨4, .ARQ, (o - 0x0400_0000) / 0x1_0000, o % 0x1_0000⟩
  else if 0x0800_0000 ≤ o ∧ o < 0x0840_0000 then some ⟨4, .DPQ, (o - 0x0800_0000) / 0x1_0000, o % 0x1_0000⟩
  else if 0x0C00_0000 ≤ o ∧ o < 0x0CC0_0000 then
    let r := o % 0x10_0000
    match (o - 0x0C00_0000) / 0x10_0000 with
    | 0 => some ⟨4, .SVC, 4, r⟩
    | 1 => some ⟨4, .FWU, 4, r⟩
    | 2 => some ⟨4, .LDG, 4, r⟩
    | 3 => some ⟨4, .ATT, 4, r⟩
    | 4 => some ⟨4, .DAT, 4, r⟩
    | 5 => some ⟨4, .UCP, 4, r⟩
    | 6 => some ⟨4, .FBK, 4, r⟩
    | 7 => some ⟨4, .HSK, 4, r⟩
    | 8 => some ⟨4, .THM, 4, r⟩
    | 9 => some ⟨4, .CTR, 4, r⟩
    | 10 =>
      if r < 0x4000 then some ⟨4, .DTD, 8 + r / 0x1000, r % 0x1000⟩ else some ⟨4, .DTDH, 4, r⟩
    | _ => some ⟨4, .QOS, 4, r⟩
  else none

/-- The die whose register space holds a local address (R33). -/
def regDie (a : Nat) : Option Nat :=
  if 0x3000_0000_0000 ≤ a ∧ a < 0x3005_0000_0000 then some ((a - 0x3000_0000_0000) / 0x1_0000_0000) else none

/-- The block and offset of an address of register space; none where no block lies (R35). -/
def regLoc (a : Nat) : Option RegLoc :=
  match regDie a with
  | none => none
  | some d => if d = 4 then hubLoc (a % 0x1_0000_0000) else logicLoc d (a % 0x1_0000_0000)

/-- Whether a die-level register exists on a die. -/
def Where.holds : Where → Nat → Bool
  | .all, _ => true
  | .logic, d => d != 4
  | .hub, d => d == 4

/-- How many of a register a die's block holds: of HSK_CH the hub holds 40 (R549). -/
def Reg.countOn (r : Reg) (die : Nat) : Nat := if r = .HSK_CH ∧ die = 4 then 40 else r.place.count

/-- The index at which a register lies at an offset of its block on a die, if it lies there. -/
def Reg.idxAt (r : Reg) (die off : Nat) : Option Nat :=
  let p := r.place
  if p.dies.holds die && decide (p.off ≤ off) && decide ((off - p.off) % p.stride = 0)
      && decide ((off - p.off) / p.stride < r.countOn die) then
    some ((off - p.off) / p.stride)
  else none

/-- The register at a place; none where the offset holds no register (R15). -/
def RegLoc.find (l : RegLoc) : Option RegId :=
  Reg.all.findSome? fun r =>
    if r.place.block = l.block then (r.idxAt l.die l.off).map fun i => ⟨r, l.unit, i⟩ else none

/-- The register at an address of register space. -/
def regAt (a : Nat) : Option RegId := (regLoc a).bind RegLoc.find

/-- The key under which the register store holds a register. -/
def RegId.key (r : RegId) : Nat := r.reg.ctorIdx * 2097152 + r.unit * 2048 + r.idx

end Sys2Proof.Machine
end

