-- ==== Sys2Proof/Machine/Tbl.lean ====
section
/-! DEFINITION. Sparse tables and sets in one canonical form: keys strictly rising, no entry equal to the default. Every memory and
every indexed unit of the module is kept in one, so that equal contents are equal data. -/

namespace Sys2Proof.Machine

/-- A sparse table: pairs of key and value, keys strictly rising, no value equal to the table's default. -/
abbrev Tbl (α : Type) := List (Nat × α)

/-- The value at a key; the default where the table lists none. -/
def Tbl.get {α : Type} (d : α) : Tbl α → Nat → α
  | [], _ => d
  | (k, v) :: t, i => if i = k then v else Tbl.get d t i

/-- Puts an entry at a key in key order, replacing the one there. -/
def Tbl.put {α : Type} : Tbl α → Nat → α → Tbl α
  | [], i, x => [(i, x)]
  | (k, v) :: t, i, x =>
    if i < k then (i, x) :: (k, v) :: t else if i = k then (i, x) :: t else (k, v) :: Tbl.put t i x

/-- Removes what a table lists at a key. -/
def Tbl.drop {α : Type} : Tbl α → Nat → Tbl α
  | [], _ => []
  | (k, v) :: t, i => if i = k then Tbl.drop t i else (k, v) :: Tbl.drop t i

/-- Writes a key, keeping the canonical form: writing the default removes the entry. -/
def Tbl.set {α : Type} [DecidableEq α] (d : α) (t : Tbl α) (i : Nat) (x : α) : Tbl α :=
  if x = d then Tbl.drop t i else Tbl.put t i x

/-- Applies a function to the value at a key. -/
def Tbl.upd {α : Type} [DecidableEq α] (d : α) (t : Tbl α) (i : Nat) (f : α → α) : Tbl α :=
  Tbl.set d t i (f (Tbl.get d t i))

/-- Keys rise strictly from `lo` on and no value is the default. -/
def Tbl.sortedFrom {α : Type} [DecidableEq α] (d : α) : Nat → Tbl α → Bool
  | _, [] => true
  | lo, (k, v) :: t => decide (lo ≤ k) && decide (v ≠ d) && Tbl.sortedFrom d (k + 1) t

/-- The canonical form of a table. -/
def Tbl.wf {α : Type} [DecidableEq α] (d : α) (t : Tbl α) : Bool := Tbl.sortedFrom d 0 t

/-- A set of numbers, strictly rising. -/
abbrev NSet := List Nat

/-- Adds a number to a set. -/
def NSet.insert : NSet → Nat → NSet
  | [], i => [i]
  | k :: t, i => if i < k then i :: k :: t else if i = k then k :: t else k :: NSet.insert t i

/-- Removes a number from a set. -/
def NSet.erase : NSet → Nat → NSet
  | [], _ => []
  | k :: t, i => if i = k then NSet.erase t i else k :: NSet.erase t i

/-- Adds or removes a number. -/
def NSet.put (s : NSet) (i : Nat) (b : Bool) : NSet := if b then NSet.insert s i else NSet.erase s i

/-- Numbers rise strictly from `lo` on. -/
def NSet.sortedFrom : Nat → NSet → Bool
  | _, [] => true
  | lo, k :: t => decide (lo ≤ k) && NSet.sortedFrom (k + 1) t

/-- The canonical form of a set. -/
def NSet.wf (s : NSet) : Bool := NSet.sortedFrom 0 s

end Sys2Proof.Machine
end

