-- ==== Sys2Proof/Machine/State.lean ====
section
/-! DEFINITION. The state of the module as plain data, the outcomes of a step, and the state after reset. A register has one home: the
register store `regs`, which holds each word XOR its reset word under the key of its RegId. What the manual gives beside its
registers stands in the structures below, one per unit. -/

namespace Sys2Proof.Machine

/-- Why the module stops with a fault. The manual answers every access and every command with a status or a core fault, which are
next states of the model. -/
inductive Fault where
  /-- A die-level unit was asked to act on a unit number the module does not have. Raised by no command of the table (their
  operands are typed); safe. -/
  | noSuchUnit
  deriving DecidableEq, Repr

/-- Why the model refuses a command. -/
inductive Refusal where
  /-- The command has no meaning in the model yet. Raised by the dispatch alone; safe. -/
  | notModelled (mnemonic : String)
  deriving DecidableEq, Repr

/-! ### The plat (R44 to R67) -/

/-- A PARTITION entry (R47). -/
structure PartEntry where
  num : Nat := 0
  kind : Nat := 0
  fn : Nat := 0
  modes : Nat := 0
  drainUs : Nat := 0
  arqMap : Nat := 0
  dpqMap : Nat := 0
  clusters : Nat := 0
  ring : Nat := 255
  compUse : Nat := 0
  bankEn : Nat := 0
  deriving DecidableEq, Repr

/-- A PROGRAM entry (R51). -/
structure ProgEntry where
  core : Nat
  off : Nat
  len : Nat
  entry : Nat
  seed : DWord
  cfg : Word
  deriving DecidableEq, Repr

/-- A MEMMAP entry (R55). -/
structure MemRange where
  part : Nat
  rights : Nat
  fare : Nat
  base : Nat
  len : Nat
  deriving DecidableEq, Repr

/-- An INTERLEAVE entry (R58). -/
structure Region where
  num : Nat
  mode : Nat
  stack : Nat
  dev : Nat
  owner : Nat
  base : Nat
  len : Nat
  deriving DecidableEq, Repr

/-- A class-map record (R334); `map` is the 16 bytes of MAP, byte 0 lowest. -/
structure ClassMap where
  part : Nat
  quarter : Nat
  map : Nat
  deriving DecidableEq, Repr

/-- A box of router coordinates. -/
structure Box where
  x0 : Nat
  y0 : Nat
  x1 : Nat
  y1 : Nat
  deriving DecidableEq, Repr

/-- One leg of a route record (R335). -/
structure Leg where
  x : Nat
  y : Nat
  kind : Nat
  deriving DecidableEq, Repr

/-- A route record (R335), with its byte offset in the image. -/
structure RouteRec where
  part : Nat
  order : Nat
  cond : Nat
  src : Box
  dst : Box
  legs : List Leg
  at' : Nat
  deriving DecidableEq, Repr

/-- A multicast rule (R343). -/
structure McRule where
  part : Nat
  endpoint : Nat
  leader : Nat
  box : Box
  off : Nat
  len : Nat
  at' : Nat
  deriving DecidableEq, Repr

/-- A FARE entry (R60, R358, R359): its first four bytes and the twelve that its KIND lays out. -/
structure FareEntry where
  part : Nat
  fare : Nat
  pattern : Nat
  kind : Nat
  rest : Nat
  at' : Nat
  deriving DecidableEq, Repr

/-- A POOL entry (R64). -/
structure PoolEntry where
  part : Nat
  loc : Nat
  tokens : Nat
  keep : Bool
  layout : Nat
  count : Nat
  base : Nat
  table : Nat
  deriving DecidableEq, Repr

/-- A SURVEY port entry (R66). -/
structure SurveyPort where
  flags : Nat := 0
  minHalf : Nat := 0
  nbUnit : Nat := 0
  nbPort : Nat := 0
  deriving DecidableEq, Repr

/-- A SURVEY ring entry (R66). -/
structure SurveyRing where
  index : Nat
  size : Nat
  position : Nat
  prevUnit : Nat
  nextUnit : Nat
  prevPort : Nat
  nextPort : Nat
  deriving DecidableEq, Repr

/-- The SURVEY section (R66). -/
structure Survey where
  unit : Nat := 0
  role : Nat := 0
  ports : List SurveyPort := []
  rings : List SurveyRing := []
  deriving DecidableEq, Repr

/-- The OBSERVE section (R67, R558). -/
structure Observe where
  mode : Nat := 0
  reserve : Nat := 0
  collect : Nat := 0
  intervalUs : Nat := 0
  tally : Nat := 0
  tallyLen : Nat := 0
  cmask : Nat := 0
  clusters : Nat := 0
  wrap : Bool := false
  /-- the image carries an OBSERVE entry -/
  present : Bool := false
  deriving DecidableEq, Repr

/-- What a plat configures: the sections as the loader reads them, and as they are in force. -/
structure Plat where
  platId : Nat := 0
  parts : List PartEntry := []
  progs : List ProgEntry := []
  classMaps : List ClassMap := []
  routes : List RouteRec := []
  rules : List McRule := []
  memmap : List MemRange := []
  regions : List Region := []
  fares : List FareEntry := []
  pools : List PoolEntry := []
  survey : Survey := {}
  observe : Observe := {}
  /-- whether the image carried an INTERLEAVE section (R59) -/
  hasInterleave : Bool := false
  deriving DecidableEq, Repr

/-- A load or STOP in progress (R69, R78): the command, its step, the source, what the checks parsed of the image, the
DIGEST field as step 1 read it (R87), and PLAT_ID. -/
structure LoadRun where
  op : Nat
  part : Nat
  step : Nat
  src : Nat
  len : Nat
  plat : Plat := {}
  id : Nat := 0
  digest : List Byte := []
  /-- the stage before the load -/
  stage : Nat := 0
  /-- the partitions that were ABSENT when step 4 began -/
  fresh : List Nat := []
  deriving DecidableEq, Repr

/-! ### The core and its engines -/

/-- Core states (R124). -/
inductive CoreSt where
  | held | running | waiting | halted | faulted
  deriving DecidableEq, Repr

/-- What a WAITING core waits for (R128, R351, R404). -/
inductive WaitOn where
  /-- WAIT until (int32)(EVC[ev] − target) ≥ 0 -/
  | event (ev : Nat) (target : Word)
  /-- CRECV into G[dst] and G[dst + 1] -/
  | message (dst : Nat)
  /-- QTAKEW: destination register, queue, scratch offset and capacity in words -/
  | take (dst queue addr cap : Nat)
  /-- QPUTW: destination register, queue, scratch offset and words -/
  | put (dst queue addr words : Nat)
  deriving DecidableEq, Repr

/-- What a queue entry is (R135, R149, R200). -/
inductive DescKind where
  | mpass
  | mcvt (n : Nat)
  | vop
  | atn
  | dma
  | bop
  deriving DecidableEq, Repr

/-- An entry of an engine queue: its kind, the descriptor as a number (bit 0 lowest), the event counter its completion
increments, and the fare tag current at issue (R138). -/
structure Desc where
  kind : DescKind
  bits : Nat
  ev : Option Nat
  fare : Nat
  deriving DecidableEq, Repr

/-- A sidecar entry (R104). -/
structure SideEntry where
  row : Nat
  col : Nat
  value : Nat
  scale : Nat
  deriving DecidableEq, Repr

/-- A stationary tile in the array (R96, R146, R163). -/
structure Tile where
  fmt : Fmt
  data : List Byte
  aux : List Byte
  side : List SideEntry
  badCols : NSet
  deriving DecidableEq, Repr

/-- A pass in the array: its descriptor, the next row to write (R158, R159), and the flags to post at its completion (R161, R162):
their OR, and by lane. -/
structure PassRun where
  desc : Desc
  next : Nat
  flags : Flags
  lanes : List Flags
  deriving DecidableEq, Repr

/-- What a descriptor posts when it completes (R191, R116): status, summary flags, per-lane flags of a tile register, a mask. -/
structure VecRun where
  desc : Desc
  /-- next row to read -/
  next : Nat
  /-- R0 of R185 -/
  r0 : Nat
  /-- a ring read waits (VEC_STS.RING_WAIT) -/
  waiting : Bool
  /-- AMAX of the scale slot, read when the descriptor began (R119) -/
  amax : Word
  /-- status so far (R194) -/
  status : Nat
  /-- flags for VEC_FLAGS -/
  flags : Flags
  /-- flags of tile registers, by tile · 64 + lane -/
  tileFlags : Tbl Flags
  /-- mask result of a compare -/
  mask : Option (Nat × DWord)
  deriving DecidableEq, Repr

/-- Where a DMA descriptor in progress stands. -/
inductive DmaPhase where
  /-- all work done: DMA_DESC_COMPLETE ends it -/
  | done
  /-- an access must wait: the descriptor begins again -/
  | waiting
  /-- an access of a table request must wait (KVD_STS.TABLE_WAIT) -/
  | tableWait
  /-- RSEND waits for the read of the remote slot header (R233) -/
  | header
  /-- RSEND found the slot FULL and rereads it -/
  | full
  /-- RSEND or remote COPY: payload writes outstanding -/
  | payload
  /-- RSEND may write its header -/
  | ready
  /-- RSEND's header write is outstanding -/
  | sealing
  /-- RWAIT polls its local slot (R235) -/
  | polling
  deriving DecidableEq, Repr

/-- A DMA descriptor in progress: its phase, the status and DETAIL it will end with, and the remote packets outstanding. -/
structure DmaRun where
  desc : Desc
  phase : DmaPhase
  status : Nat
  detail : Nat
  outstanding : Nat
  /-- STATE of the slot header last read -/
  seen : Nat
  deriving DecidableEq, Repr

/-- A relay forward in progress (R239): the slot it takes, the addresses of the local and the next slot read when it took the block (R242),
its phase as RSEND's, `done` where the local slot is still to be freed, and whether a packet of it failed. -/
structure RelayRun where
  slot : Nat
  land : Nat
  next : Nat
  phase : DmaPhase
  outstanding : Nat
  failed : Bool := false
  deriving DecidableEq, Repr

/-- One core with its queues and engines. -/
structure Core where
  st : CoreSt := .held
  /-- PC of the next instruction -/
  pc : DWord := 0
  /-- the instruction last executed, or the faulting one (SEQ_PC) -/
  lastPc : DWord := 0
  /-- HALT executed, queues not yet empty (R124) -/
  halting : Bool := false
  /-- G1 to G15; G0 is hard-wired (R129) -/
  g : Tbl DWord := []
  wait : Option WaitOn := none
  mxq : List Desc := []
  vxq : List Desc := []
  dmq : List Desc := []
  bkq : List Desc := []
  tile : Option Tile := none
  pass : Option PassRun := none
  vec : Option VecRun := none
  dma : Option DmaRun := none
  relay : Option RelayRun := none
  /-- second relay slot is next (slots are taken in turn) -/
  relayNext : Nat := 0
  /-- conversion-stage generators (R111), by lane -/
  gens : Tbl DWord := []
  deriving DecidableEq, Repr

/-! ### Slices, far devices and codes -/

/-- A bank operation in progress (R272). -/
structure BopRun where
  desc : Desc
  issuer : Nat
  /-- step 3 of R272 in progress -/
  cleaning : Bool
  /-- pages whose step has ended, per bank -/
  done : Tbl Nat
  /-- generators of the bank units (R265) -/
  gens : Tbl DWord
  /-- flags of the descriptor, for its result word -/
  flags : Flags
  /-- elements written as poisoned (R277) -/
  bad : Nat
  /-- status at the end: OK, or TABLE_INVALID of a LOADTAB -/
  status : Nat
  /-- the issuer left RUNNING or WAITING for HELD (R278) -/
  abandoned : Bool
  /-- then, banks whose page step under way has ended -/
  ended : NSet
  deriving DecidableEq, Repr

/-- A request held at a memory (R274, R300, R302, R304): the packet and what it does. -/
structure HeldReq where
  packet : Packet
  /-- 0 read, 1 write, 2 posted write, 3 + k atomic operation k -/
  op : Nat
  /-- the local address served, which differs from the packet's for a multicast copy -/
  addr : Nat
  /-- the position that answers, 576 + j for far device j -/
  target : Nat
  /-- the routers and the hub that it has passed, from its source on; its answer passes them in reverse -/
  path : List Nat := []
  /-- words for which a slow path has run for it (R300, R301) -/
  ran : NSet := []
  /-- of a request that entered at a fabric port, the partition of its window, whose fare it takes (R441) -/
  part : Option Nat := none
  deriving DecidableEq, Repr

/-- A line of a slice cache (R244, R247): the slice word that it holds, and whether the bank's copy is older. -/
structure Line where
  word : Nat
  dirty : Bool
  /-- the word was delivered poisoned when the line was fetched, and nothing has written it since -/
  bad : Bool := false
  deriving DecidableEq, Repr

/-- One slice: its bank operation, table slots, pending pages, its cache with 512 sets of 16 ways, by set · 16 + way, and the 15 bits of
each set's replacement tree, banks whose refresh waits for a page step, and the Datum at which each bank last began a refresh. -/
structure Slice where
  bop : Option BopRun := none
  /-- place in the cluster whose bank-operation queue the arbiter prefers (R269, R20) -/
  ptr : Nat := 0
  slots : Tbl (List Byte) := []
  pending : NSet := []
  cache : Tbl (Option Line) := []
  plru : Tbl Nat := []
  /-- what the bytes read as that nothing has written, where it is not the die's: cleared, or lost when the counter of fresh values stood
  at a number (R253) -/
  fill : Option (Option Nat) := none
  refreshWait : NSet := []
  refreshAt : Tbl Nat := []
  /-- reads of pages of range D whose step has not ended (R274) -/
  held : List HeldReq := []
  deriving DecidableEq, Repr

/-- One far device's controller (R302, R303). -/
structure FarDev where
  lost : Bool := false
  /-- retraining attempts failed in a row -/
  fails : Nat := 0
  retraining : Bool := false
  /-- requests held while the bus retrains or its clock is lost -/
  held : List HeldReq := []
  deriving DecidableEq, Repr

/-- A slow path (R300): its page (the word key of its first word ÷ 64), the failing word, whether a decoder runs it, the mesh requests
held behind it, and the units that wait for it, by the key under which `Module.ran` keeps what has run for them. -/
structure SlowPath where
  page : Nat
  word : Nat
  begun : Bool
  held : List HeldReq
  waiters : List Nat := []
  deriving DecidableEq, Repr

/-- What a slow path delivered for a unit (R301): its word, the word's 64 bytes, and whether they are poisoned. -/
structure Ran where
  word : Nat
  data : List Byte
  bad : Bool
  deriving DecidableEq, Repr

/-- A packet of an engine for the companion (R487): the key of the engine and its requester number, the packet's tag and whether it has been sent,
the window offset and size, the bytes written, none of a read; and the answer, with its status, bytes and poison tags. -/
structure CompReq where
  key : Nat
  src : Nat
  tag : Nat
  sent : Bool
  addr : Nat
  size : Nat
  write : Option (List Byte)
  ans : Option (Nat × List Byte × List Bool)
  deriving DecidableEq, Repr

/-- A scrub in progress (R305 to R309). -/
structure Scrub where
  repair : Bool
  kind : Nat
  unit : Nat
  fare : Nat
  start : Nat
  len : Nat
  next : Nat
  pages : Nat
  ce : Nat
  repairs : Nat
  rewritten : Nat
  notRewritten : Nat
  ue : Nat
  pendingRecomp : Nat
  cands : Nat
  ueList : List Nat
  candList : List Nat
  datumStart : Nat
  datumEnd : Nat
  abort : Bool
  deriving DecidableEq, Repr

/-- A field repair in progress (R304). -/
structure Repair where
  kind : Nat
  unit : Nat
  page : Nat
  copied : Bool
  /-- requests to the page while it is held -/
  held : List HeldReq
  deriving DecidableEq, Repr

/-! ### The mesh and the control network -/

/-- A non-posted request that its requester interface has outstanding (R323, R339). -/
structure Outst where
  src : Nat
  tag : Nat
  read : Bool
  /-- issued before a reset of its core: its answer is discarded (R513) -/
  stale : Bool := false
  deriving DecidableEq, Repr

/-- A response on the mesh (R325): RDATA with its data, or WACK with the old value of an atomic. `target` is the position that
answers, for an MWRITE's WACKs (R346). -/
structure Resp where
  src : Nat
  tag : Nat
  read : Bool
  status : Nat
  data : List Byte
  poison : List Bool
  target : Nat
  /-- its virtual channel (R321) -/
  vc : Nat
  /-- the endpoint that answers, as DEST of the request names it (R326) -/
  from' : BitVec 16
  /-- its request's path (R330, R337) -/
  path : List Nat
  deriving DecidableEq, Repr

/-- A multicast write whose WACKs are being collected (R346): targets still to answer, and the lowest-numbered target that
answered other than OK, with its status. -/
structure MWrite where
  src : Nat
  tag : Nat
  waiting : List Nat
  worst : Option (Nat × Nat)
  /-- issued before a reset of its core: its answers are discarded, and its tag stands until the last (R513) -/
  stale : Bool := false
  deriving DecidableEq, Repr

/-- A multicast packet in a router's retention buffer (R347): its window, its offset there and its box; the branch that has no credit (0 the
local one, 1 toward higher x, 2 toward higher y) and the flits held for it. One that the buffer cannot take whole is stalled at an input (0
of its own route, 1 from lower x, 2 from lower y) with the branches that wait with it. -/
structure Retained where
  packet : Packet
  path : List Nat
  scratch : Bool
  off : Nat
  box : Box
  branch : Nat
  flits : Nat
  stalled : Bool := false
  input : Nat := 0
  rest : List Nat := []
  deriving DecidableEq, Repr

/-- An injected request that waits on its path, at a link in TEST or RETRAIN (R474) or behind a multicast packet held at an input (R347): its
operation and path; of a multicast write the packet as its box's first router will meet it; of a fabric request its window's partition. -/
structure Waiting where
  op : Nat
  packet : Packet
  path : List Nat
  multi : Option Retained := none
  part : Option Nat := none
  deriving DecidableEq, Repr

/-- The mesh: requests outstanding, responses in flight, multicast writes, retention buffers by router, requests that wait on their path, oldest
first, and the links whose loss the sources' COND records now see (R337). -/
structure Net where
  outst : List Outst := []
  resp : List Resp := []
  mw : List MWrite := []
  ret : Tbl (List Retained) := []
  wait : List Waiting := []
  cond : NSet := []
  deriving DecidableEq, Repr

/-- A control message (R348). -/
structure CtlMsg where
  src : Nat
  dst : Nat
  c0 : Bool
  pay : Option DWord
  word : Word
  deriving DecidableEq, Repr

/-- A control station (R349): transmit queue, fault notices that found it full, and the receive queues of C0 and C1. -/
structure CtlSt where
  tx : List CtlMsg := []
  late : List CtlMsg := []
  rx0 : List CtlMsg := []
  rx1 : List CtlMsg := []
  deriving DecidableEq, Repr

/-! ### Fares and regulators -/

/-- Regulators and service (R362, R364, R366). By source interface · 4 + channel: what has been drawn from the full bucket, in 1/5120 flit,
and the requests that wait for it, oldest first, each with its operation. By
target · 4,352 + fare: what the target has charged the fare in its window, 1 + the address after the last byte that it served of it, and
the fare's deficit (charges and deficits in units of 1 ns ÷ (16 · C streaming · C random)). By target: the rotating pointers over fares
with budget and over all fares. The cores whose engine waits for its interface's tokens. -/
structure Qos where
  drawn : Tbl Nat := []
  held : Tbl (List (Nat × Packet)) := []
  starved : NSet := []
  spent : Tbl Nat := []
  lastEnd : Tbl Nat := []
  deficit : Tbl Nat := []
  ptr : Tbl Nat := []
  drr : Tbl Nat := []
  deriving DecidableEq, Repr

/-! ### Observation -/

/-- A Fieldbook record (R563). -/
structure FbRec where
  datum : Nat
  type : Nat
  flags : Nat
  source : Nat
  arg0 : Nat
  arg1 : Nat
  arg2 : Nat
  deriving DecidableEq, Repr

/-- Records lost and not yet reported by a GAP record (R565): how many, and the Datum of the first and the last. -/
structure Gap where
  count : Nat
  first : Nat
  last : Nat
  deriving DecidableEq, Repr

/-- A Fieldbook store (R565 to R567): input queue, slots, losses to report, percent of reserve, and the trigger instant that it
has seen, and whether it stopped because it filled. Its pointers and status are its registers. -/
structure Store where
  inq : List FbRec := []
  slots : Tbl (Option FbRec) := []
  gap : Option Gap := none
  reserve : Nat := 50
  trig : Option Nat := none
  full : Bool := false
  deriving DecidableEq, Repr

/-- A dump in progress (R570). -/
structure Dump where
  store : Nat
  first : Nat
  count : Nat
  dst : Nat
  deriving DecidableEq, Repr

/-- The sampler (R558 to R562): sample instants since the load, those skipped since the last record, records written, and the last
instant taken or skipped. -/
structure Sampler where
  seq : Nat := 0
  skipped : Nat := 0
  written : Nat := 0
  last : Nat := 0
  deriving DecidableEq, Repr

/-- The sampler, the stores, the scheduled trigger and the dump. -/
structure Obs where
  smp : Sampler := {}
  stores : Tbl Store := []
  schedTrig : Bool := false
  dump : Option Dump := none
  deriving DecidableEq, Repr

/-! ### The host endpoint -/

/-- One function's configuration that its BAR accesses and messages depend on (R380 to R394): Bus Master Enable, MSI-X Enable and
Function Mask, the MSI-X table by word (entry · 4 + word, a vector control stored XOR 1, since a vector is masked at reset),
pending bits, and the BAR2 size as 16 GiB · 2^bar2. -/
structure Fn where
  busMaster : Bool := false
  msixEn : Bool := false
  msixMask : Bool := false
  msix : Tbl Word := []
  pba : NSet := []
  /-- BAR2 is 16 GiB · 2^bar2 -/
  bar2 : Nat := 0
  /-- maximum payload size, 128 · 2^mps bytes (function 0) -/
  mps : Nat := 0
  /-- VF Enable (function 0) -/
  vfEn : Bool := false
  /-- AER (R380, R387): status of an Unsupported Request, a Completer Abort and a poisoned TLP sent; mask and severity; correctable status and
  mask; the bit of the first error, plus 1; and 1 + the counter of fresh values when it came, for the header log -/
  aerUr : Bool := false
  aerCa : Bool := false
  aerEp : Bool := false
  aerMask : Nat := 0
  aerSev : Nat := 0x462030
  aerCor : Nat := 0
  aerCorMask : Nat := 0xE000
  aerFirst : Nat := 0
  aerHdr : Nat := 0
  /-- the function is in D3hot (R380) -/
  d3 : Bool := false
  /-- count mirror (R412): sample instants since EN was set, and the last one -/
  mirSeq : Nat := 0
  mirLast : Nat := 0
  deriving DecidableEq, Repr

/-! ### The fabric -/

/-- A fabric packet with its KIND (R432). -/
structure FabMsg where
  kind : Nat
  x : FabPacket
  deriving DecidableEq, Repr

/-- What waits behind what came before it: a host read or write of a function at a BAR offset, behind an earlier write of the function (R386), or
a fabric answer at a port, for a link of its path in TEST or RETRAIN (R474). -/
inductive Parked where
  | read (f bar off n : Nat)
  | write (f bar off : Nat) (data : List Byte)
  | answer (port : Nat) (x : FabMsg)
  deriving DecidableEq, Repr

/-- What an access from outside is (R384, R386, R441): a host read or write of a function at a BAR offset, at local addresses from a on (`free`
where the partition's map is not asked); or a fabric request at a port, under its window's partition and fare. -/
inductive TxKind where
  | read (f bar off a : Nat) (free : Bool)
  | write (f bar off a : Nat) (free : Bool) (data : List Byte)
  | fabric (port : Nat) (x : FabMsg) (part fare : Nat)
  deriving DecidableEq, Repr

/-- A packet of such an access: it has not been injected, is on its way, or is answered, with its status, data and poison tags. -/
inductive PieceSt where
  | waits
  | out
  | done (status : Nat) (data : List Byte) (poison : List Bool)
  deriving DecidableEq, Repr

/-- A packet of an access: its address, bytes and state. -/
structure TxPiece where
  addr : Nat
  size : Nat
  st : PieceSt := .waits
  deriving DecidableEq, Repr

/-- An access from outside in progress: the number of its first packet, and its packets in order. -/
structure Tx where
  id : Nat
  kind : TxKind
  pieces : List TxPiece
  deriving DecidableEq, Repr

/-- A DATA frame in the replay buffer (R428, R430): its SEQ, channel pair and payload, the packet that it goes on with, if any, and the packets
that begin in it. -/
structure SentFrame where
  seq : Nat
  pair : Nat
  payload : List Byte
  carry : Option FabMsg
  starts : List FabMsg
  deriving DecidableEq, Repr

/-- What a link's receiver holds of a channel pair (R429, R430): units that the packet under way still lacks, whether it is discarded, and the
units not yet taken of each frame held. -/
structure RxPair where
  need : Nat := 0
  skip : Bool := false
  frames : List Nat := []
  deriving DecidableEq, Repr

/-- The layer of a fabric link, or of the companion port's (R425 to R431, R448, R483): the next SEQ to send, the oldest unacknowledged one, the next one expected and the one last told
by ACK, whether a frame was discarded since the last accepted one; by channel pair the credits spent, the credits to return, the units sent
of the first waiting packet, and the receive buffer; the replay buffer, the packets assigned and not wholly sent, and the neighbour it has
heard with the number of consecutive HELLOs. -/
structure Link where
  next : Nat := 0
  base : Nat := 0
  rxNext : Nat := 0
  told : Nat := 0
  rej : Bool := false
  spent : Tbl Nat := []
  back : Tbl Nat := []
  sent : Tbl Nat := []
  rx : Tbl RxPair := []
  replay : List SentFrame := []
  queue : List FabMsg := []
  heard : Option (Nat × Nat) := none
  heardN : Nat := 0
  /-- of the companion port's link, consecutive replays, up to 8 (R483); those of a fabric link stand in TWL_STS -/
  run : Nat := 0
  deriving DecidableEq, Repr

/-- What a port has heard (R448, R449, R455): its neighbour's Datum state, master, hops and readiness; distances through the port,
plus 1, by group or 256 + member; the exchange under way (SEQ and T1), the next SEQ, and consecutive kept samples. -/
structure Port where
  dstate : Nat := 0
  master : Nat := 65535
  mhops : Nat := 0
  ready : Bool := false
  dist : Tbl Nat := []
  dreq : Option (Nat × Nat) := none
  seq : Nat := 0
  kept : Nat := 0
  deriving DecidableEq, Repr

/-- What an outstanding fabric request of this module is for (R233, R239): a payload or COPY write, the read of a slot header, the
write of the header. -/
inductive FabRole where
  | payload | header | seal
  deriving DecidableEq, Repr

/-- An outstanding fabric request: requester, tag, role, whether the relay sent it, and whether a reset of its core came after it: its answer
is discarded (R513). -/
structure FabReq where
  src : Nat
  tag : Nat
  role : FabRole
  relay : Bool
  stale : Bool := false
  deriving DecidableEq, Repr

/-- Datum discipline (R458): consecutive kept samples within 2 ns, consecutive ones beyond 64 ns, and whether the source's first
sample has been taken; the correction of its rate in parts per million, the millionths of a count that it has gathered, and the counts that
the correction of the last sample has still to add or remove. -/
structure Dat where
  near : Nat := 0
  far : Nat := 0
  first : Bool := true
  rate : Int := 0
  part : Int := 0
  todo : Int := 0
  deriving DecidableEq, Repr

/-! ### What the part was made with, the floor plan, the Ledger -/

/-- What the fuse map holds (R40, R304, R480, R497, R582): the variant, whether the part is companion-fitted, REVISION by die, factory
codes by core, and the blown bits of the security thermometer. -/
structure Fuses where
  variant : Nat := 0
  comp : Bool := false
  revs : Tbl Nat := []
  codes : Tbl Nat := []
  floor : Nat := 0
  deriving DecidableEq, Repr

/-- The floor-plan record beside its codes (R498, R499): GENERATION, DATUM, WARM, and whether it has been published since module reset. -/
structure Flp where
  gen : Nat := 0
  datum : Nat := 0
  warm : Bool := false
  valid : Bool := false
  deriving DecidableEq, Repr

/-- A Ledger record (R589). `ok` is whether it is valid (R591): one whose write was interrupted or failed is not. -/
structure LedRec where
  type : Nat
  key : Nat
  seq : Nat
  payload : List Byte
  ok : Bool := true
  deriving DecidableEq, Repr

/-- The Ledger (R589 to R593): its banks, oldest record first; the current one; a compaction under way and the records that were in the
current bank when it began; the last sequence number; and the records issued that are not yet valid, as type and payload. -/
structure Ledger where
  a : List LedRec := []
  b : List LedRec := []
  bankB : Bool := false
  compacting : Bool := false
  mark : Nat := 0
  seq : Nat := 0
  queue : List (Nat × List Byte) := []
  deriving DecidableEq, Repr

/-! ### Arrival and departure queues -/

/-- A word of a queue (R396): its 64 bytes, its poison tag, and the end mark of a packet's last word. -/
structure QWord where
  data : List Byte
  poison : Bool
  last : Bool
  deriving DecidableEq, Repr

/-- An arrival queue (R399 to R403): its words, oldest first; the position of the oldest in the queue's memory; the staged words by
index with the marks SIZE and OVERRUN; and in compatibility mode the words appended since the last end mark and whether the next
end-marked word carries the poison tag. -/
structure ArQueue where
  words : List QWord := []
  head : Nat := 0
  staged : Tbl (List Byte) := []
  size : Bool := false
  overrun : Bool := false
  run : Nat := 0
  taint : Bool := false
  deriving DecidableEq, Repr

/-- A departure queue: its words, oldest first, and the position of the oldest in the queue's memory. -/
structure DpQueue where
  words : List QWord := []
  head : Nat := 0
  deriving DecidableEq, Repr

/-! ### Bring-up and reset -/

/-- A command of a reset block in progress (R511, R519, R601): OP, the word written, the core, the cluster of the die or the partition it
names; its phase: 0 held, 1 draining, 2 drained, 3 testing, 4 waiting for resets that it joined or that absorbed it; the positions that
it drives; and the resets it waits for. -/
structure RstRun where
  op : Nat
  bits : Nat
  unit : Nat
  phase : Nat
  cores : List Nat := []
  waits : List Nat := []
  deriving DecidableEq, Repr

/-- Bring-up (R501 to R505, R585): the fast path and its step; findings of the local machines by position (1 router, 2 core, 4 slice) and
the far devices that failed; TRAIN attempts by die-to-die link; the boot's exchange, 0 not run, 1 under way, 2 done; why a staged image
was rejected in this boot, as OUTCOME; the SEC_VERSION that the floor may rise to at AWAIT_PLAT. -/
structure Boot where
  fast : Bool := false
  step : Nat := 0
  bist : Tbl Nat := []
  farFail : NSet := []
  attempts : Tbl Nat := []
  exch : Nat := 0
  rejected : Nat := 0
  raise : Nat := 0
  deriving DecidableEq, Repr

/-- The retained store (R504): whether it holds a floor plan whose check passes, its codes and its GENERATION. -/
structure PlanStore where
  valid : Bool := false
  codes : Tbl Nat := []
  gen : Nat := 0
  deriving DecidableEq, Repr

/-! ### Housekeeping -/

/-- What the housekeeping stations and the hub carry from round to round beside their registers (R526 to R547). -/
structure Hsk where
  /-- raw readings by station · 128 + channel, newest first, at most 65 -/
  hist : Tbl (List Nat) := []
  /-- by pair (its sensor A): consecutive rounds that differ by more than 6 °C, and by 6 °C or less -/
  apart : Tbl Nat := []
  close : Tbl Nat := []
  /-- by unit (die · 32 + spot, 18 + layer or 26 + far device): consecutive rounds below the throttle point by more than 3 °C -/
  cool : Tbl Nat := []
  /-- by layer and far device: consecutive rounds at least 3 °C below its refresh band -/
  band : Tbl Nat := []
  /-- P_in by round in 0.1 mW, newest first, at most 16 -/
  pin : List Nat := []
  /-- outlet minus inlet by round in 0.125 °C, newest first, at most 16 -/
  rise : List Int := []
  /-- consecutive rounds: P_avg below 0.95 P_LIM; above P_LIM at G = 12; Q below 70 %, at or above 75 %; inlet out of range -/
  powLow : Nat := 0
  powHigh : Nat := 0
  flowLow : Nat := 0
  flowHigh : Nat := 0
  inlet : Nat := 0
  /-- far devices capped at level 8 (R536) -/
  capped : Bool := false
  /-- hot spots raised by the rise hold, latest first, and consecutive rounds below RISE_MAX − 1 °C (R539) -/
  raised : List Nat := []
  holdCool : Nat := 0
  /-- consecutive rounds of the companion die at its trip temperature (R540) -/
  comp : Nat := 0
  /-- 1 + reference reading by die, offset by 2^15 (R547) -/
  ref : Tbl Nat := []
  deriving DecidableEq, Repr

/-! ### Service -/

/-- The update journal (R583, R590): STATE, DIRECTION, PHASE, BLOCK, BYTES, FW_VERSION, LENGTH, DIGEST, and the blocks of the exchange. -/
structure Journal where
  state : Nat := 0
  dir : Nat := 0
  phase : Nat := 0
  block : Nat := 0
  bytes : Nat := 0
  ver : Nat := 0
  len : Nat := 0
  digest : List Byte := []
  blocks : Nat := 0
  deriving DecidableEq, Repr

/-- Lifetime counters (R590), hours as nanoseconds. -/
structure Life where
  onNs : Nat := 0
  cold : Nat := 0
  warm : Nat := 0
  trips : Nat := 0
  exc : Nat := 0
  updates : Nat := 0
  rollbacks : Nat := 0
  deriving DecidableEq, Repr

/-- An attestation report being built (R598): from the host path or not, its instance, destination, and its first 384 bytes. -/
structure AttRun where
  host : Bool
  inst : Nat
  dst : Nat
  body : List Byte
  deriving DecidableEq, Repr

/-- The service side (R543, R575 to R599): the endpoint identifier, the seating interlock, the last holdup energy read in 0.1 J, the
time of a trip, its thermal record until it is written, the report being built and the last complete one, the OWNER_LOCK value whose record
is not yet valid, and whether the owner lock is in effect. -/
structure Svc where
  eid : Nat := 0
  open' : Bool := false
  holdup : Option Nat := none
  trip : Option Nat := none
  record : Option (List Byte) := none
  att : Option AttRun := none
  report : Option (List Byte) := none
  lock : Option Bool := none
  locked : Bool := false
  deriving DecidableEq, Repr


/-! ### What leaves the module -/

/-- A message that leaves the module, or a completion that a requester of the module receives. -/
inductive Out where
  /-- a request completed at its requester: requester, tag, status, data -/
  | complete (src tag status : Nat) (data : List Byte)
  /-- a multicast write completed at its requester (R346) -/
  | completeMulti (src tag status : Nat)
  /-- an MSI-X message of a function's vector (R394) -/
  | msix (fn vector : Nat)
  /-- a frame sent on a fabric link, or as port 8 on the companion's, whose fifth chunk holds the link word: its link word and its payload (R425,
  R483) -/
  | frame (port link : Nat) (w : BitVec 56) (payload : List Byte)
  /-- a completion to the host: function, 0 Successful Completion, 1 Unsupported Request, 2 Completer Abort, 3 Request Retry Status,
  data, and whether EP is set (R387, R501) -/
  | cpl (fn code : Nat) (data : List Byte) (ep : Bool)
  /-- a posted write of a function to host memory (R383): function, host address, data -/
  | hostWrite (fn addr : Nat) (data : List Byte)
  /-- the test data output (R489, R490): what the 40-bit instruction register of the chain captured, then its data registers, bit 0 first out -/
  | tdo (capture dr : Nat)
  /-- a service response (R576): COMMAND, INSTANCE, STATUS, payload -/
  | service (cmd inst status : Nat) (payload : List Byte)
  /-- an in-band interrupt of the service port: a response is ready (R575) -/
  | ibi (mdb : Byte)
  /-- an I3C or MCTP control response: the command, its completion code, its data -/
  | control (cmd code : Nat) (data : List Byte)
  deriving DecidableEq, Repr

/-- Everything the module holds beside its queue of commands. -/
structure Module where
  /-- the register store -/
  regs : Tbl Word := []
  /-- scratch, near and far memory by byte key -/
  mem : Tbl Byte := []
  /-- words stored or marked as poisoned, by word key -/
  poison : NSet := []
  /-- wrong bits of a scratch unit of 8 bytes and its code, by byte key ÷ 8 (R142) -/
  scrErr : Tbl Nat := []
  /-- times of the latest 16 double-bit errors of a core's scratch, newest first, by core (R142, R516) -/
  ueAt : Tbl (List Nat) := []
  /-- wrong symbols of the stored words of slices and far devices, by word key · 72 + symbol (R294) -/
  wordErr : Tbl Nat := []
  /-- wrong symbols of the check words, by page key · 72 + symbol, and what a check word's 64 bytes, as last computed, hold beside the code
  of the page as written, by page key · 64 + byte (R297, R299) -/
  ckErr : Tbl Nat := []
  ckOff : Tbl Nat := []
  /-- 1 + the counter of fresh values when a module reset took the contents of a die's slices (R278), by die -/
  nearLost : Tbl Nat := []
  cores : Tbl Core := []
  slices : Tbl Slice := []
  fars : Tbl FarDev := []
  slow : Tbl (List SlowPath) := []
  /-- requests that found the slow-path queue full, by queue (R300) -/
  slowBack : Tbl (List HeldReq) := []
  /-- requests to units whose clock is lost (R32) -/
  clkHeld : List HeldReq := []
  /-- words for which a slow path has run, by the unit that waits for it: a requester number, 4,096 more for a matrix array, 8,192 + c for the
  bank operation of slice c; with each word the 64 bytes that the path delivered and whether they are poisoned (R301) -/
  ran : Tbl (List Ran) := []
  /-- 1 + Datum at which a unit's access first had to wait, by the same key: its deadline is of then (R367) -/
  tried : Tbl Nat := []
  /-- requests that the companion has to answer, oldest first, and the packets of engines among them with the number of the next (R487) -/
  compOut : List HeldReq := []
  compEng : List CompReq := []
  compTag : Nat := 0
  /-- accesses from outside in progress, oldest first, and the number of the next packet -/
  tx : List Tx := []
  txNext : Nat := 0
  /-- what waits at the hub or at a fabric port behind what came before, oldest first -/
  parked : List Parked := []
  scrubs : Tbl (Option Scrub) := []
  repairs : Tbl (Option Repair) := []
  net : Net := {}
  /-- flits that have left each router, by router · 4 + virtual channel (NOC_FLIT_CNT, R353) -/
  flits : Tbl Nat := []
  ctl : Tbl CtlSt := []
  qos : Qos := {}
  /-- the plat in force -/
  plat : Plat := {}
  /-- a module-scope plat has loaded with OK since module reset (R43) -/
  platLoaded : Bool := false
  load : Option LoadRun := none
  /-- floor-plan codes by core number (R497); unlisted is GOOD -/
  codes : Tbl Nat := []
  /-- positions whose core reset, with its drain, is in progress (R341) -/
  resetting : NSet := []
  obs : Obs := {}
  links : Tbl Link := []
  ports : Tbl Port := []
  /-- transit packets that wait for the ingress port's regulator, oldest first, with their egress port, by port · 4 + virtual channel (R444) -/
  transit : Tbl (List (Nat × FabMsg)) := []
  /-- fabric requests of this module that are outstanding (R435) -/
  fabOut : List FabReq := []
  /-- tag of the next fabric request -/
  fabTag : Nat := 0
  dat : Dat := {}
  /-- the survey check has passed since the last module-scope load (R451, R507) -/
  surveyOk : Bool := false
  /-- every die had 132 good cores when the floor plan was built and when the last module-scope load ended (R507) -/
  met : Bool := false
  /-- every die had 132 good cores when the floor plan was built -/
  metBuilt : Bool := false
  /-- Ostler runs a valid active image (R507) -/
  fwOk : Bool := false
  /-- domains without lock (R32): die · 4 + 0 A, 1 N, 2 M; 32 + far device F; 64 + port L; 80 P; 81 S; 88 + die D; 96 U; 104 + station K -/
  lockLost : NSet := []
  /-- lanes marked bad (R471, R472), a mask by station · 80 + group -/
  lanes : Tbl Nat := []
  /-- the group under test of a die-to-die link in TEST: 1 + station · 80 + group -/
  d2dTest : Tbl Nat := []
  /-- instruction register and data register of each die's test access port (R489, R490); IDCODE is selected at first -/
  tapIr : Tbl Nat := []
  tapDr : Tbl Nat := []
  fuses : Fuses := {}
  flp : Flp := {}
  ledger : Ledger := {}
  /-- spare rows used since manufacture, by bank: core · 64 + bank, or 65,536 + far device (R304) -/
  spares : Tbl Nat := []
  /-- of those, the ones whose fuse could not be programmed, which revert at the next cold bring-up -/
  sparesTemp : Tbl Nat := []
  /-- Datum-independent time at which the last bring-up began -/
  bringAt : Nat := 0
  /-- commands of the reset blocks: by core, 576 + die for a cluster command, 580 for a partition command -/
  rst : Tbl (Option RstRun) := []
  /-- parts that passed a self-test since the position's last fault: 1 core, 2 slice (R517) -/
  passed : Tbl Nat := []
  boot : Boot := {}
  ret : PlanStore := {}
  hsk : Hsk := {}
  /-- the SPI NOR (R580) beside its Ledger banks, by offset; erased bytes read 0xFF -/
  nor : Tbl Byte := []
  jr : Journal := {}
  life : Life := {}
  svc : Svc := {}
  /-- DIGEST of the last module-scope plat loaded with OK, and under 1 + p of the last partition-scope plat since then (R596) -/
  platDigests : Tbl (List Byte) := []
  fns : Tbl Fn := []
  arqs : Tbl ArQueue := []
  dpqs : Tbl DpQueue := []
  /-- cores in QTAKEW by arrival queue, in QPUTW by 64 + departure queue, in the order in which they came (R406, R407); one that no longer waits
  there is passed over -/
  line : Tbl (List Nat) := []
  /-- words of a queue's memory whose parity fails when they are read (R396): queue · 1,024 + position, 65,536 more for a departure queue -/
  badParity : NSet := []
  /-- live core counters (R553), by core · 64 + n -/
  counters : Tbl DWord := []
  /-- increments of them that a freeze or sample still to come may leave out (R555): the counter's key, the stamp, the amount -/
  incs : List (Nat × Nat × Nat) := []
  /-- the freeze instant while the freeze line is asserted, and each counter's increments stamped from then on (R556) -/
  frz : Option Nat := none
  /-- Datum has stepped back since the freeze line was asserted -/
  frzBack : Bool := false
  after : Tbl DWord := []
  /-- Datum of the hub and of each logic die (R454), by die number -/
  datum : Tbl Nat := []
  /-- nanoseconds of module clock -/
  now : Nat := 0
  /-- the counter that fresh free values are applied to -/
  freeCtr : Nat := 0
  /-- what has left the module, newest first -/
  outbox : List Out := []
  deriving DecidableEq, Repr

/-- The state: the module and the commands waiting, first in first out. -/
structure State where
  m : Module := {}
  pending : List Instr := []
  deriving DecidableEq, Repr

/-- The module right after reset: every register at its reset value, every memory and queue empty, no command waiting. -/
def State.reset : State := {}

/-- The outcome of a step. -/
abbrev Res := Host.Outcome State Fault Refusal

end Sys2Proof.Machine
end

