-- ==== Sys2Proof/Machine/Ops.lean ====
section
/-! DEFINITION. The named operations over registers, units, partitions and what leaves the module; and taking a core fault, as one
shared operation. -/

namespace Sys2Proof.Machine

/-! ### Registers -/

/-- The word of a register. -/
def Module.word (m : Module) (r : Reg) (u : Nat) (i : Nat := 0) : Word :=
  Tbl.get 0 m.regs (RegId.key ⟨r, u, i⟩) ^^^ r.resetWord i

/-- Replaces the word of a register. -/
def Module.setWord (m : Module) (r : Reg) (u i : Nat) (w : Word) : Module :=
  { m with regs := Tbl.set 0 m.regs (RegId.key ⟨r, u, i⟩) (w ^^^ r.resetWord i) }

/-- The value of a register field. -/
def Module.rd (m : Module) (f : RegField) (u : Nat) (i : Nat := 0) : Nat :=
  (m.word f.reg u i).toNat / 2 ^ f.lo % 2 ^ f.width

/-- A word with a field replaced. -/
def RegField.put (f : RegField) (w : Word) (v : Nat) : Word :=
  let mask : Word := BitVec.ofNat 32 ((2 ^ f.width - 1) <<< f.lo)
  (w &&& ~~~mask) ||| (BitVec.ofNat 32 ((v % 2 ^ f.width) <<< f.lo))

/-- Writes a register field, whatever its access type: the hardware's own update. -/
def Module.wr (m : Module) (f : RegField) (u : Nat) (v : Nat) (i : Nat := 0) : Module :=
  m.setWord f.reg u i (f.put (m.word f.reg u i) v)

/-- Adds to a counter field that saturates. -/
def Module.bumpBy (m : Module) (f : RegField) (u : Nat) (n : Nat) (i : Nat := 0) : Module :=
  m.wr f u (min (2 ^ f.width - 1) (m.rd f u i + n)) i

/-- Adds 1 to a counter field that saturates. -/
def Module.bump (m : Module) (f : RegField) (u : Nat) (i : Nat := 0) : Module := m.bumpBy f u 1 i

/-- Sets bits of a field (a flag register's sticky OR). -/
def Module.orBits (m : Module) (f : RegField) (u : Nat) (v : Nat) (i : Nat := 0) : Module :=
  m.wr f u (m.rd f u i ||| v) i

/-! ### Positions (R9, R23, R27) -/

/-- The die of a core. -/
def coreDie (n : Nat) : Nat := n / 144
/-- The row of a core on its die. -/
def coreRow (n : Nat) : Nat := n % 144 / 12
/-- The column of a core on its die. -/
def coreCol (n : Nat) : Nat := n % 12
/-- The cluster of a core (R9). -/
def coreCluster (n : Nat) : Nat := coreDie n * 36 + coreRow n / 2 * 6 + coreCol n / 2
/-- The core's place in its cluster (R260). -/
def corePlace (n : Nat) : Nat := coreRow n % 2 * 2 + coreCol n % 2
/-- The core at a place of a cluster. -/
def clusterCore (c p : Nat) : Nat := c / 36 * 144 + (c % 36 / 6 * 2 + p / 2) * 12 + (c % 6 * 2 + p % 2)
/-- Mesh column of a core's router (R23). -/
def meshX (n : Nat) : Nat := coreCol n + 12 * (coreDie n / 2)
/-- Mesh row of a core's router (R23). -/
def meshY (n : Nat) : Nat := coreRow n + 12 * (coreDie n % 2)
/-- The core whose router has mesh coordinates x, y (R23). -/
def coreAt (x y : Nat) : Nat := (x / 12 * 2 + y / 12) * 144 + y % 12 * 12 + x % 12
/-- The core whose router holds far device j (R27). -/
def farRouter (j : Nat) : Nat :=
  j / 5 * 144 + (match j % 5 with | 0 => 12 + 1 | 1 => 12 + 6 | 2 => 12 + 10 | 3 => 120 + 3 | _ => 120 + 8)
/-- The core whose router holds port Pn (R27). -/
def portRouter (n : Nat) : Nat := n / 2 * 144 + (if n % 2 = 0 then 4 * 12 + 4 else 7 * 12 + 7)

/-! ### Units -/

/-- A core's state. -/
def Module.core (m : Module) (c : Nat) : Core := Tbl.get {} m.cores c
/-- Replaces a core's state. -/
def Module.setCore (m : Module) (c : Nat) (k : Core) : Module := { m with cores := Tbl.set {} m.cores c k }
/-- A slice's state. -/
def Module.slice (m : Module) (c : Nat) : Slice := Tbl.get {} m.slices c
/-- Replaces a slice's state. -/
def Module.setSlice (m : Module) (c : Nat) (s : Slice) : Module := { m with slices := Tbl.set {} m.slices c s }
/-- A far device's controller. -/
def Module.far (m : Module) (j : Nat) : FarDev := Tbl.get {} m.fars j
/-- Replaces a far device's controller. -/
def Module.setFar (m : Module) (j : Nat) (d : FarDev) : Module := { m with fars := Tbl.set {} m.fars j d }
/-- A control station: a core's, or Ostler's under 576. -/
def Module.station (m : Module) (c : Nat) : CtlSt := Tbl.get {} m.ctl c
/-- Replaces a control station. -/
def Module.setStation (m : Module) (c : Nat) (s : CtlSt) : Module := { m with ctl := Tbl.set {} m.ctl c s }
/-- A Fieldbook store. -/
def Module.store (m : Module) (d : Nat) : Store := Tbl.get {} m.obs.stores d
/-- Replaces a Fieldbook store. -/
def Module.setStore (m : Module) (d : Nat) (s : Store) : Module :=
  { m with obs := { m.obs with stores := Tbl.set {} m.obs.stores d s } }
/-- A function of the endpoint. -/
def Module.fn (m : Module) (f : Nat) : Fn := Tbl.get {} m.fns f
/-- Replaces a function of the endpoint. -/
def Module.setFn (m : Module) (f : Nat) (x : Fn) : Module := { m with fns := Tbl.set {} m.fns f x }
/-- The Datum of a die (R454), 64 bits. -/
def Module.datumOf (m : Module) (d : Nat) : Nat := Tbl.get 0 m.datum d % 2 ^ 64
/-- The module is TRIPPED (R544): a trip took its power, and it has not been restarted. -/
def Module.tripped (m : Module) : Bool := m.svc.trip.isSome && m.rd F.BRG_MOD_STS_STAGE 4 == 0
/-- What the service port sends. -/
def Out.service' : Out → Bool
  | .service .. | .ibi _ | .control .. => true
  | _ => false
/-- Appends to what has left the module. Of a tripped module only the service port answers, and no completion is sent (R544). -/
def Module.emit (m : Module) (o : Out) : Module :=
  { m with outbox := if m.tripped && !o.service' then m.outbox else o :: m.outbox }
/-- A scalar register; G0 reads 0 (R129). -/
def Core.getG (k : Core) (r : Nat) : DWord := if r = 0 then 0 else Tbl.get 0 k.g r
/-- Writes a scalar register; a write to G0 is discarded (R129). -/
def Core.setG (k : Core) (r : Nat) (v : DWord) : Core := if r = 0 then k else { k with g := Tbl.set 0 k.g r v }
/-- An event counter (R136). -/
def Module.evc (m : Module) (c e : Nat) : Word := m.word .SEQ_EVC c e
/-- Adds 1 to an event counter, which wraps (R136). -/
def Module.tickEvc (m : Module) (c e : Nat) : Module := m.setWord .SEQ_EVC c e (m.evc c e + 1)
/-- A Datum instant is earlier than another (R18, R555): Datum is a count that never wraps in practice (R454), compared as it stands. -/
def before (a b : Nat) : Bool := decide (a < b)

/-- Adds to a live core counter, which wraps (R553); the increment is stamped with the Datum of the core's die (R555). While the freeze line is
asserted the visible value holds (R556): the increment is counted underneath, whatever its stamp (DESIGN CHOICE, log entry 106). -/
def Module.count (m : Module) (c n k : Nat) : Module :=
  let t := m.datumOf (coreDie c)
  let add (x : Tbl DWord) : Tbl DWord := Tbl.set 0 x (c * 64 + n) (Tbl.get 0 x (c * 64 + n) + BitVec.ofNat 64 k)
  { m with
    counters := add m.counters
    incs := (c * 64 + n, t, k) :: m.incs
    after := if m.frz.isSome then add m.after else m.after }

/-! ### The Fieldbook's input (R563 to R565) -/

/-- Kinds of SOURCE (R563). -/
inductive SrcKind where
  | core | slice | far | port | d2d | hsk | hub | queue | fn
  deriving DecidableEq, Repr

/-- The code of a source kind (R563). -/
def SrcKind.code : SrcKind → Nat
  | .core => 0 | .slice => 1 | .far => 2 | .port => 3 | .d2d => 4 | .hsk => 5 | .hub => 6 | .queue => 7 | .fn => 8

/-- Whether the stamps of a die are unaligned: the module's Datum state is FREE, ACQUIRE or HOLDOVER, or a logic die does not
track the hub (R84, R32, R561). -/
def Module.unaligned (m : Module) (d : Nat) : Bool :=
  let st := m.rd F.DAT_STS_STATE 4
  (st != 2 && st != 4) || (d != 4 && m.rd F.DAT_DSTS_TRACK d == 0)

/-- Offers a record to a die's store: it enters the input queue, or is lost where the queue holds 64 (R565). -/
def Module.record (m : Module) (die type : Nat) (k : SrcKind) (unit a0 a1 a2 : Nat) : Module :=
  let s := m.store die
  let t := m.datumOf die
  let r : FbRec := ⟨t, type, if m.unaligned die then 1 else 0, k.code * 4096 + unit % 4096, a0 % 2 ^ 32, a1 % 2 ^ 64, a2 % 2 ^ 64⟩
  if s.inq.length < 64 then m.setStore die { s with inq := s.inq ++ [r] }
  else
    (m.bump F.FBK_LOST_VALUE die).setStore die
      { s with gap := some (match s.gap with
          | none => ⟨1, t, t⟩
          | some g => ⟨min (2 ^ 32 - 1) (g.count + 1), g.first, t⟩) }

/-! ### Host events (R394, R395) -/

/-- The vector control word of a table entry masks it. -/
def Fn.vecMasked (f : Fn) (v : Nat) : Bool := (Tbl.get 0 f.msix (v * 4 + 3) ^^^ 1).toNat % 2 == 1

/-- A function sends writes: Bus Master Enable is set (R383), and it is not in D3hot (R380; PRESUMED, log entry 99). -/
def Fn.sends (f : Fn) : Bool := f.busMaster && !f.d3

/-- A function that there is: the physical one, and the virtual ones while VF Enable is set (R380; PRESUMED of SR-IOV, log entry 35). -/
def Module.fnOn (m : Module) (f : Nat) : Bool := f == 0 || (m.fn 0).vfEn

/-- A function of the module sends writes. -/
def Module.fnSends (m : Module) (f : Nat) : Bool := m.fnOn f && (m.fn f).sends

/-- A vector of a function fires (R394): the message is sent, or its pending bit set while it is masked or the function may not
send (R383). -/
def Module.fireMsix (m : Module) (f v : Nat) : Module :=
  let x := m.fn f
  if !x.msixEn then m
  else if x.msixMask || x.vecMasked v || !m.fnSends f then m.setFn f { x with pba := NSet.insert x.pba v }
  else m.emit (.msix f v)

/-- Sets an event bit of a function; a vector fires as the bit passes from 0 to 1 (R394). -/
def Module.event (m : Module) (f e : Nat) : Module :=
  if Nat.testBit (m.rd F.PCE_EVSTS_EVENTS f) e then m
  else (m.orBits F.PCE_EVSTS_EVENTS f (2 ^ e)).fireMsix f e

/-! ### Partitions -/

/-- The partition in force that holds a core (R47); none for an unassigned cluster (R49). -/
def Module.partOf (m : Module) (c : Nat) : Option PartEntry :=
  m.plat.parts.find? fun p => Nat.testBit p.clusters (coreCluster c)

/-- A partition in force by number. -/
def Module.part (m : Module) (p : Nat) : Option PartEntry := m.plat.parts.find? fun e => e.num == p

/-- The partition that a virtual function serves (R382). -/
def Module.partOfFn (m : Module) (f : Nat) : Option PartEntry := m.plat.parts.find? fun e => e.fn == f

/-- The program entry of a core in force. -/
def Module.prog (m : Module) (c : Nat) : Option ProgEntry := m.plat.progs.find? fun e => e.core == c

/-- SEQ_CFG of a core (R128, R165): of its PROGRAM entry in force; 0 where it has none. -/
def Module.seqCfg (m : Module) (c : Nat) : Nat := match m.prog c with | some p => p.cfg.toNat | none => 0

/-- The first address from a on that no range of a list holds. -/
def reachOf : Nat → List MemRange → Nat → Nat
  | 0, _, a => a
  | fuel + 1, l, a =>
    match l.find? fun r => decide (r.base ≤ a) && decide (a < r.base + r.len) with
    | some r => reachOf fuel l (r.base + r.len)
    | none => a

/-- The rights that a partition has on every byte of a span, each the union of its ranges there (R55). -/
def Module.rights (m : Module) (p a n : Nat) : Nat :=
  let mine := m.plat.memmap.filter fun r => r.part == p
  [1, 2, 4, 8].foldl (fun acc bit =>
    let l := mine.filter fun r => r.rights &&& bit != 0
    if a + max n 1 ≤ reachOf (l.length + 1) l a then acc + bit else acc) 0

/-- Rights of R55. -/
def Right.read : Nat := 1
def Right.write : Nat := 2
def Right.atomic : Nat := 4
def Right.bank : Nat := 8

/-- Partition states (PLT_PART_STS.STATE). -/
def PSt.absent : Nat := 0
def PSt.loading : Nat := 1
def PSt.running : Nat := 2
def PSt.stopping : Nat := 3
def PSt.stopped : Nat := 4
def PSt.failed : Nat := 5

/-- The state of a partition. -/
def Module.partState (m : Module) (p : Nat) : Nat := m.rd F.PLT_PART_STS_STATE 4 p

/-- The positions of a partition entry. -/
def PartEntry.positions (e : PartEntry) : List Nat := (List.range 576).filter fun c => Nat.testBit e.clusters (coreCluster c)

/-- The positions of a partition in force. -/
def Module.partCores (m : Module) (p : Nat) : List Nat :=
  match m.part p with | some e => e.positions | none => []

/-- A position lies in a partition that a load or a STOP holds in STOPPING or LOADING from step 4 on: by the plat in force, or by the one
that the load brings (R77, R78). -/
def Module.loadAbsorbs (m : Module) (c : Nat) : Bool :=
  match m.load with
  | none => false
  | some l => decide (l.step ≥ 4) && (m.plat.parts ++ l.plat.parts).any fun e =>
      Nat.testBit e.clusters (coreCluster c) && (m.partState e.num == PSt.loading || m.partState e.num == PSt.stopping)

/-- A load or a STOP drains a position now (R342, R353): its step 4, in which the partition that holds the position is STOPPING. -/
def Module.loadDrains (m : Module) (c : Nat) : Bool :=
  match m.load with
  | none => false
  | some l => l.step == 4 && m.plat.parts.any fun e =>
      Nat.testBit e.clusters (coreCluster c) && m.partState e.num == PSt.stopping

/-- A position answers RESETTING: its core reset, with its drain, is in progress (R341), or a load or a STOP targets it (R77). -/
def Module.absorbs (m : Module) (c : Nat) : Bool := m.resetting.contains c || m.loadAbsorbs c

/-- State of a position's floor-plan code (R497). -/
def Module.code (m : Module) (c : Nat) : Nat := Tbl.get 0 m.codes c
/-- GOOD. -/
def Module.good (m : Module) (c : Nat) : Bool := m.code c % 4 == 0
/-- LODGER. -/
def Module.lodger (m : Module) (c : Nat) : Bool := m.code c % 4 == 2
/-- DEAD. -/
def Module.dead (m : Module) (c : Nat) : Bool := m.code c % 4 == 3
/-- The slice is refreshed and reachable (R253, R254). -/
def Module.sliceLive (m : Module) (c : Nat) : Bool := m.good c || m.lodger c
/-- Whether a core is a listed sibling of a lodger slice (R36, R500). -/
def Module.sibling (m : Module) (c lodger : Nat) : Bool :=
  m.lodger lodger && coreCluster c == coreCluster lodger && m.good c
/-- A far device is lost, isolated, or its attachment router is dead (R302, R303, R27). -/
def Module.farLost (m : Module) (j : Nat) : Bool :=
  (m.far j).lost || m.rd F.FMC_CTL_ISOLATE j == 1 || m.dead (farRouter j)

/-- A partition's default rounding is stochastic in a training partition (R50). -/
def Module.defaultStochastic (m : Module) (c : Nat) : Bool :=
  match m.partOf c with
  | some p => p.kind == 1
  | none => false

/-! ### Requester numbers (R28) -/

def reqOstler : Nat := 0xA00
def reqCompanion : Nat := 0x900
def reqHost : Nat := 0x800

/-! ### Control messages (R349, R350) -/

/-- The station number of a requester: a core's own, 576 for Ostler. -/
def stationOf (r : Nat) : Option Nat := if r < 576 then some r else if r = reqOstler then some 576 else none

/-- A message enters its sender's transmit queue; a fault notice that finds it full waits behind it. -/
def Module.pushCtl (m : Module) (c : Nat) (x : CtlMsg) : Module :=
  let s := m.station c
  let m := if c < 576 then m.bump F.CTL_SENT_CNT_COUNT c else m
  if s.tx.length < 4 then m.setStation c { s with tx := s.tx ++ [x] } else m.setStation c { s with late := s.late ++ [x] }

/-! ### Taking a core fault (R139, R140, R352) -/

/-- The number of a core state (SEQ_STS.STATE). -/
def CoreSt.num : CoreSt → Nat
  | .held => 0 | .running => 1 | .waiting => 2 | .halted => 3 | .faulted => 4

/-- A core changes state; the change is offered to the Fieldbook (R564 CORE_STATE). -/
def Module.setCoreSt (m : Module) (c : Nat) (st : CoreSt) (fault : Nat := 0) : Module :=
  let k := m.core c
  (m.setCore c { k with st := st }).record (coreDie c) 4 .core c (st.num + k.st.num * 256 + fault * 65536) k.lastPc.toNat 0

/-- The fault notice of R140 with the word of R352. -/
def faultNotice (c : Nat) (pc : DWord) (fault : Nat) : CtlMsg :=
  ⟨c, reqOstler, true, none, BitVec.ofNat 32 (pc.toNat / 8 % 2 ^ 18 + fault % 256 * 2 ^ 18 + 1 * 2 ^ 26)⟩

/-- A fault code of R139. -/
def Flt.opInvalid : Nat := 1
def Flt.fetchRange : Nat := 2
def Flt.memRange : Nat := 3
def Flt.poison : Nat := 4
def Flt.waitTimeout : Nat := 5
def Flt.descRejected : Nat := 6
def Flt.clockLoss : Nat := 7

/-- Taking a core fault (R139): a RUNNING or WAITING core records code, engine and engine status in SEQ_FAULT, becomes FAULTED with
the faulting PC in SEQ_PC, and sends the fault notice to Ostler (R140). In any other state the core stays as it is (R125). -/
def Module.coreFault (m : Module) (c fault engine sts : Nat) (pc : DWord) : Module :=
  let k := m.core c
  if k.st ≠ .running ∧ k.st ≠ .waiting then m
  else
    let m := ((m.wr F.SEQ_FAULT_CODE c fault).wr F.SEQ_FAULT_ENGINE c engine).wr F.SEQ_FAULT_ENGINE_STS c sts
    let m := (m.wr F.SEQ_STS_ISSUE_STALL c 0).setCore c { k with lastPc := pc, wait := none, halting := false }
    (m.setCoreSt c .faulted fault).pushCtl c (faultNotice c pc fault)

/-! ### Ending a command -/

/-- A command that completed: the module after it, the queue untouched. -/
def State.done (s : State) (m : Module) : Res := .next { s with m := m }

end Sys2Proof.Machine
end

