-- ==== Sys2Proof/Machine/Memory.lean ====
section
/-! DEFINITION. Memory: its bytes and codes (R142, R253, R294 to R299), the slice caches (R244, R247), where local addresses lie (R33, R34,
R287, R288), the paths to them (R331 to R337), and what reads and writes at a place do. -/

namespace Sys2Proof.Machine

/-! ### Keys -/

/-- Byte key of a scratch offset of a core (tile registers included, R33). -/
def scrKey (c o : Nat) : Nat := c * 4194304 + o
/-- Byte key of a slice offset. -/
def nearKey (c o : Nat) : Nat := 1099511627776 + c * 2147483648 + o
/-- Byte key of a far-device offset. -/
def farKey (j o : Nat) : Nat := 1125899906842624 + j * 549755813888 + o

/-- A word key in scratch. -/
def isScrWord (w : Nat) : Bool := decide (w < 17179869184)
/-- A word key in a slice. -/
def isNearWord (w : Nat) : Bool := decide (17179869184 ≤ w) && decide (w < 17592186044416)
/-- The core of a scratch or slice word, or the device of a far word. -/
def wordUnit (w : Nat) : Nat :=
  if isScrWord w then w / 65536
  else if isNearWord w then (w - 17179869184) / 33554432
  else (w - 17592186044416) / 8589934592
/-- The slice page of a slice word (R245), or the device page of a far word. -/
def wordPage (w : Nat) : Nat :=
  if isNearWord w then (w - 17179869184) % 33554432 / 64 else (w - 17592186044416) % 8589934592 / 64
/-- The die whose store records a memory word's errors. -/
def wordDie (w : Nat) : Nat := if isScrWord w || isNearWord w then coreDie (wordUnit w) else wordUnit w / 5

/-- The word keys that a span of bytes touches. -/
def wordsOf (k n : Nat) : List Nat := if n = 0 then [] else (List.range ((k + n - 1) / 64 - k / 64 + 1)).map fun i => k / 64 + i

/-- Whether a span touches a word. -/
def touchesWord (k n w : Nat) : Bool := decide (w * 64 < k + n) && decide (k < w * 64 + 64) && decide (0 < n)

/-- Whether a span covers a word whole. -/
def coversWord (k n w : Nat) : Bool := decide (k ≤ w * 64) && decide (w * 64 + 64 ≤ k + n)

/-! ### Bytes -/

/-- What a byte reads as that nothing has written: 0, or a free value in a slice whose contents a fence or a module reset took and nothing
has cleared since (R253, R278). -/
def Module.base (m : Module) (k : Nat) : Byte :=
  if isNearWord (k / 64) then
    match (m.slice (wordUnit (k / 64))).fill with
    | some (some e) => Config.freeByte (e + k % 2147483648)
    | some none => 0
    | none =>
      let e := Tbl.get 0 m.nearLost (coreDie (wordUnit (k / 64)))
      if e = 0 then 0 else Config.freeByte (e - 1 + (k - nearKey 0 0))
  else 0

/-- One byte of memory: what `mem` holds beside the byte's base. -/
def Module.byte (m : Module) (k : Nat) : Byte := Tbl.get 0 m.mem k ^^^ m.base k

/-- `n` bytes of memory from key k. -/
def Module.bytes (m : Module) (k n : Nat) : List Byte := (List.range n).map fun i => m.byte (k + i)

/-- A little-endian number from bytes. -/
def leNat : List Byte → Nat
  | [] => 0
  | b :: t => b.toNat + 256 * leNat t

/-- The `n` little-endian bytes of a number. -/
def leBytes : Nat → Nat → List Byte
  | 0, _ => []
  | n + 1, v => BitVec.ofNat 8 v :: leBytes n (v / 256)

/-- A little-endian number in memory. -/
def Module.num (m : Module) (k n : Nat) : Nat := leNat (m.bytes k n)

/-- A memory table with bytes written from key k on, over the bases of their keys. -/
def memPut (base : Nat → Byte) (t : Tbl Byte) : Nat → List Byte → Tbl Byte
  | _, [] => t
  | k, b :: l => memPut base (Tbl.set 0 t k (b ^^^ base k)) (k + 1) l

/-- What a write does to the poison of the words it touches (R296, R330): a whole word takes the write's tag, a part of a word is
marked by a tagged write and left by an untagged one. -/
def poisonAfter (p : NSet) (k n : Nat) (tag : Nat → Bool) : NSet :=
  (wordsOf k n).foldl (fun s w => if tag w then NSet.insert s w else if coversWord k n w then NSet.erase s w else s) p

/-- Bits set among the low n of a number. -/
def bitCount (n x : Nat) : Nat := ((List.range n).filter fun i => Nat.testBit x i).length

/-- What a write from byte key k on leaves of the wrong bits of scratch (R142): a unit of 8 bytes written whole is good, and so is one
written in part whose old value the code corrects. -/
def scrAfter (t : Tbl Nat) (k n : Nat) : Tbl Nat :=
  t.filter fun (u, x) =>
    !((decide (k ≤ u * 8) && decide (u * 8 + 8 ≤ k + n)) ||
      (decide (u * 8 < k + n) && decide (k < u * 8 + 8) && decide (bitCount 72 x ≤ 1)))

/-- Memory as every reader sees it, with bytes written and their poison (R296, R330). -/
def Module.storeView (m : Module) (k : Nat) (l : List Byte) (tag : Nat → Bool) : Module :=
  { m with
    mem := memPut m.base m.mem k l
    poison := poisonAfter m.poison k l.length tag }

/-- Words of slices and far devices are stored with good light codes. -/
def Module.freshCodes (m : Module) (p : Nat → Bool) : Module := { m with wordErr := m.wordErr.filter fun (x, _) => !p (x / 72) }

/-- Writes bytes where they are stored, with a poison tag per word. -/
def Module.storeTag (m : Module) (k : Nat) (l : List Byte) (tag : Nat → Bool) : Module :=
  let m' := (m.storeView k l tag).freshCodes (touchesWord k l.length)
  { m' with scrErr := scrAfter m'.scrErr k l.length }

/-- Writes bytes without the poison tag. -/
def Module.put (m : Module) (k : Nat) (l : List Byte) : Module := m.storeTag k l fun _ => false

/-- Memory with a range of keys cleared: nothing written there, every word and check word good. -/
def Module.clearKeys (m : Module) (lo hi : Nat) : Module :=
  let out (size k : Nat) : Bool := decide (k < lo / size) || decide (hi / size ≤ k)
  { m with
    mem := m.mem.filter fun (k, _) => out 1 k
    poison := m.poison.filter (out 64)
    scrErr := m.scrErr.filter fun (k, _) => out 8 k
    wordErr := m.wordErr.filter fun (k, _) => out 64 (k / 72)
    ckErr := m.ckErr.filter fun (k, _) => out 4096 (k / 72)
    ckOff := m.ckOff.filter fun (k, _) => out 4096 (k / 64) }

/-! ### Far-memory regions (R287 to R289) -/

/-- Device and device offset of an address of a region (R288, R289). -/
def Region.place (r : Region) (a : Nat) : Nat × Nat :=
  let p := (a - r.base) / 4096
  let b := a % 4096
  if r.mode = 0 then (p % 20, r.base / 20 + p / 20 * 4096 + b)
  else if r.mode = 1 then (5 * r.stack + p % 5, (r.base - r.stack * r.len) / 20 + p / 5 * 4096 + b)
  else (r.dev, (r.base - r.dev * r.len) / 20 + p * 4096 + b)

/-- The implicit region before the first module-scope plat (R287). -/
def implicitRegion : Region := ⟨0, 0, 0, 0, 255, 0, 0x0780_0000_0000⟩

/-- The regions that place far memory (R287). -/
def Module.regionsNow (m : Module) : List Region := if m.platLoaded then m.plat.regions else [implicitRegion]

/-- The local address of a region that lies at an offset of a device, if one does (R288, R289). -/
def Region.unplace (r : Region) (j o : Nat) : Option Nat :=
  let a := if r.mode = 0 then r.base + ((o / 4096 * 4096 - r.base / 20) / 4096 * 20 + j) * 4096 + o % 4096
    else if r.mode = 1 then r.base + ((o / 4096 * 4096 - (r.base - r.stack * r.len) / 20) / 4096 * 5 + j % 5) * 4096 + o % 4096
    else r.base + (o - (r.base - r.dev * r.len) / 20)
  if r.base ≤ a ∧ a < r.base + r.len ∧ r.place a = (j, o) then some a else none

/-- The local address of an offset of a far device by the regions in force; where none holds it, as the implicit region has it (DESIGN CHOICE, log
entry 109). -/
def Module.farAddr (m : Module) (j o : Nat) : Nat :=
  (m.regionsNow.findSome? fun r => r.unplace j o).getD ((implicitRegion.unplace j o).getD 0)

/-! ### Lines of slice caches (R244, R247) -/

/-- The set of a slice word: 512 sets of 16 ways hold 512 KiB. Which words share a set the spec leaves open (DESIGN CHOICE, log entry 85). -/
def lineSet (w : Nat) : Nat := w % 512

/-- The line in a way of a set. -/
def Slice.line (s : Slice) (set way : Nat) : Option Line := Tbl.get none s.cache (set * 16 + way)

/-- The way that holds a word. -/
def Slice.wayOf (s : Slice) (w : Nat) : Option Nat :=
  (List.range 16).find? fun i => match s.line (lineSet w) i with | some l => l.word == w | none => false

/-- The line of a word. -/
def Slice.lineOf (s : Slice) (w : Nat) : Option Line := (s.wayOf w).bind (s.line (lineSet w))

/-- A bank's copy of a word is older than its line. -/
def Slice.dirty (s : Slice) (w : Nat) : Bool := match s.lineOf w with | some l => l.dirty | none => false

/-! ### Codes -/

/-- The entries of a table under one key of a coarser table, by their place in it. -/
def patOf (t : Tbl Nat) (size k : Nat) : Pat := (t.filter fun x => x.1 / size == k).map fun x => (x.1 % size, x.2)

/-- How a stored word's codes read: 0 good, 1 corrected by the light code (R295) or the scratch code (R142), 2 beyond them. -/
def Module.wordClass (m : Module) (w : Nat) : Nat :=
  if isScrWord w then (patOf m.scrErr 8 w).foldl (fun a x => max a (min 2 (bitCount 72 x.2))) 0
  else lightClass (patOf m.wordErr 72 w)

/-- A page of a slice is pending (R256). -/
def Module.pagePending (m : Module) (c page : Nat) : Bool := (m.slice c).pending.contains page

/-- A slice word lies in a pending page. -/
def Module.wordPending (m : Module) (w : Nat) : Bool := isNearWord w && m.pagePending (wordUnit w) (wordPage w)

/-- How the check word of a page reads: 0 good, 1 corrected, 2 its light code fails. -/
def Module.checkClass (m : Module) (page : Nat) : Nat := lightClass (patOf m.ckErr 72 page)

/-- What the light code leaves wrong in the data of a page (R299 step 1), by byte of the page: the words that it fails are taken as read. -/
def Module.pagePat (m : Module) (page : Nat) : Pat :=
  ((m.wordErr.filter fun x => x.1 / 72 / 64 == page && decide (x.1 % 72 < 64)).map fun x =>
    (x.1 / 72 % 64 * 64 + x.1 % 72, x.2)).filter fun x => m.wordClass (page * 64 + x.1 / 64) == 2

/-- What is wrong in the 64 bytes of a page's check word after the light code (R299 step 1), beside the code of the page as written. -/
def Module.checkPat (m : Module) (page : Nat) : Pat :=
  let off := patOf m.ckOff 64 page
  if m.checkClass page = 2 then ((patOf m.ckErr 72 page).filter fun x => decide (x.1 < 64)).foldl (fun p x => p.flip x.1 x.2) off else off

/-- The slow path delivers a word repaired (R299): every codeword of its page decodes, the check word passes its light code, and the
repaired word passes its own. -/
def Module.slowOk (m : Module) (w : Nat) : Bool :=
  let page := w / 64
  m.checkClass page != 2 &&
    match pageDecode (m.pagePat page) (m.checkPat page) with
    | none => false
    | some rest =>
      lightClass (((rest.filter fun x => x.1 / 64 == w % 64).map fun x => (x.1 % 64, x.2)) ++
        ((patOf m.wordErr 72 w).filter fun x => decide (64 ≤ x.1))) != 2

/-- A word that its memory delivers poisoned: POISON is set, or its codes cannot repair it (R142, R258, R296, R299). -/
def Module.wordBad (m : Module) (w : Nat) : Bool :=
  m.poison.contains w || (m.wordClass w == 2 && (isScrWord w || m.wordPending w || !m.slowOk w))

/-- A read of a word's memory that must wait for a slow path (R258, R300). -/
def Module.needsSlow (m : Module) (w : Nat) : Bool := !isScrWord w && m.wordClass w == 2 && !m.wordPending w

/-- The SOURCE kind and local-address argument of a word's MEMERR record (R564). -/
def Module.memErr (m : Module) (w kind : Nat) : Module :=
  m.record (wordDie w) 0x10 (if isScrWord w then .core else if isNearWord w then .slice else .far) (wordUnit w) kind
    (if isScrWord w then 0x2000_0000_0000 + w * 64
     else if isNearWord w then 0x1000_0000_0000 + (w - 17179869184) * 64 else m.farAddr (wordUnit w) ((w - 17592186044416) % 8589934592 * 64)) 0

/-- Counts a word of a slice or far device delivered poisoned, for any reason (R258, R282, R311). -/
def Module.notePoison (m : Module) (w : Nat) : Module :=
  (if isNearWord w then m.bump F.SLC_POISON_COUNT (wordUnit w) else m.bump F.FMC_POISON_COUNT (wordUnit w)).memErr w 2

/-- Counts a word that the light code corrected. -/
def Module.noteLight (m : Module) (w : Nat) : Module :=
  (if isNearWord w then m.bump F.SLC_CE_COUNT (wordUnit w) else m.bump F.FMC_CE_COUNT (wordUnit w)).memErr w 0

/-- Counts a slow path run for a word, and its repair (R258, R311, R312). -/
def Module.noteSlow (m : Module) (w : Nat) : Module :=
  let m := if isNearWord w then m.bump F.ECC_SLOW_COUNT (wordDie w) else m
  if m.slowOk w then
    (if isNearWord w then m.bump F.SLC_SLOWFIX_COUNT (wordUnit w) else m.bump F.FMC_SLOWFIX_COUNT (wordUnit w)).memErr w 1
  else m

/-- SEQ_SCR_UE of a core counts n double-bit errors, and their times are kept for R516. -/
def Module.noteUe (m : Module) (c n : Nat) : Module :=
  { m.bumpBy F.SEQ_SCR_UE_COUNT c n with ueAt := Tbl.upd [] m.ueAt c fun l => (List.replicate n m.now ++ l).take 16 }

/-- Units of 8 bytes of a scratch line with a single-bit error, and with more (R142). A line is read whole (R143). -/
def Module.scrUnits (m : Module) (w : Nat) : Nat × Nat :=
  let ns := (patOf m.scrErr 8 w).map fun x => bitCount 72 x.2
  ((ns.filter (· == 1)).length, (ns.filter fun n => decide (2 ≤ n)).length)

/-- Counts one read of a word of memory as its codes decide (R142, R258, R295, R296); `ran` marks one whose slow path has been counted. -/
def Module.noteWord (m : Module) (w : Nat) (ran : Bool := false) : Module :=
  let e := m.wordClass w
  if isScrWord w then
    if e = 0 then m
    else
      let (ce, ue) := m.scrUnits w
      (m.bumpBy F.SEQ_SCR_CE_COUNT (wordUnit w) ce).noteUe (wordUnit w) ue
  else
    let bad := m.wordBad w
    let m1 := if e = 1 then m.noteLight w
      else if e = 2 then (if m.wordPending w then m.bump F.SLC_PEND_POISON_COUNT (wordUnit w) else if ran then m else m.noteSlow w)
      else m
    if bad then m1.notePoison w else m1

/-- Reads a span of memory past the caches: the bytes, the words delivered poisoned, and the module after its counters took note of the
codes; `ran` are the words whose slow path has been counted. -/
def Module.load' (m : Module) (k n : Nat) (ran : List Nat := []) : Module × List Byte × List Nat :=
  let ws := wordsOf k n
  (ws.foldl (fun (m : Module) w => m.noteWord w (ran.contains w)) m, m.bytes k n, ws.filter m.wordBad)

/-- Words of a page that the slow path cannot repair, beside the word keys that a write covers. -/
def Module.lostWords (m : Module) (page : Nat) (but : List Nat) : List Nat :=
  ((List.range 64).map fun i => page * 64 + i).filter fun w => !but.contains w && m.needsSlow w && !m.slowOk w

/-- The bank's copy of a slice word is older than a line of its slice's cache. -/
def Module.lineDirty (m : Module) (w : Nat) : Bool := isNearWord w && (m.slice (wordUnit w)).dirty w

/-- Stores words with POISON set: their codes are good and they read as poisoned, but where a dirty line of a slice cache stands before the
bank's copy, which its readers see. -/
def Module.setPoison (m : Module) (ws : List Nat) : Module :=
  { m with
    poison := (ws.filter fun w => !m.lineDirty w).foldl NSet.insert m.poison
    wordErr := m.wordErr.filter fun (x, _) => !ws.contains (x / 72) }

/-- The check word of a page is recomputed and written (R256, R298, R306), from its words as the light code leaves them and, of those that the
slow path has repaired (`fixed`), as repaired. -/
def Module.recheck (m : Module) (page : Nat) (fixed : List Nat := []) : Module :=
  let off := strongCheck ((m.pagePat page).filter fun x => !fixed.contains (page * 64 + x.1 / 64))
  { m with
    ckErr := m.ckErr.filter fun (x, _) => x / 72 != page
    ckOff := off.foldl (fun t x => Tbl.set 0 t (page * 64 + x.1) x.2) (m.ckOff.filter fun (x, _) => x / 64 != page) }

/-- A write to the memory of a page reads the old words for the check word's update (R298); a page that is pending has none (R257). Where an
old word needs a slow path, every other word that it cannot repair is rewritten with POISON set and the check word recomputed, and a
word written in part that cannot be repaired is marked (DEDUCED, log entry 84). Else a check word that its light code corrects is
rewritten good. `seen` marks old words that the same operation has read and counted (R286). -/
def Module.oldWords (m : Module) (k n : Nat) (ran : List Nat) (seen : Bool := false) : Module :=
  let ws := (wordsOf k n).filter fun w => !m.wordPending w
  let m1 := ws.foldl (fun (m : Module) w =>
    let e := m.wordClass w
    if e = 1 then (if seen then m else m.noteLight w) else if e = 2 && !ran.contains w then m.noteSlow w else m) m
  match ws.find? m.needsSlow with
  | some w => (m1.setPoison (m.lostWords (w / 64) ws ++ ws.filter fun w => !coversWord k n w && m.needsSlow w && !m.slowOk w))
  | none => { m1 with ckErr := m1.ckErr.filter fun (x, _) => !(ws.any (fun w => w / 64 == x / 72) && m.checkClass (x / 72) == 1) }

/-- A write to `n` bytes of memory from key k on: the old words are read, `store` stores, and the check word of a page whose old words
needed a slow path is computed from the whole page (R298). -/
def Module.writeMem (m : Module) (k n : Nat) (store : Module → Module) (ran : List Nat) (seen : Bool := false) : Module :=
  let m' := store (m.oldWords k n ran seen)
  match (wordsOf k n).find? m.needsSlow with
  | some w => m'.recheck (w / 64) (((List.range 64).map fun i => w / 64 * 64 + i).filter fun x => m.needsSlow x && m.slowOk x)
  | none => m'

/-- A request that has no requester number on this module (R442): no position is its sibling or its own. -/
def reqFabric : Nat := 0xB00

/-! ### Placing local addresses (R33, R34, R287, R288) -/

/-- Where a local address lies. -/
inductive Site where
  | scratch (core off : Nat)
  | slice (core off : Nat)
  | far (dev off : Nat)
  | reg
  | companion (off : Nat)
  deriving DecidableEq, Repr

/-- Completion statuses (R340, with the fabric's of R436 where other chapters name them). -/
def St.ok : Nat := 0
def St.unmapped : Nat := 1
def St.unpopulated : Nat := 2
def St.fenced : Nat := 3
def St.absent : Nat := 4
def St.outOfMap : Nat := 5
def St.resetting : Nat := 6
def St.busyRange : Nat := 7
def St.deviceLost : Nat := 8
def St.linkDown : Nat := 9
def St.poisoned : Nat := 10
def St.unsupported : Nat := 11
def St.timeout : Nat := 12
def St.malformed : Nat := 13
def St.unreachable : Nat := 14

/-- The status of an access that must wait; no completion carries it. -/
def St.waits : Nat := 256

/-- The device location of a far address; none where no region covers it (R287). -/
def Module.placeFar (m : Module) (a : Nat) : Option (Nat × Nat) :=
  (m.regionsNow.find? fun r => decide (r.base ≤ a) && decide (a < r.base + r.len)).map fun r => r.place a

/-- The companion port is UP (R34, R485). -/
def Module.companionUp (m : Module) : Bool := m.rd F.UCP_STS_STATE 4 == 4

/-- Where a local address lies, or the status that R34 gives outside the populated parts. -/
def Module.site (m : Module) (a : Nat) : Except Nat Site :=
  if a < 0x0780_0000_0000 then
    match m.placeFar a with
    | some (j, o) => .ok (.far j o)
    | none => .error St.unmapped
  else if 0x1000_0000_0000 ≤ a ∧ a < 0x1120_0000_0000 then
    .ok (.slice ((a - 0x1000_0000_0000) / 0x8000_0000) (a % 0x8000_0000))
  else if 0x2000_0000_0000 ≤ a ∧ a < 0x2000_9000_0000 then
    .ok (.scratch ((a - 0x2000_0000_0000) / 0x40_0000) (a % 0x40_0000))
  else if 0x3000_0000_0000 ≤ a ∧ a < 0x3005_0000_0000 then .ok .reg
  else if 0x3800_0000_0000 ≤ a ∧ a < 0x3900_0000_0000 then
    if m.companionUp then .ok (.companion (a - 0x3800_0000_0000)) else .error St.absent
  else .error St.unmapped

/-- Scratch offsets that exist (R33). -/
def scrPopulated (o n : Nat) : Bool := decide (o + n ≤ 0x18_0000) || (decide (0x20_0000 ≤ o) && decide (o + n ≤ 0x21_8000))
/-- Slice offsets that exist (R33). -/
def slicePopulated (o n : Nat) : Bool := decide (o + n ≤ 0x5000_0000)

/-- The byte key of a site in memory. -/
def Site.key : Site → Option Nat
  | .scratch c o => some (scrKey c o)
  | .slice c o => some (nearKey c o)
  | .far j o => some (farKey j o)
  | _ => none

/-- The byte key of a local address in memory, whatever its position's state. -/
def Module.keyOf (m : Module) (a : Nat) : Option Nat :=
  match m.site a with
  | .ok s => s.key
  | .error _ => none

/-- The partition's map admits a request (R37, R57): the physical function, the companion (admitted by its windows) and Ostler
are not limited. -/
def Module.mapAllows (m : Module) (src a n right : Nat) : Bool :=
  if src < 576 then
    match m.partOf src with
    | some p => m.rights p.num a n &&& right == right
    | none => false
  else if 0x801 ≤ src ∧ src ≤ 0x808 then
    match m.partOfFn (src - 0x800) with
    | some p => m.rights p.num a n &&& right == right
    | none => false
  else true

/-- Pages of a range of a running bank operation: is slice byte o in it? -/
def inPages (first n o : Nat) : Bool := decide (first ≤ o / 4096) && decide (o / 4096 < first + n)

/-- The status that the router and the endpoint of a site give a request before it acts (R34, R36, R302, R303, R341). -/
def Module.siteStatus (m : Module) (src : Nat) (s : Site) (n : Nat) : Nat :=
  match s with
  | .scratch c o =>
    if src = c then (if scrPopulated o n then St.ok else St.unpopulated)
    else if !m.good c then St.fenced
    else if m.absorbs c || (m.partOf c).isNone then St.resetting
    else if scrPopulated o n then St.ok else St.unpopulated
  | .slice c o =>
    if m.good c || (m.lodger c && (m.sibling src c || (0x800 ≤ src && src ≤ 0x808) || src == reqOstler)) then
      (if slicePopulated o n then St.ok else St.unpopulated)
    else St.fenced
  | .far j _ => if m.farLost j then St.deviceLost else St.ok
  | _ => St.ok

/-! ### Paths and links (R331, R332, R335, R337, R467) -/

/-- A die-to-die link carries traffic while both its stations are FULL, NARROW, TEST or RETRAIN (R473): link 0 and 1 the vertical
links, 2 to 5 the hub links of dies 0 to 3 (R467). -/
def Module.d2dUp (m : Module) (link : Nat) : Bool :=
  let up (u : Nat) := let st := m.rd F.DTD_STS_STATE u; decide (2 ≤ st) && decide (st ≤ 5)
  match link with
  | 0 => up 0 && up 2
  | 1 => up 4 && up 6
  | n => up (2 * (n - 2) + 1) && up (8 + (n - 2))

/-- The stations at the two ends of a link (R467, R493). -/
def linkStations (l : Nat) : List Nat :=
  match l with | 0 => [0, 2] | 1 => [4, 6] | n => [2 * (n - 2) + 1, 8 + (n - 2)]

/-- A link is in TEST or RETRAIN, where it holds what comes to it (R474). -/
def Module.linkHolds (m : Module) (l : Nat) : Bool :=
  m.d2dUp l && (linkStations l).any fun u => decide (4 ≤ m.rd F.DTD_STS_STATE u)

/-- The hub in a path; a router is its core number. -/
def hubNode : Nat := 600

/-- Consecutive nodes of a path. -/
def steps (p : List Nat) : List (Nat × Nat) := p.zip (p.drop 1)

/-- The link that a step between two nodes of a path crosses, if any. -/
def stepLink (u v : Nat) : Option Nat :=
  if u = hubNode then some (2 + coreDie v)
  else if v = hubNode then some (2 + coreDie u)
  else if coreDie u = coreDie v then none else some (coreDie u / 2)

/-- The links that a path crosses (R467). -/
def pathCross (p : List Nat) : List Nat := (steps p).filterMap fun (u, v) => stepLink u v

/-- A path crosses a link. -/
def crosses (l : Nat) (p : List Nat) : Bool := (steps p).any fun (u, v) => stepLink u v == some l

/-- The part of a path before a link. -/
def beforeLink (l : Nat) : List Nat → List Nat
  | u :: v :: t => if stepLink u v = some l then [u] else u :: beforeLink l (v :: t)
  | p => p

/-- Domain N of a router's die, or of the hub, has lost lock: it is held in reset (R29, R32). -/
def Module.nodeHeld (m : Module) (n : Nat) : Bool := m.lockLost.contains (if n = hubNode then 17 else coreDie n * 4 + 1)

/-- A link of a path holds what comes to it now (R474), or a router or the hub on it is without its clock (R32). -/
def Module.pathTests (m : Module) (p : List Nat) : Bool := (pathCross p).any m.linkHolds || p.any m.nodeHeld

/-- The node from which a multicast packet came that is held at an input of router n (R345, R347); none for its own source's. -/
def Retained.from? (x : Retained) (n : Nat) : Option Nat :=
  match x.input with
  | 1 => some (coreAt (meshX n - 1) (meshY n))
  | 2 => some (coreAt (meshX n) (meshY n - 1))
  | _ => x.path.dropLast.getLast?

/-- A path's virtual channel is held at an input of one of its routers, by a multicast packet that a full retention buffer has stopped there
(R347). -/
def Module.pathHeld (m : Module) (p : List Nat) (vc : Nat) : Bool :=
  ((p.map some).zip (none :: p.map some)).any fun (n, u) =>
    (Tbl.get [] m.net.ret (n.getD hubNode)).any fun x => x.stalled && x.packet.vc.val == vc && x.from? (n.getD hubNode) == u

/-- A packet that would pass a path on a virtual channel waits (R347, R474). -/
def Module.pathWaits (m : Module) (p : List Nat) (vc : Nat) : Bool := m.pathTests p || m.pathHeld p vc

/-- The links that a step between two routers' dies crosses on one side of the package. -/
def segLinks (a b : Nat) : List Nat := if a = b then [] else [a / 2]

/-- The die of a router by its mesh coordinates (R23). -/
def dieAt (x y : Nat) : Nat := coreDie (coreAt x y)

/-- The links that a route record's legs cross, from a die on, to the destination die or the hub. -/
def legLinks : Nat → List Leg → Option Nat → List Nat
  | d, [], dst => match dst with | some e => segLinks d e | none => []
  | d, l :: t, dst =>
    let e := dieAt l.x l.y
    (match l.kind with
      | 1 => segLinks d e
      | 2 => segLinks d e ++ [2 + e]
      | 3 => [2 + e]
      | _ => []) ++ legLinks e t dst

/-- A router lies in a box. -/
def Box.has (b : Box) (n : Nat) : Bool :=
  decide (b.x0 ≤ meshX n) && decide (meshX n ≤ b.x1) && decide (b.y0 ≤ meshY n) && decide (meshY n ≤ b.y1)

/-- The first route record that a packet of a core takes to a destination router (none: the hub), of those whose COND is 0 or names
a link whose loss the sources now see (R335, R337). -/
def Module.routeRec (m : Module) (src : Nat) (dst : Option Nat) : Option RouteRec :=
  match m.partOf src, m.prog src with
  | some p, some _ => m.plat.routes.find? fun r =>
      r.part == p.num && r.src.has src && (match dst with | some d => r.dst.has d | none => r.dst.x0 == 31)
        && (r.cond == 0 || m.net.cond.contains (r.cond - 1))
  | _, _ => none

/-- The links of the default route between two routers (R331); none stands for the hub. -/
def defaultLinks (src dst : Option Nat) : List Nat :=
  match src, dst with
  | some a, some b =>
    let d := coreDie a
    let e := coreDie b
    if d = e then [] else if d / 2 = e / 2 then [d / 2] else [2 + d, 2 + e]
  | some a, none => [2 + coreDie a]
  | none, some b => [2 + coreDie b]
  | none, none => []

/-- The links that a request from a router (none: the hub) to another crosses. -/
def Module.pathLinks (m : Module) (src dst : Option Nat) : List Nat :=
  match src with
  | none => defaultLinks none dst
  | some c =>
    match m.routeRec c dst with
    | some r => legLinks (coreDie c) r.legs (dst.map coreDie)
    | none => defaultLinks src dst

/-- The hub has a station with a live path to a router: its die's hub link is up, and from some bridge station of the die the path of
R331 meets no dead router (R332, R478). -/
def Module.hubReaches (m : Module) (n : Nat) : Bool :=
  let d := coreDie n
  let xb := if d / 2 = 0 then 11 else 12
  let between (a b i : Nat) : Bool := decide (min a b ≤ i) && decide (i ≤ max a b)
  m.d2dUp (2 + d) && (List.range 12).any fun j =>
    let ys := 12 * (d % 2) + j
    (List.range 24).all (fun x => !between xb (meshX n) x || !m.dead (coreAt x ys)) &&
    (List.range 24).all fun y => !between ys (meshY n) y || !m.dead (coreAt (meshX n) y)

/-- The router of a site (R27, R316, R326); none for the hub. -/
def destRouter (a : Nat) (s : Site) : Option Nat :=
  match s with
  | .scratch c _ | .slice c _ => some c
  | .far j _ => some (farRouter j)
  | .companion _ => none
  | .reg =>
    let d := (a - 0x3000_0000_0000) / 0x1_0000_0000
    let o := a % 0x1_0000_0000
    if d = 4 then none else if o < 0x0900_0000 then some (144 * d + o / 0x10_0000) else some (144 * d + 5 * 12 + 5)

/-- DEST and SRC of a head flit (R325, R326): a router with an endpoint of it, or the hub. -/
def routerWord (n : Option Nat) (endpoint : Nat) : BitVec 16 :=
  match n with
  | some r => BitVec.ofNat 16 (meshX r + meshY r * 32 + endpoint * 1024)
  | none => BitVec.ofNat 16 (31 + 31 * 32 + endpoint * 1024)

/-- The status of a request whose path does not exist now: LINK-DOWN at its source, or UNREACHABLE from the hub (R332, R337). -/
def Module.pathStatus (m : Module) (src a : Nat) (s : Site) : Nat :=
  let dst := destRouter a s
  if src < 576 then
    if (m.pathLinks (some src) dst).all m.d2dUp then St.ok else St.linkDown
  else
    match dst with
    | none => St.ok
    | some n => if m.hubReaches n then St.ok else St.unreachable

/-- The first status that stops a request of `n` bytes at address a with a right, before the endpoint acts: the map (R37), the
address (R34), the path (R332, R337), the endpoint's position (R341); and where it goes. -/
def Module.gate (m : Module) (src a n right : Nat) : Except Nat Site :=
  if !m.mapAllows src a n right then .error St.outOfMap
  else
    match m.site a with
    | .error e => .error e
    | .ok s =>
      if m.pathStatus src a s ≠ St.ok then .error (m.pathStatus src a s)
      else if m.siteStatus src s n = St.ok then .ok s else .error (m.siteStatus src s n)

/-! ### Register-access errors (R14, R40, R41) -/

/-- An access to register space that is not an aligned 32-bit one: the die captures it where ERR is 0, else sets OVF. -/
def Module.raErr (m : Module) (src a size : Nat) (write : Bool) : Module :=
  let d := (a - 0x3000_0000_0000) / 0x1_0000_0000
  let m := m.bump F.BRG_RAERR_CNT_COUNT d
  if m.rd F.BRG_RAERR_STS_ERR d = 1 then m.wr F.BRG_RAERR_STS_OVF d 1
  else
    let m := (m.wr F.BRG_RAERR_STS_ERR d 1).wr F.BRG_RAERR_STS_KIND d (if size < 4 then 0 else if size > 4 then 1 else 2)
    let m := (m.wr F.BRG_RAERR_STS_WRITE d (if write then 1 else 0)).wr F.BRG_RAERR_STS_REQUESTER d src
    (m.wr F.BRG_RAERR_ADDR_LO_ADDR_LO d (a % 2 ^ 32)).wr F.BRG_RAERR_ADDR_HI_ADDR_HI d (a / 2 ^ 32)

/-! ### Fresh free values -/

/-- `n` free bytes, and the module with the counter advanced past them: what a unit outside the module answers. -/
def Module.freshBytes (m : Module) (n : Nat) : Module × List Byte :=
  ({ m with freeCtr := m.freeCtr + n }, (List.range n).map fun i => Config.freeByte (m.freeCtr + i))

/-- A free word. -/
def Module.freshWord (m : Module) : Module × Word := ({ m with freeCtr := m.freeCtr + 1 }, Config.freeWord m.freeCtr)

/-- Ranges of a slice's running bank operation that a write may not reach (R275): pages of A, B and D by operation (R261). -/
def bopRanges (d : Nat) : List (Nat × Nat) :=
  let n := bitsAt d 160 19
  let op := bitsAt d 0 4
  (if 1 ≤ op ∧ op ≤ 9 then [(bitsAt d 64 19, n)] else []) ++
  (if 2 ≤ op ∧ op ≤ 6 then [(bitsAt d 96 19, n)] else []) ++
  (if op = 9 then [] else [(bitsAt d 128 19, n)])

/-- The slice refuses writes and atomics to these bytes (R275). -/
def Module.protects (m : Module) (c o n : Nat) : Bool :=
  match (m.slice c).bop with
  | none => false
  | some b => (bopRanges b.desc.bits).any fun (first, k) =>
      n > 0 && decide (o < (first + k) * 4096) && decide (first * 4096 < o + n)

/-- A read of these bytes of a slice meets a page of range D whose page step has not ended, and waits (R274). -/
def Module.dWaits (m : Module) (c o n : Nat) : Bool :=
  match (m.slice c).bop with
  | none => false
  | some b =>
    let d := b.desc.bits
    let first := bitsAt d 128 19
    bitsAt d 0 4 != 9 && (List.range ((o + n - 1) / 4096 + 1 - o / 4096)).any fun k =>
      let p := o / 4096 + k
      decide (first ≤ p) && decide (p < first + bitsAt d 160 19) && decide (Tbl.get 0 b.done (p % 64) ≤ (p - first) / 64)

/-- Counts and captures a refusal BUSY-RANGE (R275, R282). -/
def Module.noteBusy (m : Module) (c o src : Nat) : Module :=
  let m := (m.bump F.SLC_BUSY_CNT_COUNT c).record (coreDie c) 0x10 .slice c 3 (0x1000_0000_0000 + c * 0x8000_0000 + o) 0
  if m.rd F.SLC_BUSY_CAP_VALID c = 1 then m.wr F.SLC_BUSY_CAP_OVF c 1
  else ((m.wr F.SLC_BUSY_CAP_VALID c 1).wr F.SLC_BUSY_CAP_REQUESTER c src).wr F.SLC_BUSY_ADDR_OFFSET c (o / 64)

/-! ### Slice caches (R244, R247) -/

/-- A set's replacement tree after an access to a way: the nodes on its path, heap-numbered from 1, point away from it. The tree is the
model's pseudo-least-recently-used rule (DESIGN CHOICE, log entry 85). -/
def plruTouch (bits way : Nat) : Nat :=
  [1, 2, 3, 4].foldl (fun b k =>
    let n := (16 + way) / 2 ^ k
    let cleared := if Nat.testBit b n then b - 2 ^ n else b
    if (16 + way) / 2 ^ (k - 1) % 2 = 0 then cleared + 2 ^ n else cleared) bits

/-- The way that a replacement tree gives up. -/
def plruVictim (bits : Nat) : Nat :=
  [0, 1, 2, 3].foldl (fun n _ => 2 * n + (if Nat.testBit bits n then 1 else 0)) 1 - 16

/-- The way that a new line takes: the first empty one, else the tree's. -/
def Slice.fillWay (s : Slice) (set : Nat) : Nat :=
  ((List.range 16).find? fun i => (s.line set i).isNone).getD (plruVictim (Tbl.get 0 s.plru set))

/-- Puts a line in a way and notes the access. -/
def Slice.setLine (s : Slice) (set way : Nat) (l : Line) : Slice :=
  { s with cache := Tbl.set none s.cache (set * 16 + way) (some l), plru := Tbl.upd 0 s.plru set (plruTouch · way) }

/-- Invalidates the lines that satisfy a condition. -/
def Slice.dropLines (s : Slice) (p : Line → Bool) : Slice :=
  { s with cache := s.cache.filter fun (_, l) => match l with | some l => !p l | none => true }

/-- The memory of a line's word takes its data (R247, R257); `ran` are words whose slow path has been counted. -/
def Module.writeBack (m : Module) (w : Nat) (ran : List Nat := []) : Module := m.writeMem (w * 64) 64 (·.freshCodes (· == w)) ran

/-- The word that makes room, written back, where a word comes into its slice's cache (R247): the dirty line of the way that it takes. -/
def Slice.victim (s : Slice) (w : Nat) : Option Nat :=
  match s.wayOf w with
  | some _ => none
  | none => (s.line (lineSet w) (s.fillWay (lineSet w))).bind fun o => if o.dirty then some o.word else none

/-- Puts a line in its word's way, or in a new one whose old line, where dirty, is written back. -/
def Module.install (m : Module) (l : Line) (ran : List Nat := []) : Module :=
  let c := wordUnit l.word
  let set := lineSet l.word
  let s := m.slice c
  match s.wayOf l.word with
  | some i => m.setSlice c (s.setLine set i l)
  | none =>
    let i := s.fillWay set
    let m := match s.victim l.word with
      | some o => m.writeBack o ran
      | none => m
    m.setSlice c ((m.slice c).setLine set i l)

/-- Reads a word through its slice's cache (R247): the module, and whether the word is delivered poisoned. A hit reads no code; a miss
reads the bank and allocates where `alloc` says so. -/
def Module.cacheRead (m : Module) (w : Nat) (ran : List Nat) (alloc : Bool) : Module × Bool :=
  match (m.slice (wordUnit w)).lineOf w with
  | some l =>
    let bad := l.bad || m.poison.contains w
    (if bad then (m.install l).notePoison w else m.install l, bad)
  | none =>
    let bad := m.wordBad w
    let m := m.noteWord w (ran.contains w)
    (if alloc then m.install ⟨w, false, bad⟩ ran else m, bad)

/-- Writes a word, or a part of one, into its slice's cache (R247): a whole word allocates its line, a part fetches it, and one fetched or
held unrepaired is marked (R296). -/
def Module.cacheWrite (m : Module) (w : Nat) (whole : Bool) (ran : List Nat) : Module :=
  match (m.slice (wordUnit w)).lineOf w with
  | some l =>
    let m := m.install ⟨w, true, false⟩
    if l.bad && !whole then { m with poison := NSet.insert m.poison w } else m
  | none =>
    if whole then m.install ⟨w, true, false⟩ ran
    else
      let bad := m.wordBad w
      let m := (m.noteWord w (ran.contains w)).install ⟨w, true, false⟩ ran
      if bad then { m with poison := NSet.insert m.poison w } else m

/-- Writes back and invalidates the line of a word, where its slice's cache holds one. -/
def Module.cleanWord (ran : List Nat) (m : Module) (w : Nat) : Module :=
  if !isNearWord w then m
  else
    let c := wordUnit w
    let m := if (m.slice c).dirty w then m.writeBack w ran else m
    m.setSlice c ((m.slice c).dropLines fun l => l.word == w)

/-! ### Reads and writes at a place -/

/-- How an access passes a slice's cache: through it, through it without allocating (the activation port, R247), or at the bank (a table
request, R246). -/
inductive Via where
  | cache | port | bank
  deriving DecidableEq, Repr

/-- Reads a span at byte key k of a place: the module, the bytes, and the words delivered poisoned; `ran` are the words whose slow path
has run for it. -/
def Module.readSite (m : Module) (s : Site) (k n : Nat) (ran : List Nat := []) (via : Via := .cache) : Module × List Byte × List Nat :=
  match s, via with
  | .slice _ _, .bank => ((wordsOf k n).foldl (Module.cleanWord ran) m).load' k n ran
  | .slice _ _, v =>
    let (m', bad) := (wordsOf k n).foldl (fun (acc : Module × List Nat) w =>
      let (m, b) := acc.1.cacheRead w ran (v == .cache)
      (m, if b then acc.2 ++ [w] else acc.2)) (m, [])
    (m', m.bytes k n, bad)
  | _, _ => m.load' k n ran

/-- Writes bytes at a place with a poison tag per word; a slice write passes through its cache (R246, R247). `seen` marks the write of an
atomic operation, which has read its old word. -/
def Module.writeSite (m : Module) (s : Site) (l : List Byte) (tag : Nat → Bool) (ran : List Nat := []) (via : Via := .cache)
    (seen : Bool := false) : Module :=
  match s, via with
  | .slice c o, .bank =>
    let k := nearKey c o
    ((wordsOf k l.length).foldl (Module.cleanWord ran) m).writeMem k l.length (·.storeTag k l tag) ran
  | .slice c o, _ =>
    let k := nearKey c o
    ((wordsOf k l.length).foldl (fun (m : Module) w => m.cacheWrite w (coversWord k l.length w) ran) m).storeView k l tag
  | .scratch c o, _ => m.storeTag (scrKey c o) l tag
  | .far j o, _ => m.writeMem (farKey j o) l.length (·.storeTag (farKey j o) l tag) ran seen
  | _, _ => m

/-- The words of an access at a place for which a slow path must run first, of those for which none has (R298, R300): what a read reads
from memory, the old words of a write there, and what a part of a line fetches into its cache. -/
def Module.slowWords (m : Module) (s : Site) (k n : Nat) (write : Bool) (ran : List Nat) (via : Via := .cache) : List Nat :=
  (wordsOf k n).filter fun w => !ran.contains w && m.needsSlow w &&
    (match s with
    | .slice c _ => via == .bank || (((m.slice c).lineOf w).isNone && !(write && coversWord k n w))
    | _ => true)

/-- An offset of the companion window beyond its populated part (R487). -/
def Module.companionStatus (m : Module) (o n : Nat) : Nat :=
  if o + n ≤ 2 ^ m.rd F.UCP_CAP_WINDOW_LOG2 4 then St.ok else St.unpopulated

/-- The status of a read with these poisoned words. -/
def readStatus (bad : List Nat) : Nat := if bad.isEmpty then St.ok else St.poisoned

/-- Counts an absorbed packet at its position (R341). -/
def Module.noteAbsorb (m : Module) (s : Site) (st : Nat) : Module :=
  match s with
  | .scratch c _ | .slice c _ => if st = St.fenced ∨ st = St.resetting then m.bump F.NOC_ABSORB_CNT_COUNT c else m
  | _ => m

/-- A request that `gate` stopped with a status: an absorbing router counts it (R341). -/
def Module.noteStop (m : Module) (a st : Nat) : Module :=
  match m.site a with
  | .ok s => m.noteAbsorb s st
  | .error _ => m

end Sys2Proof.Machine
end

