-- ==== Sys2Proof/Machine/Qos.lean ====
section
/-! DEFINITION. Fares and regulators (R356 to R370): whose fare a request carries, source buckets, budgets and deadlines at memory
targets, and the writes and recomputation of the hub's regulator registers that stand alone. -/

namespace Sys2Proof.Machine

/-! ### Plain register writes (R12, R16) -/

/-- A requester that writes privileged registers: the physical function or Ostler (R305, R379, R496, …). -/
def privileged (src : Nat) : Bool := src == reqHost || src == reqOstler

/-- What a 32-bit write does to one register by its fields' access types (R12). -/
def Reg.written (r : Reg) (old v : Word) : Word :=
  r.fields.foldl (fun w f =>
    let mask : Word := BitVec.ofNat 32 ((2 ^ f.width - 1) <<< f.lo)
    match f.acc with
    | .rw => (w &&& ~~~mask) ||| (v &&& mask)
    | .w1c => w &&& ~~~(v &&& mask)
    | .w1s => w ||| (v &&& mask)
    | .ro | .wo => w) old

/-- Writes a register by its access types alone. -/
def Module.writePlain (m : Module) (r : RegId) (v : Word) : Module :=
  m.setWord r.reg r.unit r.idx (r.reg.written (m.word r.reg r.unit r.idx) v)

/-- The value that a field of a written word holds. -/
def RegField.of (f : RegField) (v : Word) : Nat := bitsAt v.toNat f.lo f.width

/-! ### Fares -/

/-- The owner of a requester's fares (R356): a partition, or 16 for the module fare set. -/
def Module.fareOwner (m : Module) (src : Nat) : Nat :=
  match (if src < 576 then m.partOf src else if 0x801 ≤ src ∧ src ≤ 0x808 then m.partOfFn (src - 0x800) else none) with
  | some p => p.num
  | none => 16

/-- The number of a fare: owner · 256 + tag. -/
def fareKey (owner tag : Nat) : Nat := owner * 256 + tag % 256

/-- The KIND 1 entry of a fare, if any (R358): WEIGHT, FLAGS, RATE, BURST and DLOFF lie in `rest` from its byte 0 on. -/
def Module.fareEntry (m : Module) (owner tag : Nat) : Option FareEntry :=
  m.plat.fares.find? fun e => e.kind == 1 && e.part == owner && e.fare == tag
/-- WEIGHT. -/
def FareEntry.weight (e : FareEntry) : Nat := bitsAt e.rest 0 16
/-- RT. -/
def FareEntry.rt (e : FareEntry) : Bool := bitsAt e.rest 16 1 == 1
/-- RATE. -/
def FareEntry.rate (e : FareEntry) : Nat := bitsAt e.rest 32 16
/-- BURST. -/
def FareEntry.burst (e : FareEntry) : Nat := bitsAt e.rest 48 16
/-- DLOFF. -/
def FareEntry.dloff (e : FareEntry) : Nat := bitsAt e.rest 64 16
/-- QMASK of a KIND 2 entry (R359). -/
def FareEntry.qmask (e : FareEntry) : Nat := bitsAt e.rest 0 64
/-- CFANIN of a KIND 2 entry. -/
def FareEntry.cfanin (e : FareEntry) : Nat := bitsAt e.rest 64 8

/-- The MEMMAP FARE of the range of a partition that contains an address (R55, R84); 0 where none does. -/
def Module.rangeFare (m : Module) (part a : Nat) : Nat :=
  match m.plat.memmap.find? fun r => r.part == part && decide (r.base ≤ a) && decide (a < r.base + r.len) with
  | some r => r.fare
  | none => 0

/-- The virtual channel of a fare (R334): VC2 where its quarter has no record. -/
def Module.classOf (m : Module) (part fare : Nat) : Nat :=
  match m.plat.classMaps.find? fun r => r.part == part && r.quarter == fare / 64 with
  | some r => r.map / 4 ^ (fare % 64) % 4
  | none => 2

/-! ### Admission terms (R60 to R62) -/

/-- Devices and device offsets of a region's footprint (R289). -/
def Region.foot (r : Region) : List Nat × Nat × Nat :=
  if r.mode = 0 then (List.range 20, r.base / 20, r.len / 20)
  else if r.mode = 1 then ((List.range 5).map (5 * r.stack + ·), (r.base - r.stack * r.len) / 20, r.len / 5)
  else ([r.dev], (r.base - r.dev * r.len) / 20, r.len)

/-- TARGET of a guarantee. -/
def FareEntry.gTarget (e : FareEntry) : Nat := bitsAt e.rest 0 16
/-- MIN_BW of a guarantee. -/
def FareEntry.minBw (e : FareEntry) : Nat := bitsAt e.rest 32 32

/-- Width of a region. -/
def Region.width (r : Region) : Nat := if r.mode = 0 then 20 else if r.mode = 1 then 5 else 1

/-- Capacity of a device target (R61), in 100 MB/s. -/
def Module.capacity (m : Module) (t pattern : Nat) : Nat :=
  if t < 0x240 then (if pattern = 0 then 4700 else 4300)
  else if t < 0x254 then (if pattern = 0 then 5600 else 1900)
  else m.rd F.UCP_CAP_ADMIT 4

/-- ⌈a ÷ b⌉; 0 where b is 0, which R62 meets only at a companion whose ADMIT is 0 (DESIGN CHOICE, log entry 81). -/
def divUp (a b : Nat) : Nat := if b = 0 then 0 else (a + b - 1) / b

/-- The admission term of a guarantee at a device target (R62); 0 where it does not reach it. -/
def Module.term (m : Module) (pl : Plat) (e : FareEntry) (t : Nat) : Nat :=
  let g : Option Nat :=
    if e.gTarget ≥ 0x300 then
      match pl.regions.find? fun r => r.num == e.gTarget - 0x300 with
      | some r => if decide (0x240 ≤ t) && r.foot.1.contains (t - 0x240) then some (divUp e.minBw r.width) else none
      | none => none
    else if e.gTarget = t then some e.minBw else none
  match g with
  | some gd => divUp (gd * 65536) (m.capacity t e.pattern)
  | none => 0

/-! ### What a request carries (R356, R367) -/

/-- Fare source, or address source (R47 MODES). -/
def PartEntry.fareSource (e : PartEntry) : Bool := e.modes / 2 % 2 == 1

/-- The current fare tag of a core (R138). -/
def Module.fareNow (m : Module) (c : Nat) : Nat := m.rd F.SEQ_FARE_FARE c

/-- The index of a hub requester in the hub QOS block (R376). -/
def hubSrc (src : Nat) : Nat := if src = reqCompanion then 9 else if src = reqOstler then 10 else src - 0x800

/-- The deadline that a source interface stamps on a request now (R367), at a DLOFF. -/
def Module.stampDeadline (m : Module) (die dloff : Nat) : BitVec 16 := BitVec.ofNat 16 (m.datumOf die / 64 + dloff)

/-- What a source interface gives a request at its injection: its owner's fare tag, its virtual channel, its deadline. -/
structure Stamp where
  tag : Nat
  vc : Nat
  deadline : Option (BitVec 16)
  deriving DecidableEq, Repr

/-- The stamp of a request for address a (R138, R356, R334, R367): `tag` is the fare tag current when a core issued it, used under the fare
class source; a hub requester takes its QOS_HUBSRC_CFG. -/
def Module.stamp (m : Module) (src a tag : Nat) : Stamp :=
  if src < 576 then
    match m.partOf src with
    | some p =>
      let t := if p.fareSource then tag % 256 else m.rangeFare p.num a
      ⟨t, m.classOf p.num t, match m.fareEntry p.num t with
        | some e => if e.rt then some (m.stampDeadline (coreDie src) e.dloff) else none
        | none => none⟩
    | none => ⟨tag % 256, 2, none⟩
  else
    let r := hubSrc src
    ⟨m.rd F.QOS_HUBSRC_CFG_FARE 4 r, m.rd F.QOS_HUBSRC_CFG_VC 4 r,
      if m.rd F.QOS_HUBSRC_CFG_DL 4 r = 1 then some (m.stampDeadline 4 (m.rd F.QOS_HUBSRC_CFG_DLOFF 4 r)) else none⟩

/-! ### Service at memory targets (R364 to R370) -/

/-- The memory target of a site: 0 to 575 slices, 576 to 595 far devices, 596 the companion. -/
def Site.target : Site → Option Nat
  | .slice c _ => some c
  | .far j _ => some (576 + j)
  | .companion _ => some 596
  | _ => none

/-- The capacities of a target at 4× refresh (R61), streaming and random. -/
def Module.capacities (m : Module) (t : Nat) : Nat × Nat :=
  let d := if t < 596 then t else 0x260
  (m.capacity d 0, m.capacity d 1)

/-- The budget of a fare at a target in every window (R364), in units of 1 ns ÷ (16 · C streaming · C random): φ × 4,096 ns, where φ is the sum
of its guarantees' terms ÷ 65,536. -/
def Module.budget (m : Module) (t fare : Nat) : Nat :=
  let d := if t < 596 then t else 0x260
  let (cs, cr) := m.capacities t
  ((m.plat.fares.filter fun e => e.kind == 0 && fareKey e.part e.fare == fare).foldl (fun n e => n + m.term m.plat e d) 0) * cs * cr

/-- The charge of n bytes at a target (R364), in the same units: n ÷ C ns. -/
def Module.chargeOf (m : Module) (t n : Nat) (stream : Bool) : Nat :=
  let (cs, cr) := m.capacities t
  160 * n * (if stream then cr else cs)

/-- A request of a fare at an address is charged as streaming at a target: its address follows the last byte of the fare's last one. -/
def Module.streams (m : Module) (t fare a : Nat) : Bool := Tbl.get 0 m.qos.lastEnd (t * 4352 + fare) == a + 1

/-- A target charges n bytes of a fare at an address; `step` marks a bank operation's page step, charged as streaming (R270, R364). -/
def Module.charge (m : Module) (t fare a n : Nat) (step : Bool := false) : Module :=
  let k := t * 4352 + fare
  { m with qos := { m.qos with
      spent := Tbl.upd 0 m.qos.spent k (· + m.chargeOf t n (step || m.streams t fare a))
      lastEnd := if step then m.qos.lastEnd else Tbl.set 0 m.qos.lastEnd k (a + n + 1) } }

/-- A request that waits at a target: its fare, its deadline, its address and bytes. -/
structure Want where
  fare : Nat
  deadline : Option (BitVec 16)
  addr : Nat
  size : Nat
  deriving DecidableEq, Repr

/-- Within a fare, the request that a target serves (R366 step 3): of the dated ones the earliest deadline, else the oldest; equals in order of
arrival (R368). -/
def firstOf (l : List (Nat × Want)) : Option (Nat × Want) :=
  let dated := l.filter fun x => x.2.deadline.isSome
  match dated with
  | [] => l.head?
  | x :: t => some (t.foldl (fun b y => if (y.2.deadline.getD 0 - b.2.deadline.getD 0).msb then y else b) x)

/-- WEIGHT of a fare (R358, R366): its own, 1 without an entry, QOS_MOD_WEIGHT for the module's. -/
def Module.weightOf (m : Module) (fare : Nat) : Nat :=
  if fare / 256 = 16 then m.rd F.QOS_MOD_WEIGHT_WEIGHT 4
  else match m.fareEntry (fare / 256) (fare % 256) with | some e => e.weight | none => 1

/-- The member of a list that is first from a pointer on, in rising order and around (R20). -/
def nextFrom (size ptr : Nat) (l : List Nat) : Option Nat :=
  l.foldl (fun b f => match b with
    | none => some f
    | some g => if (f + size - ptr) % size < (g + size - ptr) % size then some f else b) none

/-- A target chooses among waiting requests (R366): the module with its pointers and deficits after, and the request's place in the list. Where
no fare has budget left, rounds add every waiting fare's WEIGHT until some deficit reaches its charge, and a second pointer rotates over the
fares that it then serves (DESIGN CHOICE, log entry 86). -/
def Module.pick (m : Module) (t : Nat) (l : List Want) : Module × Nat :=
  let xs := (List.range l.length).zip l
  let fares := (l.map Want.fare).eraseDups
  let best (f : Nat) : Option (Nat × Want) := firstOf (xs.filter fun x => x.2.fare == f)
  let rich := fares.filter fun f => decide (Tbl.get 0 m.qos.spent (t * 4352 + f) < m.budget t f)
  match nextFrom 4352 (Tbl.get 0 m.qos.ptr t) rich with
  | some f => ({ m with qos := { m.qos with ptr := Tbl.set 0 m.qos.ptr t ((f + 1) % 4352) } }, ((best f).map Prod.fst).getD 0)
  | none =>
    let (cs, cr) := m.capacities t
    let quantum (f : Nat) : Nat := max 1 (m.weightOf f * 16 * cs * cr)
    let deficit (f : Nat) : Nat := Tbl.get 0 m.qos.deficit (t * 4352 + f)
    let cost (f : Nat) : Nat := match best f with | some (_, w) => m.chargeOf t w.size (m.streams t f w.addr) | none => 0
    let rounds (f : Nat) : Nat := (cost f - deficit f + quantum f - 1) / quantum f
    let r := fares.foldl (fun (b : Option Nat) f => match b with | none => some (rounds f) | some x => some (min x (rounds f))) none
    let able := fares.filter fun f => decide (rounds f ≤ r.getD 0)
    match nextFrom 4352 (Tbl.get 0 m.qos.drr t) able with
    | none => (m, 0)
    | some f =>
      let cleared := m.qos.deficit.filter fun (k, _) => k / 4352 != t
      let after := fares.foldl (fun (d : Tbl Nat) g =>
        Tbl.set 0 d (t * 4352 + g) (deficit g + r.getD 0 * quantum g - (if g = f then cost f else 0))) cleared
      ({ m with qos := { m.qos with deficit := after, drr := Tbl.set 0 m.qos.drr t ((f + 1) % 4352) } }, ((best f).map Prod.fst).getD 0)

/-- A dated request that begins service after its deadline counts at its target (R367): (int16)(deadline − now) < 0. -/
def Module.noteDeadline (m : Module) (t : Nat) (deadline : Option (BitVec 16)) : Module :=
  match deadline with
  | none => m
  | some d =>
    let die := if t < 576 then coreDie t else if t < 596 then (t - 576) / 5 else 4
    let now : BitVec 16 := BitVec.ofNat 16 (m.datumOf die / 64)
    if (d - now).msb then
      (if t < 576 then m.bump F.QOS_TGT_DLMISS_COUNT die (t % 144)
       else if t < 596 then m.bump F.QOS_TGT_DLMISS_COUNT die (144 + (t - 576) % 5)
       else m.bump F.QOS_COMP_DLMISS_VALUE 4)
    else m

/-- A target begins a request (R364, R367): it notes a deadline missed and charges the fare. -/
def Module.begin (m : Module) (t : Nat) (w : Want) : Module := (m.noteDeadline t w.deadline).charge t w.fare w.addr w.size

/-- A target chooses a request that nothing else waits beside, and begins it. -/
def Module.beginAlone (m : Module) (t : Nat) (w : Want) : Module := (m.pick t [w]).1.begin t w

/-! ### Source regulators (R361, R362) -/

/-- RATE and BURST of channel v at a core interface (R361): sums over its partition's KIND 1 entries on v, saturating. -/
def Module.coreReg (m : Module) (c v : Nat) : Nat × Nat :=
  match m.partOf c, m.prog c with
  | some p, some _ =>
    let es := m.plat.fares.filter fun e => e.kind == 1 && e.part == p.num && m.classOf p.num e.fare == v
    (min 65535 (es.foldl (fun n e => n + e.rate) 0), min 65535 (es.foldl (fun n e => n + e.burst) 0))
  | _, _ => (0, 0)

/-- A source interface: a core, a hub requester r as 576 + r, a fabric port p as 592 + p; RATE and BURST of its channel v. -/
def Module.srcReg (m : Module) (i v : Nat) : Nat × Nat :=
  if i < 576 then m.coreReg i v
  else if i < 592 then (m.rd F.QOS_HUBSRC_REG_RATE 4 (i - 576), m.rd F.QOS_HUBSRC_REG_BURST 4 (i - 576))
  else (m.rd F.TWP_REG_RATE (i - 592) v, m.rd F.TWP_REG_BURST (i - 592) v)

/-- Charge of a request in flits by its kind (R362): 0 READ, 1 WRITE, 2 PWRITE, 3 ATOMIC, 4 MWRITE over a box of k positions. -/
def flitCharge (kind len k : Nat) : Nat :=
  let nd := if len ≥ 64 then len / 64 else 0
  match kind with
  | 0 => 2 + nd
  | 1 => 2 + nd
  | 2 => 1 + nd
  | 3 => 2
  | _ => 1 + nd + k

/-- The source interface of a packet: its requester's, or the fabric port it entered by. -/
def srcIface (src : Nat) (port : Option Nat) : Nat :=
  match port with
  | some p => 592 + p
  | none => if src < 576 then src else 576 + hubSrc src

/-- A requester interface has a request outstanding. -/
def Net.has (n : Net) (src tag : Nat) : Bool := n.outst.any fun o => o.src == src && o.tag == tag

/-- Registers a request as outstanding (R323, R339). -/
def Module.noteOutst (m : Module) (src tag : Nat) (read : Bool) : Module :=
  if m.net.has src tag then m else { m with net := { m.net with outst := m.net.outst ++ [⟨src, tag, read, false⟩] } }

/-- The bucket of channel v at a source interface: one for each channel, and one of a hub requester (R376), whose channel QOS_HUBSRC_CFG names. -/
def bucketKey (i v : Nat) : Nat := i * 4 + (if 576 ≤ i ∧ i < 592 then 0 else v)

/-- The level of a channel's bucket is at least a charge (R362); an unregulated channel has no bucket. -/
def Module.bucketHolds (m : Module) (i v c : Nat) : Bool :=
  let (rate, burst) := m.srcReg i v
  rate == 0 || decide (Tbl.get 0 m.qos.drawn (bucketKey i v) + c * 5120 ≤ burst * 5120)

/-- A bucket falls by a charge (R362). The many packets of one descriptor of an engine are one step of the model: what exceeds BURST there is owed,
and nothing of the channel goes before it is paid (DESIGN CHOICE, log entry 87). -/
def Module.draw (m : Module) (i v c : Nat) : Module :=
  if (m.srcReg i v).1 = 0 then m
  else { m with qos := { m.qos with drawn := Tbl.upd 0 m.qos.drawn (bucketKey i v) (· + c * 5120) } }

/-- Source interfaces' buckets are full again and nothing waits there: a core is released (R362). -/
def Module.refill (m : Module) (c : Nat) : Module :=
  { m with qos := { m.qos with
      drawn := m.qos.drawn.filter fun (k, _) => k / 4 != c
      held := m.qos.held.filter fun (k, _) => k / 4 != c
      starved := NSet.erase m.qos.starved c } }

/-- Network cycles of the nanosecond after time t: 8 in 5 ns (domain N, R29). -/
def netCycles (t : Nat) : Nat := (t + 1) * 8 / 5 - t * 8 / 5

/-- One nanosecond of the requests held at core interfaces, those of their engines among them (R378). -/
def Module.countHeld (m : Module) : Module :=
  let cs := ((m.qos.held.map (fun (x : Nat × _) => x.1 / 4) ++ m.qos.starved).eraseDups).filter (· < 576)
  cs.foldl (fun (m : Module) c => m.bumpBy F.QOS_SRC_HOLD_CNT_COUNT c (netCycles m.now)) m

/-- One nanosecond at every bucket (R362): RATE ÷ 1,024 flits per network cycle of 0.625 ns. -/
def Module.refillBuckets (m : Module) : Module :=
  { m with qos := { m.qos with
      drawn := m.qos.drawn.filterMap fun (k, v) =>
        let r := (m.srcReg (k / 4) (k % 4)).1
        if v ≤ 8 * r then none else some (k, v - 8 * r) } }

/-- TARGET_WINDOW (R364): every fare's budget at the target is set anew. -/
def execTargetWindow (t : Fin 597) (s : State) : Res :=
  s.done { s.m with qos := { s.m.qos with spent := s.m.qos.spent.filter fun (k, _) => k / 4352 != t.val } }

/-- A write to QOS_HUBSRC_CFGr or QOS_HUBSRC_REGr (R370, R376, R379). -/
def Module.hubsrcWrite (m : Module) (src : Nat) (r : Nat) (cfg : Bool) (value : Word) : Module :=
  if !privileged src then m
  else if cfg then (m.writePlain ⟨.QOS_HUBSRC_CFG, 4, r⟩ value).wr F.QOS_PUB_STS_STALE 4 1
  else if bitsAt value.toNat 0 16 ≠ 0 ∧ bitsAt value.toNat 16 16 < 10 then m
  else (m.writePlain ⟨.QOS_HUBSRC_REG, 4, r⟩ value).wr F.QOS_PUB_STS_STALE 4 1

/-- QOS_HUBSRC_WRITE (R370). -/
def execQosHubsrcWrite (req : Requester) (r : Fin 11) (cfg : Bool) (value : Word) (s : State) : Res :=
  s.done (s.m.hubsrcWrite req.toNat r cfg value)

end Sys2Proof.Machine
end

