-- ==== Sys2Proof/Machine/Routes.lean ====
section
/-! DEFINITION. Expanded routes (R331, R332, R335, R336, R345): paths as lists of routers and the hub, the crossings they count, their
channels and channel dependencies, and the regulator sums over the paths that share a way (R363, R370). -/

namespace Sys2Proof.Machine

/-- The numbers after a, up to b, in steps of one. -/
def lineTo (a b : Nat) : List Nat :=
  if a ≤ b then (List.range (b - a)).map fun i => a + 1 + i else (List.range (a - b)).map fun i => a - 1 - i

/-- The routers after (x0, y0) on the way to (x1, y1), X first or Y first. -/
def segNodes (yFirst : Bool) (x0 y0 x1 y1 : Nat) : List Nat :=
  if yFirst then (lineTo y0 y1).map (fun y => coreAt x0 y) ++ (lineTo x0 x1).map fun x => coreAt x y1
  else (lineTo x0 x1).map (fun x => coreAt x y0) ++ (lineTo y0 y1).map fun y => coreAt x1 y

/-- The bridge column of a die (R331). -/
def bridgeX (d : Nat) : Nat := if d / 2 = 0 then 11 else 12

/-- The legs of a record from (x, y) on, then the destination. -/
def legNodes (yFirst : Bool) : Nat → Nat → List Leg → Option Nat → List Nat
  | x, y, [], dst => match dst with | some d => segNodes yFirst x y (meshX d) (meshY d) | none => []
  | x, y, l :: t, dst =>
    (match l.kind with
      | 1 => segNodes yFirst x y l.x l.y
      | 2 => segNodes yFirst x y l.x l.y ++ [hubNode]
      | _ => [coreAt l.x l.y]) ++ legNodes yFirst l.x l.y t dst

/-- The path of a route record from a core to a router, or to the hub (R335). -/
def RouteRec.path (r : RouteRec) (src : Nat) (dst : Option Nat) : List Nat :=
  src :: legNodes (r.order == 1) (meshX src) (meshY src) r.legs dst

/-- The default path of a core (R331). -/
def defaultPath (src : Nat) (dst : Option Nat) : List Nat :=
  let d := coreDie src
  let toHub := src :: segNodes false (meshX src) (meshY src) (bridgeX d) (meshY src) ++ [hubNode]
  match dst with
  | none => toHub
  | some t =>
    let e := coreDie t
    if d / 2 = e / 2 then src :: segNodes false (meshX src) (meshY src) (meshX t) (meshY t)
    else toHub ++ coreAt (bridgeX e) (meshY t) :: segNodes false (bridgeX e) (meshY t) (meshX t) (meshY t)

/-- The path from the hub's station in row y of the destination's die (R331). -/
def hubPathFrom (ys dst : Nat) : List Nat :=
  let xb := bridgeX (coreDie dst)
  hubNode :: coreAt xb ys :: segNodes false xb ys (meshX dst) (meshY dst)

/-- The hub's path to a router: from the station nearest in y, the lower on a tie, whose path meets no dead router (R332). -/
def Module.hubPath (m : Module) (dst : Nat) : Option (List Nat) :=
  let y0 := 12 * (coreDie dst % 2)
  let yd := meshY dst
  let cand := (List.range 12).flatMap fun k =>
    (if k ≤ yd - y0 then [yd - k] else []) ++ (if 0 < k ∧ yd + k < y0 + 12 then [yd + k] else [])
  (cand.map fun y => hubPathFrom y dst).find? fun p => p.all fun n => n == hubNode || !m.dead n

/-- Die boundaries that a path crosses (R24, R26). -/
def crossings (p : List Nat) : Nat :=
  ((steps p).filter fun (u, v) => u == hubNode || v == hubNode || coreDie u != coreDie v).length

/-- A channel: one direction of a link. -/
def chan (u v : Nat) : Nat := u * 1024 + v

/-- The channels of a path. -/
def chans (p : List Nat) : List Nat := (steps p).map fun (u, v) => chan u v

/-! ### The way of a packet now (R331, R332, R335) -/

/-- The routers and the hub that a request passes from its source to a router or to the hub. -/
def Module.pathNodes (m : Module) (src dst : Option Nat) : List Nat :=
  match src with
  | some c => match m.routeRec c dst with | some r => r.path c dst | none => defaultPath c dst
  | none => match dst with | some d => (m.hubPath d).getD [] | none => [hubNode]

/-- The positions of a box in ascending core number. -/
def Box.cores (b : Box) : List Nat := (List.range 576).filter b.has

/-- The routers after a box's first one on the way of a copy to a position (R345): along the first row, then up the column. -/
def Box.treePath (b : Box) (t : Nat) : List Nat := segNodes false b.x0 b.y0 (meshX t) (meshY t)

/-- The branches of a multicast packet at a router of its box (R345): 0 the local delivery, 1 toward higher x, 2 toward higher y. -/
def Box.branches (b : Box) (x y : Nat) : List Nat :=
  [0] ++ (if y = b.y0 ∧ x < b.x1 then [1] else []) ++ (if y < b.y1 then [2] else [])

/-- Flits leave every router of a path on a virtual channel (R353). -/
def Module.noteFlits (m : Module) (path : List Nat) (vc n : Nat) : Module :=
  { m with flits := (path.filter (· < 576)).foldl (fun t r => Tbl.upd 0 t (r * 4 + vc) fun x => (x + n) % 2 ^ 32) m.flits }

/-- Flits of a request and of its answer (R325, R327), by its kind in R362 and its bytes. -/
def requestFlits (kind len : Nat) : Nat := if kind = 1 ∨ kind = 2 ∨ kind = 4 then 1 + len / 64 else 1
def answerFlits (kind len : Nat) : Nat := if kind = 0 then 1 + len / 64 else 1

/-- A request and its answer pass a path (R330, R353); a posted write has no answer. -/
def Module.noteWay (m : Module) (path : List Nat) (vc kind len : Nat) : Module :=
  m.noteFlits path vc (requestFlits kind len + if kind = 2 then 0 else answerFlits kind len)

/-! ### What a plat expands (R336) -/

/-- The programmed cores of a partition, in ascending core number. -/
def Plat.programmed (pl : Plat) (p : Nat) : List Nat :=
  match pl.parts.find? fun e => e.num == p with
  | some e => (List.range 576).filter fun c => Nat.testBit e.clusters (coreCluster c) && pl.progs.any fun g => g.core == c
  | none => []

/-- The destinations of a record. -/
def RouteRec.dests (r : RouteRec) : List (Option Nat) :=
  if r.dst.x0 = 31 then [none] else ((List.range 576).filter r.dst.has).map some

/-- A record's boxes hold a pair. -/
def RouteRec.covers (r : RouteRec) (src : Nat) (dst : Option Nat) : Bool :=
  r.src.has src && (match dst with | some d => r.dst.x0 != 31 && r.dst.has d | none => r.dst.x0 == 31)

/-- The paths of a record, with their sources: each programmed core of its source box, each router of its destination box. -/
def Plat.recordPaths (pl : Plat) (r : RouteRec) : List (List Nat) :=
  ((pl.programmed r.part).filter r.src.has).flatMap fun c => r.dests.map fun d => r.path c d

/-- The records of a partition that can apply to a pair: those with a COND, up to the first without, and whether there is one. -/
def applicable (src : Nat) (dst : Option Nat) : List RouteRec → List RouteRec × Bool
  | [] => ([], false)
  | r :: t =>
    if !r.covers src dst then applicable src dst t
    else if r.cond = 0 then ([r], true)
    else let (l, b) := applicable src dst t; (r :: l, b)

/-- Every path that a packet of a core can take to a router, and whether it is the default route. -/
def Plat.anyPaths (pl : Plat) (p src : Nat) (dst : Option Nat) : List (Bool × List Nat) :=
  let (l, always) := applicable src dst (pl.routes.filter fun r => r.part == p)
  (l.map fun r => (false, r.path src dst)) ++ (if always then [] else [(true, defaultPath src dst)])

/-- The routers of a rule's box, from its first row on. -/
def McRule.nodes (r : McRule) : List Nat :=
  (List.range (r.box.y1 + 1 - r.box.y0)).flatMap fun j => (List.range (r.box.x1 + 1 - r.box.x0)).map fun i =>
    coreAt (r.box.x0 + i) (r.box.y0 + j)

/-- The tree's channel dependencies (R345): along the first row, from it into the columns, and along the columns. -/
def McRule.treeDeps (r : McRule) : List (Nat × Nat) :=
  let at' (x y : Nat) := coreAt x y
  let xs := (List.range (r.box.x1 - r.box.x0)).map (r.box.x0 + ·)
  let ys := (List.range (r.box.y1 - r.box.y0)).map (r.box.y0 + ·)
  let y0 := r.box.y0
  (xs.flatMap fun x =>
    let e := chan (at' x y0) (at' (x + 1) y0)
    (if x + 1 < r.box.x1 then [(e, chan (at' (x + 1) y0) (at' (x + 2) y0))] else [])
      ++ (if y0 < r.box.y1 then [(e, chan (at' (x + 1) y0) (at' (x + 1) (y0 + 1)))] else []))
  ++ ((r.box.x1 :: xs).flatMap fun x => ys.flatMap fun y =>
    if y + 1 < r.box.y1 then [(chan (at' x y) (at' x (y + 1)), chan (at' x (y + 1)) (at' x (y + 2)))] else [])

/-- The first channels of the tree. -/
def McRule.roots (r : McRule) : List Nat :=
  let a := coreAt r.box.x0 r.box.y0
  (if r.box.x0 < r.box.x1 then [chan a (coreAt (r.box.x0 + 1) r.box.y0)] else [])
    ++ (if r.box.y0 < r.box.y1 then [chan a (coreAt r.box.x0 (r.box.y0 + 1))] else [])

/-- The unicast paths of a rule's packets to its first router, each with whether it is the default route. -/
def Plat.ruleRoutes (pl : Plat) (r : McRule) : List (Bool × List Nat) :=
  (pl.programmed r.part).flatMap fun c => pl.anyPaths r.part c (some (coreAt r.box.x0 r.box.y0))

/-- Those paths alone. -/
def Plat.rulePaths (pl : Plat) (r : McRule) : List (List Nat) := (pl.ruleRoutes r).map (·.2)

/-- A region's pages in a span lie on a device. -/
def Region.touches (r : Region) (lo hi dev : Nat) : Bool :=
  let a := max lo r.base
  let b := min hi (r.base + r.len)
  if a ≥ b then false
  else
    let p0 := (a - r.base) / 4096
    (List.range (min 20 ((b - 1 - r.base) / 4096 + 1 - p0))).any fun i => (r.place (r.base + (p0 + i) * 4096)).1 == dev

/-- A span of addresses meets another. -/
def meets (lo hi a n : Nat) : Bool := decide (lo < a + n) && decide (a < hi)

/-- A partition's MEMMAP reaches the router of a position (R336): its windows, its core registers, its die's registers or an attached far
device. -/
def Plat.reaches (pl : Plat) (p n : Nat) : Bool :=
  let d := coreDie n
  let reg := 0x3000_0000_0000 + d * 2 ^ 32
  pl.memmap.any fun r => r.part == p && (
    let lo := r.base
    let hi := r.base + r.len
    meets lo hi (0x1000_0000_0000 + n * 0x8000_0000) 0x8000_0000 || meets lo hi (0x2000_0000_0000 + n * 0x40_0000) 0x40_0000
      || meets lo hi (reg + n % 144 * 0x10_0000) 0x10_0000
      || (n % 144 == 65 && meets lo hi (reg + 0x1000_0000) 0xF000_0000)
      || (List.range 5).any fun k => farRouter (5 * d + k) == n && pl.regions.any fun g => g.touches lo hi (5 * d + k))

/-- A partition's MEMMAP reaches the hub: its registers or the companion. -/
def Plat.reachesHub (pl : Plat) (p : Nat) : Bool :=
  pl.memmap.any fun r => r.part == p &&
    (meets r.base (r.base + r.len) 0x3004_0000_0000 (2 ^ 32) || meets r.base (r.base + r.len) 0x3800_0000_0000 (2 ^ 40))

/-- The routers that a partition reaches, in ascending core number, the hub last. -/
def Plat.reached (pl : Plat) (p : Nat) : List (Option Nat) :=
  ((List.range 576).filter (pl.reaches p)).map some ++ (if pl.reachesHub p then [none] else [])

/-- The default paths that the loader expands for a partition, by source, then destination (R336). -/
def Plat.defaultPaths (pl : Plat) (p : Nat) : List (List Nat) :=
  let rs := pl.routes.filter fun r => r.part == p && r.cond == 0
  let ds := pl.reached p
  (pl.programmed p).flatMap fun c => (ds.filter fun d => !rs.any fun r => r.covers c d).map fun d => defaultPath c d

/-! ### Channel dependencies -/

/-- Dependencies under their two channels, each with 1 + the smallest record offset that contributes it (`noRec` for none). -/
abbrev Deps := Tbl Nat

/-- Stands for a path of no record of the image. -/
def noRec : Nat := 2 ^ 40

/-- Adds a dependency. -/
def Deps.add (g : Deps) (a b off : Nat) : Deps :=
  Tbl.upd 0 g (a * 2 ^ 20 + b) fun o => if o = 0 then off + 1 else min o (off + 1)

/-- Adds the dependencies between consecutive channels. -/
def Deps.addPath (g : Deps) (off : Nat) (p : List Nat) : Deps := (steps (chans p)).foldl (fun g (a, b) => Deps.add g a b off) g

/-- Removes every dependency that leads to a channel from which none goes on, once. -/
def Deps.peel (g : Deps) : Deps :=
  let from' := g.map fun (k, _) => k / 2 ^ 20
  g.filter fun (k, _) => from'.contains (k % 2 ^ 20)

/-- Channels reached from a set of channels, in at most `fuel` steps. -/
def Deps.close (g : Deps) : Nat → List Nat → NSet → NSet
  | 0, _, seen => seen
  | fuel + 1, front, seen =>
    let next := (g.filter fun (k, _) => front.contains (k / 2 ^ 20)).map fun (k, _) => k % 2 ^ 20
    let new := (next.filter fun c => !seen.contains c).eraseDups
    if new.isEmpty then seen else Deps.close g fuel new (new.foldl NSet.insert seen)

/-- Peels until nothing changes. -/
def Deps.core : Nat → Deps → Deps
  | 0, g => g
  | fuel + 1, g => let h := Deps.peel g; if h.length = g.length then g else Deps.core fuel h

/-- The smallest record offset behind a dependency on a cycle; none where there is no cycle. -/
def Deps.cycle (g : Deps) : Option Nat :=
  let h := Deps.core g.length g
  let on := h.filter fun (k, _) => (Deps.close h h.length [k % 2 ^ 20] [k % 2 ^ 20]).contains (k / 2 ^ 20)
  match on with
  | [] => none
  | x :: t => some (t.foldl (fun a (_, v) => min a (v - 1)) (x.2 - 1))

/-- All dependencies of a plat (R336): its records, trees, default paths and the hub's paths; only partitions in `mine` have records of the
image. -/
def Module.deps (m : Module) (pl : Plat) (mine : List Nat) : Deps :=
  let lab (p off : Nat) : Nat := if mine.contains p then off else noRec
  let g : Deps := pl.routes.foldl (fun g r => (pl.recordPaths r).foldl (fun g p => Deps.addPath g (lab r.part r.at') p) g) []
  let g := pl.rules.foldl (fun g r =>
    let o := lab r.part r.at'
    let g := r.treeDeps.foldl (fun g (a, b) => Deps.add g a b o) g
    (pl.rulePaths r).foldl (fun g p =>
      let g := Deps.addPath g o p
      match (chans p).getLast? with
      | some c => r.roots.foldl (fun g b => Deps.add g c b o) g
      | none => g) g) g
  -- default routes and hub-origin paths alone never form a cycle
  if g.isEmpty then g
  else
    let g := pl.parts.foldl (fun g e => (pl.defaultPaths e.num).foldl (fun g p => Deps.addPath g noRec p) g) g
    ((List.range 576).filterMap m.hubPath).foldl (fun g p => Deps.addPath g noRec p) g

/-! ### Regulator sums (R363) -/

/-- Two routers' clusters are one or share an edge of one die. -/
def nearRouters (s d : Nat) : Bool :=
  s != hubNode && d != hubNode && coreDie s == coreDie d && (
    let a := coreCluster s % 36
    let b := coreCluster d % 36
    a == b || (a / 6 == b / 6 && (a % 6 + 1 == b % 6 || b % 6 + 1 == a % 6))
      || (a % 6 == b % 6 && (a / 6 + 1 == b / 6 || b / 6 + 1 == a / 6)))

/-- The ways that a packet takes between two routers (R318): a neighbour packet on its default route uses all four. -/
def pathWays (dflt : Bool) (p : List Nat) : List Nat :=
  let xy (n : Nat) : Nat := if n = hubNode then 62 else meshX n + meshY n
  let s := p.headD hubNode
  let d := p.getLastD hubNode
  if dflt && nearRouters s d then [0, 1, 2, 3] else [(xy s + xy d) % 4]

/-- A path's keys of on-die ways: link · 4 + way. -/
def wayKeys (dflt : Bool) (p : List Nat) : List Nat :=
  ((steps p).filter fun (u, v) => u != hubNode && v != hubNode && coreDie u == coreDie v).flatMap fun (u, v) =>
    (pathWays dflt p).map fun w => chan u v * 4 + w

/-- A partition's fares use a virtual channel under its class map (R334). -/
def Plat.uses (pl : Plat) (p q : Nat) : Bool :=
  (List.range 4).any fun k =>
    match pl.classMaps.find? fun r => r.part == p && r.quarter == k with
    | some r => (List.range 64).any fun i => r.map / 4 ^ i % 4 == q
    | none => q == 2

/-- Every expanded path and every default path of a hub requester (R363): its source, 576 + r for a hub requester, and its ways. `use` and
`hubs` choose partitions and hub requesters. -/
def Module.sumPaths (m : Module) (use : Nat → Bool) (hubs : List Nat) : List (List Nat × List Nat) :=
  let pl := m.plat
  let own (dflt : Bool) (p : List Nat) : List Nat × List Nat := ([p.headD 0], wayKeys dflt p)
  let cores := (pl.parts.filter fun e => use e.num).flatMap fun e =>
    ((pl.routes.filter fun r => r.part == e.num).flatMap fun r => (pl.recordPaths r).map (own false))
      ++ ((pl.rules.filter fun r => r.part == e.num).flatMap fun r => (pl.ruleRoutes r).map fun (dflt, p) =>
        ([p.headD 0], wayKeys dflt p ++
          (r.roots ++ r.treeDeps.map (·.2)).flatMap fun c => (pathWays dflt p).map fun w => c * 4 + w))
      ++ (pl.defaultPaths e.num).map (own true)
  if hubs.isEmpty then cores
  else cores ++ (List.range 576).filterMap fun n => (m.hubPath n).map fun p => (hubs.map (576 + ·), wayKeys true p)

/-- Sources by way: under 1 + key so that every key is at least 1. -/
def sourcesByWay (l : List (List Nat × List Nat)) : Tbl (List Nat) :=
  l.foldl (fun t (ss, ks) => ks.foldl (fun t k => Tbl.upd [] t k fun x => ss.foldl NSet.insert x) t) []

/-- BSUM, RSUM and NONE of a virtual channel (R363): over every path, the sources with a path on the channel that shares a way with it, and
its own. -/
def Module.vcSums (m : Module) (q : Nat) : Nat × Nat × Bool :=
  let t := sourcesByWay (m.sumPaths (m.plat.uses · q) ((List.range 11).filter fun r => m.rd F.QOS_HUBSRC_CFG_VC 4 r == q))
  let sets := (m.sumPaths (fun _ => true) (List.range 11)).flatMap fun (ss, ks) =>
    let x := ks.foldl (fun x k => (Tbl.get [] t k).foldl NSet.insert x) []
    ss.map fun i => NSet.insert x i
  let one (set : List Nat) : Nat × Nat × Bool := set.foldl (fun (b, r, n) i =>
    let (rate, burst) := m.srcReg i q
    (b + burst, r + rate, n || rate == 0)) (0, 0, false)
  sets.foldl (fun (b, r, n) set => let (b', r', n') := one set; (max b b', max r r', n || n')) (0, 0, false)

/-- A sum as its 24-bit field holds it; the manual gives no value to a larger one, which is free. -/
def Module.sum24 (m : Module) (f : RegField) (v q : Nat) : Module :=
  if v < 2 ^ 24 then m.wr f 4 v q else let (m', x) := m.freshWord; m'.wr f 4 x.toNat q

/-- Ostler publishes the sums and the largest declared fan-in (R359, R363). -/
def Module.publishSums (m : Module) : Module :=
  let m := (List.range 4).foldl (fun (m : Module) q =>
    let (b, r, n) := m.vcSums q
    ((m.sum24 F.QOS_VC_BSUM_BSUM b q).wr F.QOS_VC_BSUM_NONE 4 (if n then 1 else 0) q).sum24 F.QOS_VC_RSUM_RSUM r q) m
  let fan := (m.plat.fares.filter fun e => e.kind == 2).foldl (fun a e => max a e.cfanin) 0
  (m.wr F.QOS_PUB_STS_CFANIN_MAX 4 fan).wr F.QOS_PUB_STS_STALE 4 0

/-- QOS_SUMS_RECOMPUTED (R370): Ostler finishes a recomputation. -/
def execQosSumsRecomputed (s : State) : Res := s.done (if s.m.rd F.QOS_PUB_STS_STALE 4 = 1 then s.m.publishSums else s.m)

end Sys2Proof.Machine
end

