-- ==== Sys2Proof/Machine/Floor.lean ====
section
/-! DEFINITION. The floor-plan record (R497 to R500), readiness (R507, R508), bring-up stages (R524) and the issue of Ledger records
(R593). -/

namespace Sys2Proof.Machine

/-- Issues a Ledger record (R593): LEDGER_APPEND makes it valid. -/
def Module.issueRec (m : Module) (type : Nat) (payload : List Byte) : Module :=
  { m with ledger := { m.ledger with queue := m.ledger.queue ++ [(type, payload)] } }

/-- Good cores of a die. -/
def Module.goodOn (m : Module) (d : Nat) : Nat := ((List.range 144).filter fun i => m.good (144 * d + i)).length
/-- Lodger slices of a die. -/
def Module.lodgersOn (m : Module) (d : Nat) : Nat := ((List.range 144).filter fun i => m.lodger (144 * d + i)).length
/-- Dead routers of a die. -/
def Module.deadOn (m : Module) (d : Nat) : Nat := ((List.range 144).filter fun i => m.dead (144 * d + i)).length
/-- Some die has fewer than 132 good cores (SHORT). -/
def Module.short (m : Module) : Bool := (List.range 4).any fun d => decide (m.goodOn d < 132)

/-- D2D of a link (R498): 0 FULL, 1 NARROW, 2 DOWN or DISABLED, 3 TRAIN, TEST or RETRAIN, by its lower station. -/
def Module.d2dCode (m : Module) (link : Nat) : Nat :=
  let u := match link with | 0 => 0 | 1 => 4 | n => 2 * (n - 2) + 1
  match m.rd F.DTD_STS_STATE u with
  | 2 => 0
  | 3 => 1
  | 0 | 6 => 2
  | _ => 3

/-- A mask of the numbers below n that satisfy a condition. -/
def maskOf (n : Nat) (p : Nat → Bool) : Nat := (List.range n).foldl (fun a i => if p i then a + 2 ^ i else a) 0

/-- FAR_LOST. -/
def Module.farLostMask (m : Module) : Nat := maskOf 20 m.farLost
/-- PORT_LOST. -/
def Module.portLostMask (m : Module) : Nat := maskOf 8 fun n => m.dead (portRouter n)
/-- LOCKLOST: die d lost lock in domain A, N or M; the hub, die 4, has a domain N alone (R10, R29). -/
def Module.lockMask (m : Module) : Nat :=
  maskOf 5 fun d => if d = 4 then m.lockLost.contains 17 else (List.range 3).any fun k => m.lockLost.contains (4 * d + k)
/-- D2D of the six links. -/
def Module.d2dMask (m : Module) : Nat := (List.range 6).foldl (fun a l => a + m.d2dCode l * 4 ^ l) 0

/-- The fields of the record that a change of the module changes (R499). -/
def Module.flpFields (m : Module) : List Nat :=
  [if m.met then 1 else 0, if m.short then 1 else 0, if m.flp.warm then 1 else 0, m.farLostMask, m.portLostMask, m.lockMask, m.d2dMask]

/-- The 512 bytes of the record (R498). -/
def Module.flpRecord (m : Module) : List Byte :=
  let goods := (List.range 4).map m.goodOn
  let lods := (List.range 4).map m.lodgersOn
  let g := goods.foldl (· + ·) 0
  let l := lods.foldl (· + ·) 0
  let flags := (if m.met then 1 else 0) + (if m.short then 2 else 0) + (if m.flp.warm then 4 else 0)
  leBytes 4 0x4E41_4C50 ++ leBytes 2 1 ++ leBytes 2 flags ++ leBytes 4 m.flp.gen ++ leBytes 2 g ++ leBytes 2 l ++ leBytes 8 m.flp.datum
    ++ goods.map (BitVec.ofNat 8) ++ lods.map (BitVec.ofNat 8) ++ leBytes 4 ((g + l) * 1280) ++ leBytes 4 m.farLostMask
    ++ leBytes 1 m.portLostMask ++ leBytes 2 m.d2dMask ++ leBytes 1 m.lockMask ++ leBytes 20 0
    ++ (List.range 288).map (fun i => BitVec.ofNat 8 (m.code (2 * i) + 16 * m.code (2 * i + 1))) ++ leBytes 160 0

/-- Causes of a floor-plan change (R590 FP_CHANGE); `other` is one that R590 does not number. -/
inductive FpCause where
  | bringup | fence | unfence | selftest | forced | farLost | farIsolated | link | other
  deriving DecidableEq, Repr

/-- The code of a cause. -/
def FpCause.code : FpCause → Nat
  | .bringup => 0 | .fence => 1 | .unfence => 2 | .selftest => 3 | .forced => 4 | .farLost => 5 | .farIsolated => 6 | .link => 7
  | .other => Config.otherCause.toNat

/-- Counts one change of the record (R499): GENERATION rises, DATUM is the hub's, the retained store
takes it (R504), event 7 is set, and an FP_CHANGE record is issued. -/
def Module.flpBump (m : Module) (cause : FpCause) (core old new unit : Nat) : Module :=
  let m := { m with flp := { m.flp with gen := (m.flp.gen + 1) % 2 ^ 32, datum := m.datumOf 4 } }
  let m := { m with ret := ⟨true, m.codes, m.flp.gen⟩ }
  (m.event 0 7).issueRec 0x06 (leBytes 4 m.flp.gen ++ leBytes 8 m.flp.datum ++ leBytes 2 core ++ leBytes 1 old ++ leBytes 1 new
    ++ leBytes 1 cause.code ++ leBytes 1 unit ++ leBytes 14 0)

/-- After a change from `old`, counts it where a published record differs in a field beside its codes. -/
def Module.flpNote (m old : Module) (cause : FpCause) (unit : Nat) : Module :=
  if m.flp.valid && m.flpFields != old.flpFields then m.flpBump cause 0xFFFF 0 0 unit else m

/-- Gives a position a code; a published record counts the change once, with the counts and flags that follow from it. -/
def Module.setCode (m : Module) (c code : Nat) (cause : FpCause) : Module :=
  let old := m.code c
  let m' := { m with codes := Tbl.set 0 m.codes c code }
  if m.flp.valid && code != old then m'.flpBump cause c old code 0 else m'

/-! ### Stages and readiness -/

/-- Stages of bring-up (R524). -/
def Stage.firmware : Nat := 1
def Stage.fuses : Nat := 2
def Stage.localTests : Nat := 3
def Stage.floorplan : Nat := 4
def Stage.awaitPlat : Nat := 5
def Stage.loading : Nat := 6
def Stage.survey : Nat := 7
def Stage.ready : Nat := 8
def Stage.notReady : Nat := 9

/-- The stage. -/
def Module.stage (m : Module) : Nat := m.rd F.BRG_MOD_STS_STAGE 4

/-- Enters a stage; BRG_MOD_TIME takes the milliseconds since the bring-up began. -/
def Module.setStage (m : Module) (n : Nat) : Module :=
  if m.stage = n then m else (m.wr F.BRG_MOD_STS_STAGE 4 n).wr F.BRG_MOD_TIME_MS 4 ((m.now - m.bringAt) / 1_000_000)

/-- A module-scope load is in progress. -/
def Module.moduleLoading (m : Module) : Bool := match m.load with | some l => l.op == 1 | none => false

/-- The REASON of R507: the first condition that fails, in table order, and FIRMWARE in recovery (R587); 0 where
every one holds. -/
def Module.reason (m : Module) : Nat :=
  if m.rd F.SVC_STS_RECOVERY 4 = 1 then 7
  else if m.stage < Stage.awaitPlat then 1
  else if !m.fwOk then 7
  else if m.lockMask != 0 then 5
  else if !((List.range 4).all fun d => m.d2dUp (2 + d)) then 4
  else if !m.met then 3
  else if !m.platLoaded || m.moduleLoading then 2
  else if !m.surveyOk then 6
  else 0

/-- Decides readiness (R507, R508): READY and REASON follow the conditions, and event 6 marks a change of READY. -/
def Module.evalReady (m : Module) : Module :=
  let r := m.reason
  let was := m.rd F.BRG_MOD_STS_READY 4
  let now := if r = 0 then 1 else 0
  let m := (m.wr F.BRG_MOD_STS_REASON 4 r).wr F.BRG_MOD_STS_READY 4 now
  let m := if r = 0 then m.setStage Stage.ready else if m.stage = Stage.ready then m.setStage Stage.notReady else m
  if was = now then m else m.event 0 6

/-- After a change from `old`: the record takes note, and readiness is decided. -/
def Module.settle (m old : Module) (cause : FpCause) (unit : Nat := 0) : Module := (m.flpNote old cause unit).evalReady

end Sys2Proof.Machine
end

