-- ==== Sys2Proof/Machine/Serve.lean ====
section
/-! DEFINITION. What a memory endpoint does with a request: reads, writes and atomic operations at a slice cache, a far-memory
controller or a core's scratch (R248, R274, R275, R286, R298 to R302, R327 to R330, R341), and what makes a request wait there. -/

namespace Sys2Proof.Machine

/-- Puts a response on the mesh; one whose path crosses a link that carries nothing is discarded (R337). -/
def Module.respond (m : Module) (r : Resp) : Module :=
  if (pathCross r.path).all m.d2dUp then { m with net := { m.net with resp := m.net.resp ++ [r] } } else m

/-! ### Accesses from outside (R384, R441) -/

/-- Tags of the packets of accesses from outside, beside those of R325: 65,536 and the packet's number. -/
def txTag : Nat := 65536

/-- A packet of an access is answered, once. -/
def TxPiece.answered (p : TxPiece) (status : Nat) (data : List Byte) (poison : List Bool) : TxPiece :=
  match p.st with
  | .done _ _ _ => p
  | _ => { p with st := .done status data poison }

/-- The access that has the packet of a number. -/
def Tx.has (t : Tx) (n : Nat) : Bool := decide (t.id ≤ n) && decide (n < t.id + t.pieces.length)

/-- The packet of a number of an access from outside is answered. -/
def Module.txResult (m : Module) (n status : Nat) (data : List Byte) (poison : List Bool) : Module :=
  { m with tx := m.tx.map fun t =>
      if t.has n then { t with pieces := t.pieces.modify (n - t.id) fun p => p.answered status data poison } else t }

/-- The requester number by which a request's endpoint judges it: that of its packet, or none of the module's (R442). -/
def HeldReq.by (h : HeldReq) : Nat := if h.part.isSome then reqFabric else h.packet.src.toNat

/-- A request is a read. -/
def HeldReq.isRead (h : HeldReq) : Bool := h.op == 0

/-- The endpoint that answers (R324): the one that DEST names, or of a multicast write the copy's own. -/
def HeldReq.answerer (h : HeldReq) : BitVec 16 :=
  if h.packet.head.mcast then routerWord (some h.target) (if h.addr < 0x2000_0000_0000 then 1 else 0) else h.packet.head.dest

/-- Answers a request with a status and its data, on its virtual channel and along its path in reverse; a posted write is answered nothing
(R321, R327, R330). The answer of a packet of an access from outside reaches the hub or the port at once (DESIGN CHOICE, log entry 98). -/
def Module.answer (m : Module) (h : HeldReq) (status : Nat) (data : List Byte := []) (poison : List Bool := []) : Module :=
  if txTag ≤ h.packet.tag then
    (if h.op = 2 || !(pathCross h.path).all m.d2dUp then m else m.noteFlits h.path h.packet.vc (if h.op = 0 then 1 + data.length / 64 else 1)).txResult
      (h.packet.tag - txTag) status data poison
  else if h.op = 2 then m else m.respond ⟨h.packet.src.toNat, h.packet.tag, h.isRead, status, data, poison, h.target,
    h.packet.vc, h.answerer, h.path⟩

/-- Requests that wait on a path over a link are lost with it, and the link's station answers them LINK-DOWN along the path before it (R337): a
multicast write as all its targets would (DEDUCED, log entry 111). -/
def Module.loseWaits (m : Module) (l : Nat) : Module :=
  let (gone, kept) := m.net.wait.partition fun w => crosses l w.path
  gone.foldl (fun (m : Module) w =>
    let p := w.packet
    match w.multi with
    | none => m.answer { packet := p, op := w.op, addr := p.addr, target := 0, path := beforeLink l w.path, part := w.part } St.linkDown
    | some x => x.box.cores.foldl (fun (m : Module) t =>
        m.respond ⟨p.src.toNat, p.tag, false, St.linkDown, [], [], t, p.vc, routerWord (some t) (if x.scratch then 0 else 1), beforeLink l w.path⟩) m)
    { m with net := { m.net with wait := kept } }

/-- The size in bytes of what a request touches. -/
def HeldReq.size (h : HeldReq) : Nat := h.packet.len

/-- The poison tag of a write's word, by word key, of a write that begins at byte key k (R330): one tag per 64-byte unit, one for a
short write. -/
def writeTag (p : Packet) (k w : Nat) : Bool := if p.len < 64 then p.poison.headD false else p.poison.getD (w - k / 64) false

/-- The new value of an atomic operation of `n` bytes (R329); none where the operation is reserved, or is FADD on 8 bytes. -/
def atomNew (op n old x c : Nat) : Option Nat :=
  let w := 2 ^ (8 * n)
  let sg (v : Nat) : Int := if v % w < w / 2 then (v % w : Nat) else (v % w : Nat) - w
  match op with
  | 0x0 => some (x % w)
  | 0x1 => some (if old % w = c % w then x % w else old % w)
  | 0x2 => some ((old + x) % w)
  | 0x3 => some (old &&& x % w)
  | 0x4 => some (old ||| x % w)
  | 0x5 => some (old ^^^ x % w)
  | 0x6 => some (if sg old < sg x then x % w else old % w)
  | 0x7 => some (if sg x < sg old then x % w else old % w)
  | 0x8 => some (max (old % w) (x % w))
  | 0x9 => some (min (old % w) (x % w))
  | 0xA => if n = 4 then some ((Val.ofFp32 (BitVec.ofNat 32 old)).add (Val.ofFp32 (BitVec.ofNat 32 x))).toFp32.1.toNat else none
  | _ => none

/-- Does a request's work at byte key k of a site: the module, the status, and what is returned. -/
def Module.perform (m : Module) (h : HeldReq) (s : Site) (k : Nat) : Module × Nat × List Byte × List Bool :=
  let p := h.packet
  let n := h.size
  match h.op with
  | 0 =>
    let (m', l, bad) := m.readSite s k n h.ran
    (m', readStatus bad, l, (wordsOf k n).map fun w => bad.contains w)
  | 1 | 2 => (m.writeSite s p.data (writeTag p k) h.ran, St.ok, [], [])
  | a =>
    match s with
    | .slice _ _ | .far _ _ =>
      let (m', l, bad) := m.readSite s k n h.ran
      match atomNew (a - 3) n (leNat l) (leNat (p.data.take 8)) (leNat ((p.data.drop 8).take 8)) with
      | none => (m, St.malformed, [], [])
      | some v =>
        (m'.writeSite s (leBytes n v) (fun _ => p.poison.headD false) h.ran .cache true, readStatus bad, leBytes 8 (leNat l), [!bad.isEmpty])
    | _ => (m, St.unsupported, [], [])

/-! ### Slow-path queues (R300) -/

/-- The slow-path queue of a site: a far controller's, or its die's page-code engine as 20 + die. -/
def slowQueue (s : Site) : Nat :=
  match s with
  | .far j _ => j
  | .slice c _ => 20 + coreDie c
  | _ => 0

/-- Pages that a slow-path queue holds (R285, R300). -/
def slowLimit (u : Nat) : Nat := if u < 20 then 16 else 64

/-- The paths of a queue. -/
def Module.slowOf (m : Module) (u : Nat) : List SlowPath := Tbl.get [] m.slow u
/-- Replaces the paths of a queue. -/
def Module.setSlow (m : Module) (u : Nat) (l : List SlowPath) : Module := { m with slow := Tbl.set [] m.slow u l }

/-- A slow path of the queue runs, or waits to run, on a page. -/
def Module.slowOn (m : Module) (u page : Nat) : Bool := (m.slowOf u).any fun x => x.page == page

/-- Changes the first path that meets a condition. -/
def updFirst (p : SlowPath → Bool) (f : SlowPath → SlowPath) : List SlowPath → List SlowPath
  | [] => []
  | x :: t => if p x then f x :: t else x :: updFirst p f t

/-- A slow path for a word: its own where one stands in the queue, else a new one, where the queue has room (R300, R301). `join` enters in
it who waits. -/
def Module.slowFor (m : Module) (u w : Nat) (join : SlowPath → SlowPath) : Option Module :=
  let l := m.slowOf u
  if l.any fun x => x.word == w then some (m.setSlow u (updFirst (fun x => x.word == w) join l))
  else if l.length < slowLimit u then some (m.setSlow u (l ++ [join ⟨w / 64, w, false, [], []⟩]))
  else none

/-! ### What waits (R32, R274, R298 to R304) -/

/-- A field repair holds the page of a site (R304): the die whose repair does. A page that a bank operation protects is not yet held. -/
def Module.repairHolds (m : Module) (s : Site) : Option Nat :=
  let (kind, unit, die, off) := match s with
    | .slice c o => (0, c % 144, coreDie c, o)
    | .far j o => (1, j % 5, j / 5, o)
    | _ => (2, 0, 0, 0)
  match Tbl.get none m.repairs die with
  | some r =>
    if r.kind = kind ∧ r.unit = unit ∧ r.page = off / 4096 ∧ !r.copied ∧
        !(kind == 0 && m.protects (144 * die + unit) (r.page * 4096) 4096) then some die else none
  | none => none

/-- The bus of a far device does not serve now: it retrains, or its clock is lost (R32, R302). -/
def Module.farWaits (m : Module) (j : Nat) : Bool := (m.far j).retraining || m.lockLost.contains (32 + j)

/-- Units on the way to a position's memory, or there, are held in reset: domain N of its die, A for scratch, M for a slice (R29, R32). What
is sent to them waits. -/
def Module.clockWaits (m : Module) (s : Site) : Bool :=
  match s with
  | .scratch c _ => m.lockLost.contains (coreDie c * 4) || m.lockLost.contains (coreDie c * 4 + 1)
  | .slice c _ => m.lockLost.contains (coreDie c * 4 + 1) || m.lockLost.contains (coreDie c * 4 + 2)
  | .far j _ => m.lockLost.contains (j / 5 * 4 + 1)
  | _ => false

/-- What holds back an access of n bytes at byte key k of a site: a unit without its clock, a page of range D (a read), a field repair, a far
bus, a slow path for a word whose old value it needs, or one on a page that it writes, its own or that of a cache line it sends to its bank. -/
inductive Hold where
  | clock | dPage | bus | repair (die : Nat) | slow (word : Nat) | page (p : Nat)
  deriving DecidableEq, Repr

/-- The dirty lines that an access sends to their bank (R246, R247): its own where it goes to the bank, else those that make room for its words. -/
def Module.cleaned (m : Module) (s : Site) (k n : Nat) (via : Via) : List Nat :=
  match s, via with
  | .slice _ _, .bank => (wordsOf k n).filter m.lineDirty
  | .slice c _, .cache => (wordsOf k n).filterMap (m.slice c).victim
  | _, _ => []

/-- What holds back the write of a slice word to its bank (R298, R300, R304). -/
def Module.bankHolds (m : Module) (ran : List Nat) (w : Nat) : Option Hold :=
  let c := wordUnit w
  match m.repairHolds (.slice c (wordPage w * 4096)) with
  | some d => some (.repair d)
  | none =>
    if m.needsSlow w && !ran.contains w then some (.slow w)
    else if m.slowOn (20 + coreDie c) (w / 64) then some (.page (w / 64)) else none

/-- What holds back an access now, if anything; `ran` are the words for which a slow path has run for it. -/
def Module.holds (m : Module) (s : Site) (k n : Nat) (write : Bool) (ran : List Nat) (via : Via := .cache) : Option Hold :=
  if m.clockWaits s then some .clock
  else if (match s with | .slice c o => !write && m.dWaits c o n | _ => false) then some .dPage
  else if (match s with | .far j _ => m.farWaits j | _ => false) then some .bus
  else
    match m.repairHolds s with
    | some d => some (.repair d)
    | none =>
      match m.slowWords s k n write ran via with
      | w :: _ => some (.slow w)
      | [] =>
        if write && (match s with | .slice _ _ | .far _ _ => m.slowOn (slowQueue s) (k / 4096) | _ => false) then some (.page (k / 4096))
        else (m.cleaned s k n via).findSome? (m.bankHolds ran)

/-- A request waits behind what holds it. -/
def Module.holdReq (m : Module) (h : HeldReq) (s : Site) (x : Hold) : Module :=
  let u := slowQueue s
  let join (p : SlowPath) : SlowPath := { p with held := p.held ++ [h] }
  match x with
  | .clock => { m with clkHeld := m.clkHeld ++ [h] }
  | .dPage => match s with
    | .slice c _ => m.setSlice c { m.slice c with held := (m.slice c).held ++ [h] }
    | _ => m
  | .bus => match s with
    | .far j _ => m.setFar j { m.far j with held := (m.far j).held ++ [h] }
    | _ => m
  | .repair d => { m with repairs := Tbl.upd none m.repairs d fun r => r.map fun r => { r with held := r.held ++ [h] } }
  | .slow w => (m.slowFor u w join).getD { m with slowBack := Tbl.upd [] m.slowBack u (· ++ [h]) }
  | .page g => m.setSlow u (updFirst (fun p => p.page == g) join (m.slowOf u))

/-! ### Service -/

/-- Performs a request at a site and answers it; a write or atomic that reaches a protected range is refused (R275). -/
def Module.finish (m : Module) (h : HeldReq) (s : Site) (k : Nat) : Module :=
  match s with
  | .slice c o =>
    if !h.isRead && m.protects c o h.size then (m.noteBusy c o h.packet.src.toNat).answer h St.busyRange
    else
      let (m', st, l, bad) := m.perform h s k
      m'.answer h st l bad
  | _ =>
    let (m', st, l, bad) := m.perform h s k
    m'.answer h st l bad

/-- What a request asks of its target. -/
def Module.want (m : Module) (h : HeldReq) : Want :=
  ⟨fareKey (h.part.getD (m.fareOwner h.packet.src.toNat)) h.packet.fare.toNat, h.packet.deadline, h.addr, h.size⟩

/-- Where a request is served, if it is served now: its site and byte key. -/
def Module.servedAt (m : Module) (h : HeldReq) : Option (Site × Nat) :=
  match m.site h.addr with
  | .error _ => none
  | .ok s =>
    match s.key with
    | none => none
    | some k =>
      if m.siteStatus h.by s h.size = St.ok && (m.holds s k h.size (!h.isRead) h.ran).isNone then some (s, k) else none

/-- A request reaches its memory endpoint (R341): it is refused by the position's state, waits behind what holds its page or device,
or is begun and performed. `chosen` marks one that its target chose among others. -/
def Module.deliver (m : Module) (h : HeldReq) (chosen : Bool := false) : Module :=
  match m.site h.addr with
  | .error e => m.answer h e
  | .ok s =>
    let st := m.siteStatus h.by s h.size
    if st ≠ St.ok then (m.noteAbsorb s st).answer h st
    else
      match s.key with
      | none => m.answer h St.unsupported
      | some k =>
        match m.holds s k h.size (!h.isRead) h.ran with
        | some x => m.holdReq h s x
        | none =>
          let m := match s.target with
            | some t => if chosen then m.begin t (m.want h) else m.beginAlone t (m.want h)
            | none => m
          m.finish h s k

/-- (All of them come through the slice's mesh port, input 1 of R246, so that its pointer has nothing to choose among them.)
Requests that are released together: the first, where it is served now, gives way to those of its target that R366 chooses before it;
one that is not served now is answered or held again. -/
def Module.serveList : Nat → Module → List HeldReq → Module
  | 0, m, _ => m
  | _ + 1, m, [] => m
  | fuel + 1, m, h :: t =>
    match (m.servedAt h).bind fun x => x.1.target with
    | none => (m.deliver h).serveList fuel t
    | some tg =>
      let l := h :: t
      let ready := ((List.range l.length).zip l).filter fun x => (m.servedAt x.2).any fun y => y.1.target == some tg
      let (m1, j) := m.pick tg (ready.map fun x => m.want x.2)
      match ready[j]? with
      | none => (m.deliver h).serveList fuel t
      | some (i, x) => (m1.deliver x true).serveList fuel (l.eraseIdx i)

/-- Delivers requests that are released together. -/
def Module.deliverAll (m : Module) (l : List HeldReq) : Module := Module.serveList l.length m l

/-- Reads that waited for a slice's bank operation are delivered again (R274): those still to wait are held anew. -/
def Module.flushReads (m : Module) (t : Nat) : Module :=
  let l := (m.slice t).held
  if l.isEmpty then m else (m.setSlice t { m.slice t with held := [] }).deliverAll l

/-- Requests that found units without their clock are delivered again (R32). -/
def Module.flushClock (m : Module) : Module :=
  if m.clkHeld.isEmpty then m else { m with clkHeld := [] }.deliverAll m.clkHeld

/-- What waits at a slow-path queue that is given up, or whose queue has room again. -/
def Module.takeSlow (m : Module) (u : Nat) : Module × List HeldReq :=
  ({ m with slow := Tbl.set [] m.slow u [], slowBack := Tbl.set [] m.slowBack u [] },
    ((m.slowOf u).map (·.held)).flatten ++ Tbl.get [] m.slowBack u)

end Sys2Proof.Machine
end

