-- ==== Sys2Proof/Machine/Access.lean ====
section
/-! DEFINITION. Accesses that a unit of the module makes for itself, whole: engines, the host endpoint, fabric ports and Ostler (R14, R356,
R364, R384). A unit that must wait makes no progress and tries again. -/

namespace Sys2Proof.Machine

/-- Who makes an access: requester number; the fare tag current when its descriptor was issued (R138); the key under which `Module.ran` keeps
the words for which a slow path has run for it; whether it can wait (a record that is written at an instant includes its wait); and how
it passes a slice's cache. -/
structure Asker where
  src : Nat
  tag : Nat := 0
  key : Nat := 0
  waits : Bool := true
  via : Via := .cache
  /-- the address of the request whose copies these accesses are (R344): its range gives the fare under address source -/
  whole : Option Nat := none
  deriving DecidableEq, Repr

/-- The bytes that the next packet of an access at address a carries: whole 64-byte words up to 512 bytes within a page, or the largest
naturally aligned short size; less than 4 bytes only where the access begins or ends so (R384). -/
def pieceSize (a n : Nat) : Nat :=
  if a % 64 = 0 ∧ 64 ≤ n then min (min (n / 64 * 64) 512) (4096 - a % 4096)
  else if a % 32 = 0 ∧ 32 ≤ n then 32
  else if a % 16 = 0 ∧ 16 ≤ n then 16
  else if a % 8 = 0 ∧ 8 ≤ n then 8
  else if a % 4 = 0 ∧ 4 ≤ n then 4
  else min n (4 - a % 4)

/-- The packets of an access of memory: address and bytes, in ascending order. -/
def piecesOf : Nat → Nat → Nat → List (Nat × Nat)
  | 0, _, _ => []
  | fuel + 1, a, n => if n = 0 then [] else (a, pieceSize a n) :: piecesOf fuel (a + pieceSize a n) (n - pieceSize a n)

/-- A core's access of its own scratch or slice leaves no mesh interface (R145, R246). -/
def Asker.within (q : Asker) (s : Site) : Bool :=
  match s with
  | .scratch c _ | .slice c _ => q.src == c
  | _ => false

/-- What a unit's packet for address a carries (R356, R367): an access that had to wait for its target keeps the deadline of its injection. -/
def Module.stampBy (m : Module) (q : Asker) (a : Nat) : Stamp :=
  match Tbl.get 0 m.tried q.key with
  | 0 => m.stamp q.src a q.tag
  | t + 1 => { m with datum := Tbl.set 0 m.datum (if q.src < 576 then coreDie q.src else 4) t }.stamp q.src a q.tag

/-- The packets of an access are injected at its source and begun at their target: each draws its bucket (R362), where `copies` says over how
many positions it is drawn here, passes its path with its answer (R353), and is charged to its fare (R356, R364). -/
def Module.sendPieces (m : Module) (q : Asker) (s : Site) (kind a n : Nat) (copies : Option Nat := some 1) : Module :=
  let path := if q.within s then [] else m.pathNodes (if q.src < 576 then some q.src else none) (destRouter a s)
  (piecesOf (n / 64 + 12) a n).foldl (fun (m : Module) (x, k) =>
    let st := m.stampBy q ((q.whole.getD a) + (x - a))
    let m := match copies with
      | some j => if q.within s then m else (m.draw (srcIface q.src none) st.vc (flitCharge kind k j)).noteWay path st.vc kind k
      | none => m
    match s.target with
    | some t => m.beginAlone t ⟨fareKey (m.fareOwner q.src) st.tag, st.deadline, x, k⟩
    | none => m) m

/-- A unit's access has been injected and must wait. -/
def Module.noteTried (m : Module) (q : Asker) : Module :=
  { m with tried := Tbl.upd 0 m.tried q.key fun t => if t = 0 then 1 + m.datumOf (if q.src < 576 then coreDie q.src else 4) else t }

/-- A unit must wait: where its own word needs a slow path, the unit is entered there; one that finds the queue full tries again later. -/
def Module.holdAsker (m0 : Module) (q : Asker) (s : Site) (x : Hold) : Module :=
  let m := m0.noteTried q
  match x with
  | .slow w => (m.slowFor (slowQueue s) w fun p =>
      if p.waiters.contains q.key then p else { p with waiters := p.waiters ++ [q.key] }).getD m
  | _ => m

/-- The words for which a slow path has run for a unit. -/
def Module.ranOf (m : Module) (q : Asker) : List Nat := (Tbl.get [] m.ran q.key).map Ran.word

/-- A read of a unit receives what the slow paths that it waited for delivered (R301), whatever has been written since: the bytes read and the
words delivered poisoned, of n bytes at byte key k, with those put in place. -/
def Module.ranInto (m : Module) (q : Asker) (k : Nat) (l : List Byte) (bad : List Nat) : List Byte × List Nat :=
  ((Tbl.get [] m.ran q.key).filter fun r => touchesWord k l.length r.word).foldl (fun (l, bad) r =>
    (((List.range l.length).zip l).map fun (i, b) => if (k + i) / 64 = r.word then r.data.getD ((k + i) % 64) b else b,
      bad.filter (· != r.word) ++ (if r.bad then [r.word] else []))) (l, bad)

/-- What a unit waited for is done: its slow paths are forgotten. -/
def Module.forget (m : Module) (key : Nat) : Module := { m with
    ran := Tbl.set [] m.ran key []
    tried := Tbl.set 0 m.tried key 0
    compEng := m.compEng.filter fun e => e.key != key }

/-- The module in which a unit that met a wait has done nothing yet, but for the slow paths and the companion's answers that it waits for. -/
def Module.backOff (m0 m : Module) : Module :=
  { m0 with slow := m.slow, tried := m.tried, compEng := m.compEng, compTag := m.compTag }

/-- The tokens of source interface i let a step of an engine go, which takes m0 to m (R362): nothing of a channel that it uses waits there, and
the bucket holds what it draws, or is full where that is more than BURST (DESIGN CHOICE, log entry 87). -/
def Module.tokensFor (m0 m : Module) (i : Nat) : Bool :=
  (List.range 4).all fun v =>
    let (rate, burst) := m0.srcReg i v
    let k := bucketKey i v
    let d := Tbl.get 0 m.qos.drawn k - Tbl.get 0 m0.qos.drawn k
    rate == 0 || d == 0 || ((Tbl.get [] m0.qos.held k).isEmpty && decide (Tbl.get 0 m0.qos.drawn k + min d (burst * 5120) ≤ burst * 5120))

/-- The engine of interface i waits for tokens (R378). -/
def Module.starve (m : Module) (i : Nat) : Module := { m with qos := { m.qos with starved := NSet.insert m.qos.starved i } }
/-- It waits no more. -/
def Module.fed (m : Module) (i : Nat) : Module := { m with qos := { m.qos with starved := NSet.erase m.qos.starved i } }

/-- A step of an engine that takes m0 to m, if its interface's tokens let it go; else it has done nothing yet (R362). -/
def Module.regulated (m0 : Module) (i : Nat) (m : Module) : Module := if m0.tokensFor m i then m.fed i else m0.starve i

/-- Ostler's source interface. -/
def ostlerIface : Nat := 586

/-- How an access reaches register space: a read and a write of one packet by a requester at an address. -/
structure RegPort where
  read : Module → Nat → Nat → Nat → Module × List Byte
  write : Module → Nat → Nat → List Byte → Module

/-- Register space as an access meets it whose packets are none of them aligned and of 4 bytes (R14, R41). An engine that reads a queue's READ window
gets zeros and a capture, as of any register, while a mesh packet gets the head packet's bytes (DESIGN CHOICE, log entry 115). -/
def RegPort.errors : RegPort where
  read m src a n := (m.raErr src a n false, List.replicate n 0)
  write m src a l := m.raErr src a l.length true

/-- The packets of a read of register space. -/
def RegPort.readAll (r : RegPort) (m : Module) (src a n : Nat) : Module × List Byte :=
  (piecesOf (n / 64 + 12) a n).foldl (fun (acc : Module × List Byte) (x, k) =>
    let (m, l) := r.read acc.1 src x k
    (m, acc.2 ++ l)) (m, [])

/-- The packets of a write of register space. -/
def RegPort.writeAll (r : RegPort) (m : Module) (src a : Nat) (l : List Byte) : Module :=
  (piecesOf (l.length / 64 + 12) a l.length).foldl (fun (m : Module) (x, k) => r.write m src x ((l.drop (x - a)).take k)) m

/-- An access of a unit to n bytes at offset o of the companion's window (R487): the module, and, once the companion has answered every packet of
it, the status, the bytes and the poisoned units. Its packets are entered where they are not yet; an idle nanosecond sends them. -/
def Module.compAsk (m : Module) (q : Asker) (o n : Nat) (write : Option (List Byte)) : Module × Option (Nat × List Byte × List Nat) :=
  let ps := piecesOf (n / 64 + 12) o n
  let find (x k : Nat) : Option CompReq := m.compEng.find? fun e => e.key == q.key && e.addr == x && e.size == k && e.write.isSome == write.isSome
  let new := ps.filter fun (x, k) => (find x k).isNone
  let got := ps.filterMap fun (x, k) => (find x k).bind fun e => e.ans.map fun r => (x, r)
  if got.length < ps.length then
    ({ m with
      compEng := m.compEng ++ ((List.range new.length).zip new).map (fun (i, x, k) =>
        (⟨q.key, q.src, 16383 - (m.compTag + i) % 8192, false, x, k, write.map fun (l : List Byte) => (l.drop (x - o)).take k, none⟩ : CompReq))
      compTag := m.compTag + new.length }.noteTried q, none)
  else
    (m, some (((got.map fun r => r.2.1).find? (· != St.ok)).getD St.ok, got.flatMap fun r => r.2.2.1,
      got.flatMap fun (x, _, _, bs) => (List.range bs.length).filterMap fun i => if bs.getD i false then some ((x - o) / 64 + i) else none))

/-- A write that passed its source's checks, at its site: the module, and its completion status. What the companion stores is outside the
module; a record that is written at an instant does not wait for its answer (log entry 88). -/
def Module.writeAt (m : Module) (q : Asker) (s : Site) (a : Nat) (l : List Byte) (tag : Nat → Bool) (kind : Nat := 1)
    (copies : Option Nat := some 1) (reg : RegPort := RegPort.errors) : Module × Nat :=
  match s.key with
  | none =>
    let sent (m : Module) : Module := m.sendPieces q s kind a l.length copies
    (match s with
    | .reg => (reg.writeAll (sent m) q.src a l, St.ok)
    | .companion o =>
      if m.companionStatus o l.length ≠ St.ok then (sent m, m.companionStatus o l.length)
      else
        match m.compAsk q o l.length (some l) with
        | (m, none) => if q.waits then (m, St.waits) else (sent m, St.ok)
        | (m, some (st, _, _)) => (sent m, st)
    | _ => (sent m, St.ok))
  | some k =>
    match (if q.waits then m.holds s k l.length true (m.ranOf q) q.via else none) with
    | some x => (m.holdAsker q s x, St.waits)
    | none =>
      let ran := m.ranOf q
      let m := m.sendPieces q s kind a l.length copies
      match s with
      | .slice c o =>
        if m.protects c o l.length then (m.noteBusy c o q.src, St.busyRange) else (m.writeSite s l tag ran q.via, St.ok)
      | _ => (m.writeSite s l tag ran q.via, St.ok)

/-- A request that `gate` stopped with a status: absorbed at its position (R341), or not injected for a link that is down (R337). -/
def Module.stopped (m : Module) (q : Asker) (a st : Nat) : Module :=
  let m := m.noteStop a st
  if st = St.linkDown ∧ q.src < 576 then m.bump F.NOC_LINKDOWN_CNT_COUNT q.src else m

/-- The path of an access waits (R32, R347, R474). -/
def Module.wayWaits (m : Module) (q : Asker) (a : Nat) (s : Site) : Bool :=
  q.waits && !q.within s &&
    m.pathWaits (m.pathNodes (if q.src < 576 then some q.src else none) (destRouter a s)) (m.stamp q.src a q.tag).vc

/-- A write at a local address within a page: the module, and its completion status. -/
def Module.write (m : Module) (q : Asker) (a : Nat) (l : List Byte) (tag : Nat → Bool := fun _ => false)
    (reg : RegPort := RegPort.errors) : Module × Nat :=
  match m.gate q.src a l.length Right.write with
  | .error e => (m.stopped q a e, e)
  | .ok s => if m.wayWaits q a s then (m, St.waits) else m.writeAt q s a l tag 1 (some 1) reg

/-- The status that a write of n bytes of memory within a page would complete with, without the write; a refusal counts as the write's would. -/
def Module.writeProbe (m : Module) (q : Asker) (a n : Nat) : Module × Nat :=
  match m.gate q.src a n Right.write with
  | .error e => (m.stopped q a e, e)
  | .ok s =>
    if m.wayWaits q a s then (m, St.waits)
    else
    match s.key with
    | none => (m, St.ok)
    | some k =>
      match (if q.waits then m.holds s k n true (m.ranOf q) q.via else none) with
      | some x => (m.holdAsker q s x, St.waits)
      | none =>
        match s with
        | .slice c o => if m.protects c o n then (m.noteBusy c o q.src, St.busyRange) else (m, St.ok)
        | _ => (m, St.ok)

/-- A read at a local address within a page: status, bytes, and the words delivered poisoned (R330). -/
def Module.read (m : Module) (q : Asker) (a n : Nat) (reg : RegPort := RegPort.errors) : Module × Nat × List Byte × List Nat :=
  match m.gate q.src a n Right.read with
  | .error e => (m.stopped q a e, e, [], [])
  | .ok s =>
    if m.wayWaits q a s then (m, St.waits, [], [])
    else
    match s.key with
    | none =>
      let sent (m : Module) : Module := m.sendPieces q s 0 a n
      (match s with
      | .reg => let (m', l) := reg.readAll (sent m) q.src a n; (m', St.ok, l, [])
      | .companion o =>
        if m.companionStatus o n ≠ St.ok then (sent m, m.companionStatus o n, [], [])
        else if !q.waits then let (m', l) := (sent m).freshBytes n; (m', St.ok, l, [])
        else
          match m.compAsk q o n none with
          | (m, none) => (m, St.waits, [], [])
          | (m, some (st, l, bad)) => (sent m, st, l, bad)
      | _ => (sent m, St.ok, [], []))
    | some k =>
      match (if q.waits then m.holds s k n false (m.ranOf q) q.via else none) with
      | some x => (m.holdAsker q s x, St.waits, [], [])
      | none =>
        let ran := m.ranOf q
        let (m', l, bad) := (m.sendPieces q s 0 a n).readSite s k n ran q.via
        let (l, bad) := m.ranInto q k l bad
        (m', readStatus bad, l, bad)

/-- A read in pieces that do not cross a 4 KiB page: the status is the first that is neither OK nor POISONED, else POISONED
where a word was; the poison tags are by local address ÷ 64. -/
def Module.readSpanBy (m : Module) (q : Asker) (reg : RegPort) : Nat → Nat → Nat → Module × Nat × List Byte × List Nat
  | 0, _, _ => (m, St.ok, [], [])
  | fuel + 1, a, n =>
    if n = 0 then (m, St.ok, [], [])
    else
      let k := min n (4096 - a % 4096)
      let (m1, st, l, bad) := m.read q a k reg
      if st ≠ St.ok ∧ st ≠ St.poisoned then (m1, st, [], [])
      else
        let base := ((m.keyOf a).getD 0) / 64
        let badHere := bad.map fun w => (a / 64 + (w - base))
        let (m2, st2, l2, bad2) := m1.readSpanBy q reg fuel (a + k) (n - k)
        if st2 ≠ St.ok ∧ st2 ≠ St.poisoned then (m2, st2, [], [])
        else (m2, if st = St.poisoned ∨ st2 = St.poisoned then St.poisoned else St.ok, l ++ l2, badHere ++ bad2)

/-- A write in pieces that do not cross a 4 KiB page; the status is the first that is not OK, and pieces before it stay written. The
tag is by local address ÷ 64. -/
def Module.writeSpanBy (m : Module) (q : Asker) (tag : Nat → Bool) (reg : RegPort) : Nat → Nat → List Byte → Module × Nat
  | 0, _, _ => (m, St.ok)
  | fuel + 1, a, l =>
    if l.isEmpty then (m, St.ok)
    else
      let k := min l.length (4096 - a % 4096)
      let base := ((m.keyOf a).getD 0) / 64
      let (m1, st) := m.write q a (l.take k) (fun w => tag (a / 64 + (w - base))) reg
      if st ≠ St.ok then (m1, st) else m1.writeSpanBy q tag reg fuel (a + k) (l.drop k)

/-- A read in pieces, of memory: register space answers as to a packet that is not one register's. -/
def Module.readSpan (m : Module) (q : Asker) (fuel a n : Nat) : Module × Nat × List Byte × List Nat := m.readSpanBy q RegPort.errors fuel a n
/-- A write in pieces, of memory. -/
def Module.writeSpan (m : Module) (q : Asker) (tag : Nat → Bool) (fuel a : Nat) (l : List Byte) : Module × Nat :=
  m.writeSpanBy q tag RegPort.errors fuel a l

/-- Ostler's accesses: rows that end a command wait for them. -/
def askOstler : Asker := { src := reqOstler, key := reqOstler }

/-- Ostler's accesses of records that are written at an instant: the record includes its wait (DESIGN CHOICE, log entry 88). -/
def askNow : Asker := { src := reqOstler, key := reqOstler, waits := false }

end Sys2Proof.Machine
end

