-- ==== Sys2Proof/Machine/Convert.lean ====
section
/-! DEFINITION. The conversion stage that the array's output path and the vector engine share (R107 to R120): conversion words, block
scales, the lanes' generators, range-monitor slots and the conversion counters; and the tile registers' lane flags (R188, R189). -/

namespace Sys2Proof.Machine

/-- FMT of a conversion word (R107). -/
def cvtFmt (w : Word) : Nat := bitsAt w.toNat 0 4

/-- The format FMT names; FP32 where the code names none (no word in force does). -/
def cvtTarget (w : Word) : Fmt := (Fmt.ofCode (cvtFmt w)).getD .fp32

/-- A conversion word that R107 and R108 accept. -/
def cvtOk (w : Word) : Bool :=
  let n := w.toNat
  let ssrc := bitsAt n 6 2
  decide (cvtFmt w ≤ 9) && bitsAt n 4 2 != 3 && bitsAt n 25 7 == 0 &&
    (if cvtFmt w = 7 ∨ cvtFmt w = 8 ∨ cvtFmt w = 9 then ssrc != 3 && !(ssrc == 2 && bitsAt n 8 8 == 255)
     else ssrc == 0 && bitsAt n 8 8 == 0 && bitsAt n 16 4 == 0)

/-- Whether a word converts stochastically on a core (R107 RND, R50). -/
def Module.cvtStochastic (m : Module) (c : Nat) (w : Word) : Bool :=
  bitsAt w.toNat 4 2 == 2 || (bitsAt w.toNat 4 2 == 0 && m.defaultStochastic c)

/-- The value of a lane's FP32 or INT32 word. -/
def laneVal (int : Bool) (x : Word) : Val := if int then .fin (Dy.ofTwos 32 x.toNat) else Val.ofFp32 x

/-- The block-scale byte of one block's lanes, of which the active ones count (R109, R178); none with no active lane. -/
def blockByte (f : Fmt) (w amax : Word) (lanes : List (Val × Bool)) : Option Nat :=
  let a := (lanes.filter (·.2)).map (·.1)
  if a.isEmpty then none
  else if a.any fun v => !v.isFin then some 255
  else
    let e : Int := match bitsAt w.toNat 6 2 with
      | 0 => blockExp f (a.foldl (fun acc v => match v with | .fin d => Dy.maxMag acc d | _ => acc) (Dy.zero false))
      | 1 => blockExp f (match Val.ofFp32 amax with | .fin d => d | _ => Dy.zero false)
      | _ => (bitsAt w.toNat 8 8 : Int) - 127
    some (e + 127).toNat

/-- The code and flags of one element under a block-scale byte, or under none (R109, R110, R112). -/
def elemCode (f : Fmt) (scale : Option Nat) (v : Val) (by' : RoundBy) : Nat × Flags :=
  match scale, v with
  | some x, .fin d => if x = 255 then (0, Flags.invalid) else f.encode (d.scale (127 - (x : Int))) by'
  | some _, _ => (0, Flags.invalid)
  | none, .fin d => f.encode d by'
  | none, v => f.encodeSpecial v

/-- What a range-monitor slot does with one observed input (R114, R115). -/
def Module.observeInput (m : Module) (c slot : Nat) (int : Bool) (x : Word) (sat : Bool) : Module :=
  let at' (f : Nat) := m.rd F.VEC_MON_VALUE c (slot * 4 + f)
  let bump (m : Module) (f : Nat) := m.bump F.VEC_MON_VALUE c (slot * 4 + f)
  let m1 := if sat then bump m 2 else m
  match laneVal int x with
  | .fin d =>
    let a := if int then (ceilFp32 d.m).toNat else (if d.m = 0 then 0 else x.toNat % 2 ^ 31)
    let m2 := m1.wr F.VEC_MON_VALUE c (max (at' 0) a) (slot * 4)
    if a = 0 then m2 else m2.wr F.VEC_MON_VALUE c (min (at' 1) a) (slot * 4 + 1)
  | _ => bump m1 3

/-- A slot after a clear (R117). -/
def Module.clearSlot (m : Module) (c slot : Nat) : Module :=
  (((m.wr F.VEC_MON_VALUE c 0 (slot * 4)).wr F.VEC_MON_VALUE c 0x7F80_0000 (slot * 4 + 1)).wr F.VEC_MON_VALUE c 0
    (slot * 4 + 2)).wr F.VEC_MON_VALUE c 0 (slot * 4 + 3)

/-- The generators after the active lanes of a stochastic conversion have each advanced once (R111). -/
def advanceLanes (g : Tbl DWord) (act : List Bool) : Tbl DWord :=
  (List.range act.length).foldl (fun t l => if act.getD l false then Tbl.upd 0 t l nextRandom else t) g

/-- The 16 random bits of a lane whose generator has advanced (R110). -/
def lane16 (g : Tbl DWord) (l : Nat) : Nat := ((Tbl.get 0 g l) >>> 48).toNat

/-- One row through the conversion stage under word w: 64 FP32 or INT32 words, the active lanes, and AMAX of the scale slot as read
when the descriptor began (R119). Answers the module with its generators, slots and counters, the codes, the lanes' flags, and the
two block-scale bytes. -/
def Module.convRow (m : Module) (c : Nat) (w : Word) (int : Bool) (xs : List Word) (act : List Bool) (amax : Word) :
    Module × List Nat × List Flags × List (Option Nat) :=
  let f := cvtTarget w
  let copy := decide (f = if int then .int32 else .fp32)
  let sto := m.cvtStochastic c w && !copy
  let k := m.core c
  let gens := if sto then advanceLanes k.gens act else k.gens
  let vals := xs.map (laneVal int)
  let lanes := vals.zip act
  let scales := if f.blockScaled then [blockByte f w amax (lanes.take 32), blockByte f w amax (lanes.drop 32)] else []
  let res := (List.range xs.length).map fun l =>
    if !act.getD l false then (0, (0 : Flags))
    else if copy then ((xs.getD l 0).toNat, 0)
    else elemCode f (if f.blockScaled then scales.getD (l / 32) none else none) (vals.getD l .nan)
      (if sto then .stochastic (lane16 gens l) else .nearest)
  let m1 := m.setCore c { k with gens := gens }
  let m2 := m1.count c 18 (act.filter id).length
  let m3 := (List.range xs.length).foldl (fun (m : Module) l =>
    if act.getD l false then
      let sat := (res.getD l (0, 0)).2.hasSat
      let m := if sat then m.count c (39 + f.code) 1 else m
      if bitsAt w.toNat 24 1 = 1 then m.observeInput c (bitsAt w.toNat 20 4) int (xs.getD l 0) sat else m
    else m) m2
  (m3, res.map (·.1), res.map (·.2), scales)

/-- ORs a lane mask of one flag into LF of a tile register (R188). -/
def Module.orLaneFlag (m : Module) (c k f : Nat) (lanes : Nat) : Module :=
  (m.orBits F.VEC_LFLAG_LO_LANES c (lanes % 2 ^ 32) (k * 8 + f)).orBits F.VEC_LFLAG_HI_LANES c (lanes / 2 ^ 32) (k * 8 + f)

/-- The lanes of a list whose flags hold flag f, as a mask. -/
def laneMask (l : List Flags) (f : Nat) : Nat :=
  (List.range l.length).foldl (fun a i => if Nat.testBit (l.getD i 0).toNat f then a + 2 ^ i else a) 0

/-- ORs the flags of elements written to tile register k into LF and FS (R188). -/
def Module.orTileFlags (m : Module) (c k : Nat) (l : List Flags) : Module :=
  ((List.range 5).foldl (fun (m : Module) f => m.orLaneFlag c k f (laneMask l f)) m).setWord .VEC_TFSUM c k
    (m.word .VEC_TFSUM c k ||| (Flags.orAll l).setWidth 32)

/-- Clears the selected flags of a tile register in FS and in every LF (R189). -/
def Module.clearTileFlags (m : Module) (c k sel : Nat) : Module :=
  ((List.range 5).foldl (fun (m : Module) f =>
    if Nat.testBit sel f then (m.setWord .VEC_LFLAG_LO c (k * 8 + f) 0).setWord .VEC_LFLAG_HI c (k * 8 + f) 0 else m) m).setWord
    .VEC_TFSUM c k (m.word .VEC_TFSUM c k &&& ~~~(BitVec.ofNat 32 (sel % 32)))

/-- LF[k][l] as a number (R190 FSTORE). -/
def Module.laneFlags (m : Module) (c k l : Nat) : Nat :=
  (List.range 5).foldl (fun a f =>
    let w := if l < 32 then m.word .VEC_LFLAG_LO c (k * 8 + f) else m.word .VEC_LFLAG_HI c (k * 8 + f)
    if Nat.testBit w.toNat (l % 32) then a + 2 ^ f else a) 0

/-- The tile register that a scratch offset lies in (R33). -/
def tileOf (o : Nat) : Option Nat := if 0x20_0000 ≤ o ∧ o < 0x21_8000 then some ((o - 0x20_0000) / 0x4000) else none

/-- A row's packed bytes, from its element codes (R95). -/
def packCodes (bits : Nat) (l : List Nat) : Nat := l.foldr (fun x acc => x % 2 ^ bits + acc * 2 ^ bits) 0

/-- Writes the active lanes of a row of `n` elements of `bits` bits at a scratch offset (R177, R178): a row whose lanes are all active
is written whole, otherwise the bytes that hold an active element are, their other bits kept. -/
def Module.writeLanes (m : Module) (c off bits : Nat) (codes : List Nat) (act : List Bool) : Module :=
  let n := codes.length
  let len := n * bits / 8
  if act.all id then m.put (scrKey c off) (leBytes len (packCodes bits codes))
  else
    let old := m.num (scrKey c off) len
    let merged := packCodes bits ((List.range n).map fun l => if act.getD l false then codes.getD l 0 else old / 2 ^ (bits * l) % 2 ^ bits)
    let touched (b : Nat) := (List.range n).any fun l => act.getD l false && decide (l * bits < 8 * b + 8) && decide (8 * b < l * bits + bits)
    (List.range len).foldl (fun (m : Module) b =>
      if touched b then m.put (scrKey c (off + b)) [BitVec.ofNat 8 (merged / 2 ^ (8 * b))] else m) m

end Sys2Proof.Machine
end

