-- ==== Sys2Proof/Machine/Seq.lean ====
section
/-! DEFINITION. The core sequencer (R124 to R140): fetch checks, retiring, issuing into an engine queue, core release, and the meaning
of each instruction of R130. -/

namespace Sys2Proof.Machine

/-- Sign extension of an immediate (R129). -/
def sextImm (imm : Word) : DWord := imm.signExtend 64

/-- The engine queues of a core (R135). -/
inductive Eng where
  | mx | vx | dm | bk
  deriving DecidableEq, Repr

/-- The entries of a queue. -/
def Core.queue (k : Core) : Eng → List Desc
  | .mx => k.mxq | .vx => k.vxq | .dm => k.dmq | .bk => k.bkq

/-- Replaces the entries of a queue. -/
def Core.setQueue (k : Core) (e : Eng) (q : List Desc) : Core :=
  match e with
  | .mx => { k with mxq := q } | .vx => { k with vxq := q } | .dm => { k with dmq := q } | .bk => { k with bkq := q }

/-- Whether a core executes instructions: RUNNING, and no HALT executed. -/
def Core.fetching (k : Core) : Bool := decide (k.st = .running) && !k.halting

/-- Fetches an instruction of a core and acts on it (R139): a core that is not executing stays as it is; a PC outside scratch faults
with FETCH_RANGE, a poisoned line with POISON. -/
def Module.fetch (m : Module) (c : Nat) (act : Module → Core → Module) : Module :=
  let k := m.core c
  if !k.fetching then m
  else if k.pc.toNat ≥ 0x18_0000 then m.coreFault c Flt.fetchRange 0 0 k.pc
  else
    let w := scrKey c k.pc.toNat / 64
    let m' := m.noteWord w
    if m.wordBad w then m'.coreFault c Flt.poison 0 0 k.pc else act m' k

/-- Ends an instruction: the core as it left it, at the next PC. -/
def Module.retireTo (m : Module) (c : Nat) (k : Core) (pc : DWord) : Module := m.setCore c { k with lastPc := k.pc, pc := pc }

/-- Ends an instruction at the following one. -/
def Module.retire (m : Module) (c : Nat) (k : Core) : Module := m.retireTo c k (k.pc + 8)

/-- An instruction that breaks R130 (R139 OP_INVALID). -/
def Module.opInvalid (m : Module) (c : Nat) (k : Core) : Module := m.coreFault c Flt.opInvalid 0 0 k.pc

/-- A scalar instruction that writes one register. -/
def Module.scalar (m : Module) (c dst : Nat) (v : Core → DWord) : Module :=
  m.fetch c fun m k => m.retire c (k.setG dst (v k))

/-- Issues a descriptor into a queue of 8 entries; a full queue stalls the sequencer, which retries the instruction (R133). -/
def Module.issue (m : Module) (c : Nat) (k : Core) (e : Eng) (kind : DescKind) (bits : Nat) (ev : Option Nat) : Module :=
  if (k.queue e).length ≥ 8 then m.wr F.SEQ_STS_ISSUE_STALL c 1
  else (m.wr F.SEQ_STS_ISSUE_STALL c 0).retire c (k.setQueue e (k.queue e ++ [⟨kind, bits, ev, m.fareNow c⟩]))

/-- EV of an issuing instruction, where EVEN is 1 (R130). -/
def evOf (ev : EvId) (even : Bool) : Option Nat := if even then some ev.val else none

/-- `n` scalar registers from src1 on as one number, low word first (R145, R172, R220). -/
def Core.group (k : Core) (src1 n : Nat) : Nat := (List.range n).foldl (fun a i => a + (k.getG (src1 + i)).toNat * 2 ^ (64 * i)) 0

/-- Removes every descriptor of a queue and reports the one it rejects (R139, R193): DESC_REJECTED with the engine's number and
status, which the core takes if it runs. Its PC is that of the instruction last executed when the engine rejects, not that of the issuing
instruction (DESIGN CHOICE, log entry 94). -/
def Module.reject (m : Module) (c : Nat) (e : Eng) (engine status : Nat) (d : Desc) : Module :=
  let m := m.setCore c ((m.core c).setQueue e [])
  let m := m.record (coreDie c) 3 .core c (engine + status * 256 + d.ev.getD 0 * 65536) (d.bits % 2 ^ 64) (d.bits / 2 ^ 64)
  m.coreFault c Flt.descRejected engine status (m.core c).lastPc

/-- Counts a completed descriptor in its event counter (R136) and offers its DESC_DONE record (R564). -/
def Module.descDone (m : Module) (c engine status : Nat) (d : Desc) : Module :=
  let m := match d.ev with | some e => m.tickEvc c e | none => m
  m.record (coreDie c) 2 .core c (engine + status * 256 + d.ev.getD 0 * 65536) (d.bits % 2 ^ 64) 0

/-- A bank operation of a core is in progress on some slice. -/
def Module.bopBusy (m : Module) (c : Nat) : Bool :=
  m.slices.any fun (_, s) => match s.bop with | some b => b.issuer == c && !b.abandoned | none => false

/-- Every queue of a core is empty and every descriptor taken from them has completed (R124). -/
def Module.enginesIdle (m : Module) (c : Nat) : Bool :=
  let k := m.core c
  k.mxq.isEmpty && k.vxq.isEmpty && k.dmq.isEmpty && k.bkq.isEmpty && k.pass.isNone && k.vec.isNone && k.dma.isNone && !m.bopBusy c

/-- Domain A, N or M of a core's die has lost lock (R32). -/
def Module.coreUnclocked (m : Module) (c : Nat) : Bool := (List.range 3).any fun i => m.lockLost.contains (coreDie c * 4 + i)

/-- Release at ENTRY (R126): the core's registers, counters, conversion words, masks, ring counts, lane flags, monitor slots and
generators at their release values, its buckets full (R362), the core RUNNING at its program's entry. A core whose die has lost its clock is held
in reset, and is not released (R32; DESIGN CHOICE, log entry 95). Until its first instruction SEQ_PC shows ENTRY (R165; DESIGN CHOICE, log entry 6). -/
def Module.release (m : Module) (c : Nat) : Module :=
  match m.prog c with
  | none => m
  | some p =>
    if m.coreUnclocked c then m
    else
    let zero (m : Module) (r : Reg) (n : Nat) := (List.range n).foldl (fun (m : Module) i => m.setWord r c i 0) m
    let m := zero m .SEQ_EVC 16
    let m := m.setWord .SEQ_FARE c 0 (BitVec.ofNat 32 (p.cfg.toNat % 256))
    let m := (m.setWord .SEQ_FAULT c 0 0).wr F.SEQ_STS_ISSUE_STALL c 0
    let m := zero m .MXA_CVT 3
    let m := m.wr F.MXA_STS_LAST_ERR c 0
    let m := (zero (zero m .VEC_CVT 3) .VEC_SDST 3).wr F.VEC_STS_LAST_ERR c 0
    let m := (m.wr F.ATN_STS_LAST_ERR c 0).wr F.KVD_STS_LAST_STS c 0
    let m := zero (zero (zero m .VEC_TFSUM 6) .VEC_LFLAG_LO 48) .VEC_LFLAG_HI 48
    let m := zero (zero m .VEC_RWCNT 6) .VEC_RRCNT 6
    let m := (List.range 8).foldl (fun (m : Module) i => (m.setWord .VEC_MASK_LO c i 0xFFFF_FFFF).setWord .VEC_MASK_HI c i 0xFFFF_FFFF) m
    let m := (List.range 16).foldl (fun (m : Module) s => m.clearSlot c s) m
    let entry := BitVec.ofNat 64 p.entry
    let k : Core := { pc := entry, lastPc := entry, gens := (List.range 64).foldl (fun t l => Tbl.set 0 t l (seedLane p.seed l)) [] }
    ((m.refill c).setCore c { k with st := (m.core c).st }).setCoreSt c .running

/-- Pages of a bank operation's range D that bank b holds, in ascending order (R245, R272): page i of the run lies in the bank of its
first page plus i; LOADTAB's one page is its A page. -/
def bopBankPages (d b : Nat) : List Nat :=
  let first := if bitsAt d 0 4 = 9 then bitsAt d 64 19 else bitsAt d 128 19
  (List.range (bitsAt d 160 19)).filter fun i => (first + i) % 64 == b

/-- Banks with a page step under way: those whose pages have not all been stepped. -/
def BopRun.stepping (b : BopRun) : List Nat :=
  (List.range 64).filter fun k => decide (Tbl.get 0 b.done k < (bopBankPages b.desc.bits k).length)

/-- The issuer of a slice's bank operation leaves for HELD (R278): during its clean it ends at once; otherwise each bank ends the page
step it has begun, and no further one starts. -/
def Slice.abandon (s : Slice) (c : Nat) : Slice :=
  match s.bop with
  | some b =>
    if b.issuer ≠ c then s
    else if b.cleaning || b.stepping.isEmpty then { s with bop := none }
    else { s with bop := some { b with abandoned := true } }
  | none => s

/-- A core leaves for HELD (R127): its queues and the descriptors in progress are abandoned; what they wrote stays. -/
def Module.holdCore (m : Module) (c : Nat) : Module :=
  let k := m.core c
  let m := m.setCore c { k with
    wait := none, halting := false, mxq := [], vxq := [], dmq := [], bkq := [], pass := none, vec := none, dma := none, relay := none }
  let m := (List.range 4).foldl (fun (m : Module) p =>
    let t := clusterCore (coreCluster c) p
    let m' := m.setSlice t ((m.slice t).abandon c)
    -- reads that waited for an operation that ends now go on (R274)
    if (m.slice t).bop.isSome && (m'.slice t).bop.isNone then m'.flushReads t else m') m
  let m := (m.forget c).forget (4096 + c)
  let m := m.wr F.SEQ_STS_ISSUE_STALL c 0
  if k.st = .held then m else m.setCoreSt c .held

/-- What an opcode's row names (R130, R351, R404): DST, SRC1, SRC2, EV, EVEN, IMM. -/
structure OpForm where
  dst : Bool
  src1 : Bool
  src2 : Bool
  ev : Bool
  even : Bool
  imm : Bool
  deriving DecidableEq, Repr

/-- The form of an opcode; none where the opcode is reserved. -/
def opForm (op : Nat) : Option OpForm :=
  match op with
  | 0x00 | 0x01 => some ⟨false, false, false, false, false, false⟩
  | 0x02 | 0x03 => some ⟨true, false, false, false, false, true⟩
  | 0x04 => some ⟨true, true, true, false, false, true⟩
  | 0x05 | 0x06 | 0x07 | 0x08 | 0x0B => some ⟨true, true, true, false, false, false⟩
  | 0x09 | 0x0A | 0x0C => some ⟨true, true, false, false, false, true⟩
  | 0x0D => some ⟨false, true, true, false, false, true⟩
  | 0x10 => some ⟨true, true, true, false, false, true⟩
  | 0x18 | 0x1A | 0x1B | 0x1C => some ⟨false, true, false, true, true, false⟩
  | 0x19 => some ⟨false, true, false, true, true, true⟩
  | 0x1D => some ⟨false, true, false, false, false, false⟩
  | 0x20 => some ⟨false, true, false, true, false, false⟩
  | 0x21 => some ⟨true, false, false, true, false, false⟩
  | 0x22 => some ⟨false, false, false, false, false, true⟩
  | 0x23 => some ⟨true, false, false, false, false, false⟩
  | 0x28 | 0x2A => some ⟨false, true, false, false, false, true⟩
  | 0x29 | 0x2B => some ⟨false, true, true, false, false, true⟩
  | 0x2C | 0x2D | 0x2E => some ⟨true, false, false, false, false, false⟩
  | 0x30 | 0x31 | 0x32 | 0x33 => some ⟨true, true, true, false, false, true⟩
  | 0x34 => some ⟨true, true, false, false, false, true⟩
  | _ => none

/-- An instruction word that R129, R130, R131, R351 and R404 allow. -/
def coreWordOk (word : DWord) : Bool :=
  let w := word.toNat
  let op := bitsAt w 0 8
  let dst := bitsAt w 8 4
  let src1 := bitsAt w 12 4
  let imm := bitsAt w 32 32
  match opForm op with
  | none => false
  | some f =>
    (f.dst || dst == 0) && (f.src1 || src1 == 0) && (f.src2 || bitsAt w 16 4 == 0) && (f.ev || bitsAt w 20 4 == 0)
      && (f.even || bitsAt w 24 1 == 0) && bitsAt w 25 7 == 0 && (f.imm || imm == 0)
      && (match op with
        | 0x09 | 0x0A => decide (imm < 64)
        | 0x10 => decide (dst < 7)
        | 0x18 | 0x1A | 0x1D => decide (src1 % 2 = 0)
        | 0x1B | 0x1C => decide (src1 % 4 = 0)
        | 0x19 => decide (1 ≤ imm) && decide (imm ≤ 3)
        | 0x22 | 0x30 | 0x31 | 0x32 | 0x33 => decide (imm < 256)
        | 0x2C | 0x2D => decide (dst % 2 = 0) && decide (2 ≤ dst)
        | 0x34 => decide (imm < 2)
        | _ => true)

/-- A fetched word that R129 to R131, R351 or R404 forbid faults; one that they allow is another command's. -/
def Module.reservedWord (m : Module) (c : Nat) (word : DWord) : Module :=
  if coreWordOk word then m else m.fetch c fun m k => m.opInvalid c k

/-! ### The instructions -/

/-- NOP (R130). -/
def execNop (c : CoreId) (s : State) : Res := s.done (s.m.fetch c fun m k => m.retire c k)

/-- HALT (R124, R130): stops fetching; HALT_COMPLETE makes the core HALTED. -/
def execHalt (c : CoreId) (s : State) : Res := s.done (s.m.fetch c fun m k => m.retire c { k with halting := true })

/-- HALT_COMPLETE (R124): a core that has executed HALT and whose engines are idle becomes HALTED. -/
def execHaltComplete (c : CoreId) (s : State) : Res :=
  let k := s.m.core c
  s.done (if k.st = .running ∧ k.halting ∧ s.m.enginesIdle c then (s.m.setCore c { k with halting := false }).setCoreSt c .halted else s.m)

/-- LI (R130): G[DST] = sext(IMM). -/
def execLi (c : CoreId) (dst : GReg) (imm : Word) (s : State) : Res := s.done (s.m.scalar c dst fun _ => sextImm imm)

/-- LIH (R130): G[DST][63:32] = IMM. -/
def execLih (c : CoreId) (dst : GReg) (imm : Word) (s : State) : Res :=
  s.done (s.m.scalar c dst fun k => imm ++ (k.getG dst).setWidth 32)

/-- ADD (R130): G[DST] = G[SRC1] + G[SRC2] + sext(IMM). -/
def execAdd (c : CoreId) (dst src1 src2 : GReg) (imm : Word) (s : State) : Res :=
  s.done (s.m.scalar c dst fun k => k.getG src1 + k.getG src2 + sextImm imm)

/-- SUB (R130). -/
def execSub (c : CoreId) (dst src1 src2 : GReg) (s : State) : Res :=
  s.done (s.m.scalar c dst fun k => k.getG src1 - k.getG src2)

/-- AND (R130). -/
def execAnd (c : CoreId) (dst src1 src2 : GReg) (s : State) : Res :=
  s.done (s.m.scalar c dst fun k => k.getG src1 &&& k.getG src2)

/-- OR (R130). -/
def execOr (c : CoreId) (dst src1 src2 : GReg) (s : State) : Res :=
  s.done (s.m.scalar c dst fun k => k.getG src1 ||| k.getG src2)

/-- XOR (R130). -/
def execXor (c : CoreId) (dst src1 src2 : GReg) (s : State) : Res :=
  s.done (s.m.scalar c dst fun k => k.getG src1 ^^^ k.getG src2)

/-- MUL (R130): the low 64 bits of the product. -/
def execMul (c : CoreId) (dst src1 src2 : GReg) (s : State) : Res :=
  s.done (s.m.scalar c dst fun k => k.getG src1 * k.getG src2)

/-- A shift whose IMM[31:6] must be 0 (R130). -/
def Module.shift (m : Module) (c dst : Nat) (imm : Word) (v : Core → DWord) : Module :=
  m.fetch c fun m k => if imm.toNat ≥ 64 then m.opInvalid c k else m.retire c (k.setG dst (v k))

/-- SHL (R130). -/
def execShl (c : CoreId) (dst src1 : GReg) (imm : Word) (s : State) : Res :=
  s.done (s.m.shift c dst imm fun k => k.getG src1 <<< imm.toNat)

/-- SHR (R130), logical. -/
def execShr (c : CoreId) (dst src1 : GReg) (imm : Word) (s : State) : Res :=
  s.done (s.m.shift c dst imm fun k => k.getG src1 >>> imm.toNat)

/-- The address of an LD or ST lies within R132. -/
def scrWordOk (a : DWord) : Bool := decide (a.toNat % 8 = 0) && scrPopulated a.toNat 8

/-- LD (R132): loads 8 bytes of scratch; an address that R132 forbids faults with MEM_RANGE, a poisoned line with POISON. -/
def execLd (c : CoreId) (dst src1 : GReg) (imm : Word) (s : State) : Res :=
  s.done (s.m.fetch c fun m k =>
    let a := k.getG src1 + sextImm imm
    if !scrWordOk a then m.coreFault c Flt.memRange 0 0 k.pc
    else
      let (m', l, bad) := m.load' (scrKey c a.toNat) 8
      if bad.isEmpty then m'.retire c (k.setG dst (BitVec.ofNat 64 (leNat l))) else m'.coreFault c Flt.poison 0 0 k.pc)

/-- ST (R132): stores 8 bytes to scratch. -/
def execSt (c : CoreId) (src1 src2 : GReg) (imm : Word) (s : State) : Res :=
  s.done (s.m.fetch c fun m k =>
    let a := k.getG src1 + sextImm imm
    if !scrWordOk a then m.coreFault c Flt.memRange 0 0 k.pc
    else (m.put (scrKey c a.toNat) (leBytes 8 (k.getG src2).toNat)).retire c k)

/-- The branch conditions of R131; none for a reserved code. -/
def brTaken (cond : Nat) (a b : DWord) : Option Bool :=
  match cond with
  | 0 => some true
  | 1 => some (a == b)
  | 2 => some (a != b)
  | 3 => some (a.slt b)
  | 4 => some (!a.slt b)
  | 5 => some (a.ult b)
  | 6 => some (!a.ult b)
  | _ => none

/-- BR (R131): a taken branch adds sext(IMM) × 8 to its own PC. -/
def execBr (c : CoreId) (cond : Fin 16) (src1 src2 : GReg) (imm : Word) (s : State) : Res :=
  s.done (s.m.fetch c fun m k =>
    match brTaken cond (k.getG src1) (k.getG src2) with
    | none => m.opInvalid c k
    | some t => m.retireTo c k (if t then k.pc + sextImm imm * 8 else k.pc + 8))

/-- Issues the descriptor in a group of `n` registers, which must be aligned to its size (R130). -/
def Module.issueGroup (m : Module) (c src1 n : Nat) (e : Eng) (kind : DescKind) (ev : Option Nat) : Module :=
  m.fetch c fun m k => if src1 % n ≠ 0 then m.opInvalid c k else m.issue c k e kind (k.group src1 n) ev

/-- MPASS (R145). -/
def execMpass (c : CoreId) (src1 : GReg) (ev : EvId) (even : Bool) (s : State) : Res :=
  s.done (s.m.issueGroup c src1 2 .mx .mpass (evOf ev even))

/-- MCVT (R130, R149): MXA_CVT[IMM] = G[SRC1][31:0] in matrix-queue order. -/
def execMcvt (c : CoreId) (src1 : GReg) (ev : EvId) (even : Bool) (imm : Word) (s : State) : Res :=
  s.done (s.m.fetch c fun m k =>
    if imm = 0 ∨ imm.toNat > 3 then m.opInvalid c k
    else m.issue c k .mx (.mcvt imm.toNat) ((k.getG src1).toNat % 2 ^ 32) (evOf ev even))

/-- VOP (R172). -/
def execVop (c : CoreId) (src1 : GReg) (ev : EvId) (even : Bool) (s : State) : Res :=
  s.done (s.m.issueGroup c src1 2 .vx .vop (evOf ev even))

/-- DMA (R220). -/
def execDma (c : CoreId) (src1 : GReg) (ev : EvId) (even : Bool) (s : State) : Res :=
  s.done (s.m.issueGroup c src1 4 .dm .dma (evOf ev even))

/-- BOP (R260). -/
def execBop (c : CoreId) (src1 : GReg) (ev : EvId) (even : Bool) (s : State) : Res :=
  s.done (s.m.issueGroup c src1 4 .bk .bop (evOf ev even))

/-- ATN (R200). -/
def execAtn (c : CoreId) (src1 : GReg) (s : State) : Res := s.done (s.m.issueGroup c src1 2 .vx .atn none)

/-- The WAIT condition: (int32)(EVC[EV] − target) ≥ 0. -/
def waitMet (evc target : Word) : Bool := !(evc - target).msb

/-- WAIT (R130, R137): satisfied at once, or the core is WAITING. -/
def execWait (c : CoreId) (src1 : GReg) (ev : EvId) (s : State) : Res :=
  s.done (s.m.fetch c fun m k =>
    let target := (k.getG src1).setWidth 32
    if waitMet (m.evc c ev) target then m.retire c k
    else (m.setCore c { k with wait := some (.event ev target), lastPc := k.pc }).setCoreSt c .waiting)

/-- WAIT_SATISFIED (R137): a core whose awaited counter has reached its target resumes after the WAIT. -/
def execWaitSatisfied (c : CoreId) (s : State) : Res :=
  let k := s.m.core c
  s.done (match k.st, k.wait with
    | .waiting, some (.event e t) =>
      if waitMet (s.m.evc c e) t then (s.m.setCoreSt c .running).retire c { k with st := .running, wait := none } else s.m
    | _, _ => s.m)

/-- WAIT_TIMEOUT (R128): a WAITING core with a limit faults. -/
def execWaitTimeout (c : CoreId) (s : State) : Res :=
  let k := s.m.core c
  s.done (if k.st = .waiting ∧ bitsAt (s.m.seqCfg c) 8 4 ≠ 0 then s.m.coreFault c Flt.waitTimeout 0 0 k.pc else s.m)

/-- EVRD (R130). -/
def execEvrd (c : CoreId) (dst : GReg) (ev : EvId) (s : State) : Res :=
  s.done (s.m.scalar c dst fun _ => (s.m.evc c ev).setWidth 64)

/-- TASK (R130): the current fare tag; IMM[31:8] must be 0. -/
def execTask (c : CoreId) (imm : Word) (s : State) : Res :=
  s.done (s.m.fetch c fun m k =>
    if imm.toNat ≥ 256 then m.opInvalid c k else (m.wr F.SEQ_FARE_FARE c imm.toNat).retire c k)

/-- DATUM (R130, R31). -/
def execDatum (c : CoreId) (dst : GReg) (s : State) : Res :=
  s.done (s.m.scalar c dst fun _ => BitVec.ofNat 64 (s.m.datumOf (coreDie c)))

/-- RESERVED_OPCODE (R139): a word that R129 to R131, R351 or R404 forbid faults with OP_INVALID. -/
def execReservedOpcode (c : CoreId) (word : DWord) (s : State) : Res := s.done (s.m.reservedWord c word)

end Sys2Proof.Machine
end

