-- ==== Sys2Proof/Machine/Matrix.lean ====
section
/-! DEFINITION. The matrix array (R144 to R163): the checks of a pass descriptor, its bundle, the arithmetic of one streamed row (R99
to R106), the output path, the ring, and MCVT. -/

namespace Sys2Proof.Machine

/-! ### The descriptor (R145) -/

/-- WFMT code. -/
def mpW (d : Nat) : Nat := bitsAt d 0 4
/-- AFMT code. -/
def mpA (d : Nat) : Nat := bitsAt d 4 4
/-- A one-bit field. -/
def bitOf (d i : Nat) : Bool := bitsAt d i 1 == 1
/-- LOAD. -/
def mpLoad (d : Nat) : Bool := bitOf d 8
/-- SCX. -/
def mpScx (d : Nat) : Bool := bitOf d 9
/-- ASRC: the core's slice. -/
def mpSlice (d : Nat) : Bool := bitOf d 10
/-- DST: scratch. -/
def mpScratch (d : Nat) : Bool := bitOf d 11
/-- ACC. -/
def mpAcc (d : Nat) : Bool := bitOf d 12
/-- DRING. -/
def mpRing (d : Nat) : Bool := bitOf d 13
/-- CVTSEL. -/
def mpCvt (d : Nat) : Nat := bitsAt d 14 2
/-- ROWS_M1 + 1. -/
def mpRows (d : Nat) : Nat := bitsAt d 16 24 + 1
/-- Byte offset of the bundle. -/
def mpTile (d : Nat) : Nat := bitsAt d 40 15 * 64
/-- Byte offset of row 0. -/
def mpAaddr (d : Nat) : Nat := bitsAt d 55 25 * 64
/-- ASTRIDE in bytes. -/
def mpStride (d : Nat) : Nat := bitsAt d 80 8 * 64
/-- Byte offset of the activation scales. -/
def mpAscale (d : Nat) : Nat := bitsAt d 88 25 * 64
/-- DEST. -/
def mpDest (d : Nat) : Nat := bitsAt d 113 15

/-- Row size of R97. -/
def mpRowSize (d : Nat) : Nat := if mpW d = 9 ∧ (mpA d = 7 ∨ mpA d = 8) then 128 else 64

/-- Row pitch (R147). -/
def mpPitch (d : Nat) : Nat := if mpStride d = 0 then mpRowSize d else mpStride d

/-- Twice g of R99, so that 16-bit pairs have 1; none for a pair outside the table. -/
def pairG2 : Fmt → Fmt → Option Nat
  | .t2, .fp4 | .t2, .int4 => some 8
  | .c4, .fp4 | .c4, .int4 | .fp4, .fp4 | .fp4, .int4 | .int4, .fp4 | .int4, .int4 => some 4
  | .e4m3, .e4m3 | .e4m3, .e5m2 | .e5m2, .e4m3 | .e5m2, .e5m2 => some 2
  | .int8, .int8 => some 2
  | .bf16, .bf16 | .fp16, .fp16 => some 1
  | _, _ => none

/-- The pair of a descriptor with its K_t, where R99 has it. -/
def mpPair (d : Nat) : Option (Fmt × Fmt × Nat) :=
  match Fmt.ofCode (mpW d), Fmt.ofCode (mpA d) with
  | some w, some a => (pairG2 w a).map fun g => (w, a, 32 * g)
  | _, _ => none

/-- Bytes of the array after the tile (A of R146). -/
def bundleAux : Fmt → Nat
  | .t2 => 512
  | .fp4 | .int4 => 256
  | .c4 => 64
  | _ => 0

/-- Formats that may name a sidecar (R104). -/
def sidecarFmt : Fmt → Bool
  | .t2 | .c4 | .fp4 | .int4 | .e4m3 | .e5m2 => true
  | _ => false

/-- A block-scaled activation format code. -/
def scaledCode (a : Nat) : Bool := a == 7 || a == 8 || a == 9

/-- Bytes of an output row (R158). -/
def Module.mpOutRow (m : Module) (c d : Nat) : Nat :=
  if mpCvt d = 0 then 256 else 64 * (cvtTarget (m.word .MXA_CVT c (mpCvt d - 1))).bits / 8

/-! ### Checks (R148) -/

/-- Step 1 of R148. -/
def Module.mpInvalid (m : Module) (c d : Nat) : Bool :=
  (!mpScratch d && (bitsAt (mpDest d) 3 12 != 0 || decide (mpDest d % 8 > 5)))
  || (!mpLoad d && (mpScx d || mpTile d != 0))
  || (mpRing d && mpScratch d)
  || (!mpScratch d && mpCvt d != 0)
  || (mpAcc d && mpCvt d != 0)
  || (!mpScratch d && !mpRing d && decide (mpRows d > 64))
  || (mpStride d != 0 && decide (mpStride d < mpRowSize d))
  || (mpAscale d != 0 && !scaledCode (mpA d) && decide (mpA d ≤ 10))
  || (!mpLoad d && (match (m.core c).tile with | some t => t.fmt.code != mpW d | none => false))

/-- COUNT of a bundle's sidecar, as far as R105 lets it be read. -/
def Module.sideCount (m : Module) (c d : Nat) (w : Fmt) : Nat :=
  m.num (scrKey c (mpTile d + 4096 + bundleAux w)) 4 % 2048

/-- (Of a sidecar, a COUNT above 1,024 is taken as 0 entries, and one in a header line that reads poisoned as stored: DESIGN CHOICE, log entry 13.)
Step 4 of R148: some byte of the bundle, the rows, the scales or the destination lies outside its range. -/
def Module.mpRange (m : Module) (c d : Nat) (w a : Fmt) (kt : Nat) : Bool :=
  let n := mpRows d
  let lim := if mpSlice d then 0x5000_0000 else 0x18_0000
  let bundle := mpTile d + 4096 + bundleAux w
  (mpLoad d && decide (bundle > 0x18_0000))
  || (mpLoad d && mpScx d && (decide (bundle + 4 > 0x18_0000) ||
      decide (bundle + 4 + 4 * (if m.sideCount c d w > 1024 then 0 else m.sideCount c d w) > 0x18_0000)))
  || decide (mpAaddr d + (n - 1) * mpPitch d + mpRowSize d > lim)
  || (a.blockScaled && decide (mpAscale d + n * (kt / 32) > lim))
  || (mpScratch d && decide (mpDest d * 64 + n * m.mpOutRow c d > 0x18_0000))

/-- The entries of a sidecar. -/
def Module.sideEntries (m : Module) (k n : Nat) : List SideEntry :=
  (List.range n).map fun i =>
    let e := m.num (k + 4 + 4 * i) 4
    ⟨bitsAt e 0 8, bitsAt e 8 6, bitsAt e 16 8, bitsAt e 24 8⟩

/-- Entries keep the order and the limit of R105. -/
def sideOrdered (l : List SideEntry) : Bool :=
  (l.zip l.tail).all (fun (a, b) => decide (a.col * 256 + a.row < b.col * 256 + b.row))
    && l.all fun e => decide ((l.filter fun x => x.col == e.col && x.row / 64 == e.row / 64).length ≤ 4)

/-- A sidecar that R104 and R105 accept. -/
def Module.sideOk (m : Module) (k kt : Nat) : Bool :=
  let n := m.num k 4
  decide (n ≤ 1024) && (List.range n).all (fun i => bitsAt (m.num (k + 4 + 4 * i) 4) 14 2 == 0)
    && (let l := m.sideEntries k n; l.all (fun e => decide (e.row < kt)) && sideOrdered l)

/-- The lines of scratch words delivered poisoned, as line offsets from a key. -/
def badLines (k : Nat) (bad : List Nat) : List Nat := bad.map fun w => w - k / 64

/-- Counts poisoned lines that the array reads (R163). -/
def Module.mxaPoison (m : Module) (c n : Nat) : Module := m.bumpBy F.MXA_POISON_CNT_COUNT c n

/-- Loads a bundle into the array (R146, R163): the tile, or SIDECAR_INVALID. A sidecar with a poisoned line is not held to R105
(DEDUCED, log entry 13). -/
def Module.loadTile (m : Module) (c d : Nat) (w : Fmt) (kt : Nat) : Module × Option Tile :=
  let base := scrKey c (mpTile d)
  let (m1, data, bad1) := m.load' base 4096
  let (m2, aux, bad2) := m1.load' (base + 4096) (bundleAux w)
  let sk := base + 4096 + bundleAux w
  let n := m.num sk 4 % 2048
  let (m3, _, bad3) := if mpScx d then m2.load' sk (4 + 4 * (if n > 1024 then 0 else n)) else (m2, [], [])
  let m4 := m3.mxaPoison c (bad1.length + bad2.length + bad3.length)
  if mpScx d && (!sidecarFmt w || (bad3.isEmpty && !m.sideOk sk kt)) then (m4, none)
  else
    let perLine := match w with | .t2 => 8 | .fp4 | .int4 => 16 | _ => 64
    let cols := badLines base bad1 ++
      ((badLines (base + 4096) bad2).map fun l => (List.range perLine).map fun j => l * perLine + j).flatten ++
      (if bad3.isEmpty then [] else List.range 64)
    (m4, some ⟨w, data, aux, if mpScx d && bad3.isEmpty then m.sideEntries sk n else [], cols.foldl NSet.insert []⟩)

/-! ### One streamed row (R100 to R106) -/

/-- Element k of a packed array (R95). -/
def packedAt (bits : Nat) (l : List Byte) (k : Nat) : Nat :=
  if bits = 16 then (l.getD (2 * k) 0).toNat + 256 * (l.getD (2 * k + 1) 0).toNat
  else if bits = 32 then leNat ((l.drop (4 * k)).take 4)
  else (l.getD (k * bits / 8) 0).toNat / 2 ^ (k * bits % 8) % 2 ^ bits

/-- A decoded weight of column j, row i, before its block scale; a C4 index gives its codebook entry (R92). -/
def Tile.weight (t : Tile) (j i : Nat) : Val :=
  let code := packedAt t.fmt.bits ((t.data.drop (64 * j)).take 64) i
  match t.fmt with
  | .c4 => Fmt.decode .e4m3 (t.aux.getD code 0).toNat
  | f => f.decode code

/-- Column j holds the T2 code that is not a value (R92). -/
def Tile.hasBadCode (t : Tile) (j kt : Nat) : Bool :=
  (List.range kt).any fun i => t.fmt.badCode (packedAt t.fmt.bits ((t.data.drop (64 * j)).take 64) i)

/-- The weight scale of block b of column j; 1 for a format without (R96). -/
def Tile.scale (t : Tile) (j b kt : Nat) : Val :=
  if t.fmt.blockScaled then Val.ofE8m0 (t.aux.getD (j * (kt / 32) + b) 0).toNat else .fin (Dy.ofInt 1)

/-- One partial sum: FP32 with its flags, or INT32 with the number of clamps. -/
structure Psum where
  v : Val
  fl : Flags
  clamps : Nat
  deriving DecidableEq, Repr

/-- Adds an exact term with one rounding (R100 to R102). -/
def Psum.add (int : Bool) (p : Psum) (x : Val) : Psum :=
  match int, p.v.add x with
  | true, .fin d =>
    let (i, fl) := clampInt32 (d.at 0)
    ⟨.fin (Dy.ofInt i), p.fl ||| fl, if fl.hasSat then p.clamps + 1 else p.clamps⟩
  | _, v => let (r, fl) := v.round; ⟨r, p.fl ||| fl, p.clamps⟩

/-- The pass result of column j for one row (R100, R106): `act i` is the decoded activation, `ascale b` its block scale. -/
def columnSum (t : Tile) (a : Fmt) (kt : Nat) (act : Nat → Val) (ascale : Nat → Val) (j : Nat) : Psum :=
  let int := decide (a = .int8)
  let g := max 1 (kt / 64)
  let stages := kt / g
  let p := (List.range stages).foldl (fun p s =>
    let sum := Val.sum ((List.range g).map fun x => (t.weight j (s * g + x)).mul (act (s * g + x)))
    let b := s * g / 32
    p.add int (if a.blockScaled then (sum.mul (t.scale j b kt)).mul (ascale b) else sum)) ⟨.fin (Dy.zero false), 0, 0⟩
  t.side.foldl (fun p e =>
    if e.col = j then
      let ar := (act e.row).mul (if a.blockScaled then ascale (e.row / 32) else .fin (Dy.ofInt 1))
      p.add false (((Fmt.decode .e4m3 e.value).mul (Val.ofE8m0 e.scale)).mul ar)
    else p) p

/-- The accesses of a core's activation port for a descriptor with a fare tag: they allocate no line in the slice's cache (R138, R247). -/
def askArray (c tag : Nat) : Asker := { src := c, tag := tag, key := 4096 + c, via := .port }

/-- Reads activations or their scales at a pass's source offset (R145 ASRC): scratch, or the core's own slice, charged there to the descriptor's
fare (R356, R364). -/
def Module.actRead (m : Module) (c : Nat) (x : Desc) (o n : Nat) : Module × List Byte × List Nat :=
  if mpSlice x.bits then
    let q := askArray c x.fare
    let s := Site.slice c o
    let (m', l, bad) := (m.sendPieces q s 0 (0x1000_0000_0000 + c * 0x8000_0000 + o) n).readSite s (nearKey c o) n (m.ranOf q) q.via
    (m', m.ranInto q (nearKey c o) l bad)
  else m.load' (scrKey c o) n

/-- What holds back a read of activations now: a page of range D, a field repair, a slow path (R274, R300, R304). -/
def Module.actHolds (m : Module) (c : Nat) (x : Desc) (o n : Nat) : Option (Site × Hold) :=
  if mpSlice x.bits then
    let q := askArray c x.fare
    (m.holds (.slice c o) (nearKey c o) n false (m.ranOf q) q.via).map fun h => (.slice c o, h)
  else none

/-- The counter of a pair (R553). -/
def macCounter : Fmt → Nat
  | .t2 => 3
  | .c4 | .fp4 | .int4 => 4
  | .e4m3 | .e5m2 => 5
  | .int8 => 6
  | .bf16 => 7
  | _ => 8

/-- Destination offset of output row r (R158). -/
def Module.mpDestOff (m : Module) (c d r : Nat) : Nat :=
  if mpScratch d then mpDest d * 64 + r * m.mpOutRow c d
  else 0x20_0000 + mpDest d % 8 * 0x4000 + (if mpRing d then r % 64 else r) * 256

/-- Streams row r of a pass through the tile, and writes its output row (R147, R158, R160, R163). A line of activation scales that several
rows share is read, and counted where it is poisoned, once for each row (DESIGN CHOICE, log entry 93). -/
def Module.passRow (m : Module) (c : Nat) (t : Tile) (p : PassRun) (r : Nat) : Module × PassRun :=
  let d := p.desc.bits
  match mpPair d with
  | none => (m, p)
  | some (w, a, kt) =>
    let int := decide (a = .int8)
    let (m1, row, bad1) := m.actRead c p.desc (mpAaddr d + r * mpPitch d) (mpRowSize d)
    let (m2, sc, bad2) :=
      if a.blockScaled then m1.actRead c p.desc (mpAscale d + r * (kt / 32)) (kt / 32) else (m1, [], [])
    let off := m.mpDestOff c d r
    let (m3, old, bad3) := if mpAcc d then m2.load' (scrKey c off) 256 else (m2, [], [])
    let m4 := m3.mxaPoison c (bad1.length + bad2.length + bad3.length)
    let rowBad := !bad1.isEmpty || !bad2.isEmpty
    let act (i : Nat) : Val := a.decode (packedAt a.bits row i)
    let ascale (b : Nat) : Val := Val.ofE8m0 (sc.getD b 0).toNat
    let outs := (List.range 64).map fun j =>
      if rowBad || t.badCols.contains j || bad3.contains ((scrKey c off + 4 * j) / 64) then
        (if int then (0 : Word) else fp32Nan, Flags.invalid, 0)
      else
        let s := columnSum t a kt act ascale j
        let s := if mpAcc d then s.add int (laneVal int (BitVec.ofNat 32 (leNat ((old.drop (4 * j)).take 4)))) else s
        let fl := s.fl ||| Flags.when (t.hasBadCode j kt) Flags.invalid
        if int then (BitVec.ofInt 32 (match s.v with | .fin x => x.at 0 | _ => 0), fl, s.clamps)
        else (s.v.toFp32.1, fl ||| s.v.toFp32.2, 0)
    let words := outs.map (·.1)
    let m5 := m4.count c (macCounter w) (64 * kt)
    let m6 := (m5.count c 11 t.side.length).count c 39 (outs.foldl (fun n o => n + o.2.2) 0)
    let all := List.replicate 64 true
    let fl1 := outs.map (·.2.1)
    if mpCvt d = 0 then
      let m7 := m6.writeLanes c off 32 (words.map (·.toNat)) all
      let m8 := if mpRing d then m7.wr F.VEC_RWCNT_COUNT c (r + 1) (mpDest d % 8) else m7
      (m8, { p with next := r + 1, flags := p.flags ||| Flags.orAll fl1, lanes := Flags.zipOr p.lanes fl1 })
    else
      let cvt := m.word .MXA_CVT c (mpCvt d - 1)
      let (m7, codes, fl2, _) := m6.convRow c cvt int words all 0
      let fl := Flags.zipOr fl1 fl2
      (m7.writeLanes c off (cvtTarget cvt).bits codes all,
        { p with next := r + 1, flags := p.flags ||| Flags.orAll fl, lanes := Flags.zipOr p.lanes fl })

/-- Row r of a ring pass awaits the release of row r − 64 (R159, R184). -/
def Module.ringHeld (m : Module) (c d r : Nat) : Bool :=
  mpRing d && decide (64 ≤ r) && decide (m.rd F.VEC_RRCNT_COUNT c (mpDest d % 8) + 63 < r)

/-- What holds back the reads of row r of a pass: its activations or their block scales. -/
def Module.rowHolds (m : Module) (c : Nat) (x : Desc) (r : Nat) : Option (Site × Hold) :=
  let d := x.bits
  match m.actHolds c x (mpAaddr d + r * mpPitch d) (mpRowSize d) with
  | some h => some h
  | none =>
    match mpPair d with
    | some (_, a, kt) => if a.blockScaled then m.actHolds c x (mpAscale d + r * (kt / 32)) (kt / 32) else none
    | none => none

/-- The array waits for a ring release (MXA_STS.STALL_RING). -/
def Module.stallRing (m : Module) (c : Nat) : Bool :=
  match (m.core c).pass with
  | some p => decide (p.next < mpRows p.desc.bits) && m.ringHeld c p.desc.bits p.next
  | none => false

/-- Writes rows from the next one on, up to row `n`, while they need no ring release and nothing holds back their reads; `n` bounds the rows. -/
def Module.passRows (m : Module) (c : Nat) (t : Tile) : Nat → PassRun → Nat → Module × PassRun
  | 0, p, _ => (m, p)
  | fuel + 1, p, n =>
    if p.next ≥ n ∨ m.ringHeld c p.desc.bits p.next then (m, p)
    else
      match m.rowHolds c p.desc p.next with
      | some (s, x) => (m.holdAsker (askArray c p.desc.fare) s x, p)
      | none =>
        let (m', p') := m.passRow c t p p.next
        (m'.forget (4096 + c)).passRows c t fuel p' n

/-- Writes what rows of the pass in the array may be written. -/
def Module.runPass (m : Module) (c : Nat) (n : Nat) : Module :=
  let k := m.core c
  match k.pass, k.tile with
  | some p, some t =>
    let n := min n (mpRows p.desc.bits)
    let (m', p') := m.passRows c t (n - p.next) p n
    m'.setCore c { m'.core c with pass := some p' }
  | _, _ => m

/-- Rejects the pass or MCVT at the head (R148, R149). -/
def Module.mxReject (m : Module) (c status : Nat) (d : Desc) : Module :=
  (m.wr F.MXA_STS_LAST_ERR c status).reject c .mx 0 status d

/-- The status of R150 by which a pass is rejected before its bundle loads; none where it passes. -/
def Module.mpStatus (m : Module) (c d : Nat) : Option Nat :=
  if m.mpInvalid c d then some 3
  else
    match mpPair d with
    | none => some 1
    | some (w, a, kt) =>
      if !mpLoad d && (m.core c).tile.isNone then some 4
      else if m.mpRange c d w a kt then some 5 else none

/-- MATRIX_PASS_START (R148): a pass leaves the queue, is checked and loads its bundle; a ring pass writes the rows that need no
release. -/
def execMatrixPassStart (c : CoreId) (s : State) : Res :=
  let m := s.m
  let k := m.core c
  s.done (match k.mxq, k.pass with
    | d :: q, none =>
      if d.kind ≠ .mpass then m
      else
        match m.mpStatus c d.bits, mpPair d.bits with
        | some st, _ => m.mxReject c st d
        | none, none => m
        | none, some (w, _, kt) =>
          let (m1, t) := if mpLoad d.bits then m.loadTile c d.bits w kt else (m, k.tile)
          match t with
          | none => m1.mxReject c 2 d
          | some t =>
            let m2 := m1.setCore c { m1.core c with mxq := q, tile := some t, pass := some ⟨d, 0, 0, []⟩ }
            if mpRing d.bits then
              ((m2.wr F.VEC_RWCNT_COUNT c 0 (mpDest d.bits % 8)).wr F.VEC_RRCNT_COUNT c 0 (mpDest d.bits % 8)).runPass c 64
            else m2
    | _, _ => m)

/-- MATRIX_RING_RELEASE_WAIT_END (R159): the stalled array writes the rows that have been released. -/
def execMatrixRingReleaseWaitEnd (c : CoreId) (s : State) : Res :=
  s.done (match (s.m.core c).pass with
    | some p => if mpRing p.desc.bits then s.m.runPass c (mpRows p.desc.bits) else s.m
    | none => s.m)

/-- MATRIX_PASS_COMPLETE (R161, R162): the last row is written, flags are posted and the event counter incremented. -/
def execMatrixPassComplete (c : CoreId) (s : State) : Res :=
  s.done (match (s.m.core c).pass with
    | none => s.m
    | some p0 =>
      let d := p0.desc.bits
      let m := s.m.runPass c (mpRows d)
      match (m.core c).pass with
      | none => m
      | some p =>
        if p.next < mpRows d then m
        else
          let m := (m.forget (4096 + c.val)).setCore c { m.core c with pass := none }
          let m := m.setWord .MXA_FLAGS c 0 (m.word .MXA_FLAGS c 0 ||| p.flags.setWidth 32)
          let m := if mpScratch d then m else m.orTileFlags c (mpDest d % 8) p.lanes
          (m.count c 10 1).descDone c 0 0 p.desc)

/-- MCVT_APPLY (R149): the MCVT at the head of the matrix queue sets its conversion word, or is rejected. -/
def execMcvtApply (c : CoreId) (s : State) : Res :=
  let k := s.m.core c
  s.done (match k.mxq, k.pass with
    | d :: q, none =>
      match d.kind with
      | .mcvt n =>
        let w := BitVec.ofNat 32 d.bits
        if !cvtOk w || (cvtTarget w).blockScaled then s.m.mxReject c 1 d
        else ((s.m.setCore c { k with mxq := q }).setWord .MXA_CVT c (n - 1) w).descDone c 0 0 d
      | _ => s.m
    | _, _ => s.m)

end Sys2Proof.Machine
end

