-- ==== Sys2Proof/Machine/Vector.lean ====
section
/-! DEFINITION. The vector engine (R168 to R195): the checks of a descriptor, operands, arithmetic, reductions, compares, the ring, the
control operations, and completion. -/

namespace Sys2Proof.Machine

/-! ### The descriptor (R172) -/

/-- OP. -/
def vOp (d : Nat) : Nat := bitsAt d 0 6
/-- INT. -/
def vInt (d : Nat) : Bool := bitOf d 6
/-- CVTSEL. -/
def vCvt (d : Nat) : Nat := bitsAt d 10 2
/-- RING. -/
def vRing (d : Nat) : Bool := bitOf d 12
/-- SFMT code. -/
def vSfmt (d : Nat) : Nat := bitsAt d 14 4
/-- ROWS_M1 + 1. -/
def vRows (d : Nat) : Nat := bitsAt d 18 12 + 1
/-- AMODE. -/
def vAmode (d : Nat) : Nat := bitsAt d 30 2
/-- Byte offset of source A. -/
def vAaddr (d : Nat) : Nat := bitsAt d 32 20 * 4
/-- APITCH in 64-byte units. -/
def vApitch (d : Nat) : Nat := bitsAt d 52 8
/-- BMODE. -/
def vBmode (d : Nat) : Nat := bitsAt d 60 2
/-- Byte offset of source B. -/
def vBaddr (d : Nat) : Nat := bitsAt d 62 20 * 4
/-- BPITCH in 64-byte units. -/
def vBpitch (d : Nat) : Nat := bitsAt d 82 8
/-- DMODE. -/
def vDmode (d : Nat) : Nat := bitsAt d 90 2
/-- Byte offset of the destination. -/
def vDaddr (d : Nat) : Nat := bitsAt d 92 20 * 4
/-- DPITCH in 64-byte units. -/
def vDpitch (d : Nat) : Nat := bitsAt d 112 8
/-- DMASK. -/
def vDmask (d : Nat) : Nat := bitsAt d 120 3

/-- The kinds of operation of R173: unary, binary, reduction, compare, control. -/
inductive VKind where
  | unary | binary | reduce | compare | control
  deriving DecidableEq, Repr

/-- The kind of an operation code; none where it is reserved (R173). -/
def vKind (op : Nat) : Option VKind :=
  match op with
  | 0x00 | 0x07 | 0x08 | 0x09 | 0x0A | 0x0B | 0x0D | 0x0E => some .unary
  | 0x01 | 0x02 | 0x03 | 0x04 | 0x05 | 0x06 | 0x0C => some .binary
  | 0x10 | 0x11 | 0x12 => some .reduce
  | 0x18 | 0x19 | 0x1A | 0x1B => some .compare
  | 0x30 | 0x31 | 0x32 | 0x33 | 0x34 | 0x35 | 0x36 | 0x37 => some .control
  | _ => none

/-- Operations marked I in R173. -/
def vIntOk (op : Nat) : Bool := [0x00, 0x01, 0x02, 0x03, 0x05, 0x06, 0x07, 0x08, 0x10, 0x11, 0x18, 0x19, 0x1A, 0x1B].contains op

/-- Element bits of the row-mode sources; 32 for a code that names no format. -/
def vSbits (d : Nat) : Nat := match Fmt.ofCode (vSfmt d) with | some f => f.bits | none => 32

/-- The conversion word a descriptor names. -/
def Module.vWord (m : Module) (c d : Nat) : Word := m.word .VEC_CVT c (vCvt d - 1)

/-- Element bits of the destination. -/
def Module.vDbits (m : Module) (c d : Nat) : Nat := if vCvt d = 0 then 32 else (cvtTarget (m.vWord c d)).bits

/-- Bytes from one destination row to the next (R170). -/
def Module.vDpitchBytes (m : Module) (c d : Nat) : Nat := if vDpitch d = 0 then 8 * m.vDbits c d else vDpitch d * 64

/-- Bytes of the two scale rows' destination (R179). -/
def Module.vScaleAt (m : Module) (c d : Nat) : Nat := m.rd F.VEC_SDST_SDST c (vCvt d - 1) * 2

/-- The first byte and the end of what a source in a mode reads (R171), from the first byte read to the last; a ring source's rows lie 256
bytes apart from ring row `ring` on and go around after ring row 63. -/
def vSrcRange (mode addr pitch rows bits : Nat) (ring : Option Nat) : Nat × Nat :=
  match ring with
  | some r0 =>
    if r0 % 64 + rows ≤ 64 then (addr + r0 % 64 * 256, addr + (r0 % 64 + rows - 1) * 256 + 8 * bits)
    else (addr, addr + 63 * 256 + 8 * bits)
  | none =>
  if mode = 0 then (addr, addr + (rows - 1) * pitch * 64 + 8 * bits)
  else if mode = 1 then (addr, addr + 4 * rows)
  else (addr, addr + 4)

/-- The first row that a ring source reads (R185). -/
def Module.vRing0 (m : Module) (c d : Nat) : Option Nat :=
  if vRing d then (tileOf (vAaddr d)).map fun k => m.rd F.VEC_RRCNT_COUNT c k else none

/-- Where a source's row 0 is read (R168, R185): a ring source's at its ring row. -/
def vSrcFirst (addr rows : Nat) (ring : Option Nat) : Nat :=
  match ring with
  | some r0 => if r0 % 64 + rows ≤ 64 then addr + r0 % 64 * 256 else addr
  | none => addr

/-- Bytes from one row of a source to the next: 256 of a ring (R185), else those of its PITCH. -/
def vSrcStep (pitch : Nat) (ring : Option Nat) : Nat := if ring.isSome then 256 else pitch * 64

/-- The ranges that a descriptor reads: mode, where row 0 is read, bytes from row to row, element bits, first byte, end. -/
def Module.vSources (m : Module) (c d : Nat) : List (Nat × Nat × Nat × Nat × Nat × Nat) :=
  let one (mode addr pitch : Nat) (ring : Option Nat) :=
    if mode = 3 then [] else
      let (lo, hi) := vSrcRange mode addr pitch (vRows d) (vSbits d) ring
      [(mode, vSrcFirst addr (vRows d) ring, vSrcStep pitch ring, if mode = 0 then vSbits d else 32, lo, hi)]
  one (vAmode d) (vAaddr d) (vApitch d) (m.vRing0 c d) ++ one (vBmode d) (vBaddr d) (vBpitch d) none

/-- The range that a descriptor's results go to; none for a compare. -/
def Module.vDest (m : Module) (c d : Nat) : Option (Nat × Nat) :=
  match vKind (vOp d) with
  | some .unary | some .binary => some (vDaddr d, vDaddr d + (vRows d - 1) * m.vDpitchBytes c d + 8 * m.vDbits c d)
  | some .reduce => some (vDaddr d, vDaddr d + 4 * vRows d)
  | _ => none

/-- The range of the block scales; none without (R179). -/
def Module.vScaleDest (m : Module) (c d : Nat) : Option (Nat × Nat) :=
  match vKind (vOp d) with
  | some .unary | some .binary =>
    if vCvt d ≠ 0 ∧ (cvtTarget (m.vWord c d)).blockScaled then some (m.vScaleAt c d, m.vScaleAt c d + 2 * vRows d) else none
  | _ => none

/-- Two ranges share a byte. -/
def rangesMeet (a b : Nat × Nat) : Bool := decide (a.1 < b.2) && decide (b.1 < a.2)

/-- A range lies within scratch SRAM or the tile registers (R193). -/
def inScratch (r : Nat × Nat) : Bool := scrPopulated r.1 (r.2 - r.1)

/-- Overlap that R171 forbids. Addresses and pitches are those in effect, in bytes: a row destination's is its packed row's where its field is 0
(R170), a ring source's row 0 is at its ring row and its step the ring's 256 bytes (R185), and of a single row no step is taken (DEDUCED, log
entry 110). -/
def Module.vOverlap (m : Module) (c d : Nat) : Bool :=
  (m.vSources c d).any fun (mode, addr, step, bits, lo, hi) =>
    match m.vDest c d with
      | some r => rangesMeet (lo, hi) r &&
          !(mode == vDmode d && addr == vDaddr d && (mode != 0 || vRows d == 1 || step == m.vDpitchBytes c d) && bits == m.vDbits c d)
      | none => false

/-- A row or column source that breaks R193's address and pitch rules; `need` says whether the operation has the operand. -/
def vSrcBad (mode addr pitch sbits : Nat) : Bool :=
  if mode = 0 then addr % 64 != 0 || (pitch != 0 && decide (pitch * 64 < 8 * sbits))
  else if mode = 3 then addr != 0 || pitch != 0 else pitch != 0

/-- Parameter bits of a control operation that R190 does not name, and indexes outside their ranges. -/
def vControlBad (d : Nat) : Bool :=
  let ix := bitsAt d 32 3
  let k := bitsAt d 35 3
  bitsAt d 6 26 != 0 ||
  (match vOp d with
    | 0x30 => bitsAt d 32 2 == 0 || bitsAt d 34 30 != 0 || bitsAt d 117 11 != 0
    | 0x31 => ix == 0 || bitsAt d 35 29 != 0
    | 0x32 => ix == 0 || bitsAt d 43 85 != 0
    | 0x33 => ix == 0 || decide (k > 5) || bitsAt d 43 85 != 0
    | 0x34 => bitsAt d 43 85 != 0
    | 0x35 => decide (ix > 5) || bitsAt d 35 9 != 0 || bitsAt d 64 64 != 0 || bitsAt d 44 4 != 0
    | 0x36 => bitsAt d 48 80 != 0
    | _ => bitsAt d 32 12 != 0 || bitsAt d 64 64 != 0 || bitsAt d 44 4 != 0)

/-- Step 1 of R193. -/
def Module.vInvalid (m : Module) (c d : Nat) : Bool :=
  let op := vOp d
  match vKind op with
  | none => true
  | some .control => vControlBad d
  | some kind =>
    let am := vAmode d
    let bm := vBmode d
    decide (vDmode d > 1) || bitOf d 13 || bitsAt d 123 5 != 0 || (vInt d && !vIntOk op)
    || (match kind with
      | .unary => am == 3 || bm != 3 || vDmode d != 0
      | .binary => am == 3 || bm == 3 || vDmode d != 0
      | .reduce => am != 0 || (bm != 1 && bm != 3) || vDmode d != 1 || vDpitch d != 0 || vCvt d != 0
      | _ => am == 3 || bm == 3 || decide (vRows d > 1) || vDmode d != 0 || vDaddr d != 0 || vDpitch d != 0 || vDmask d == 0)
    || (kind != .compare && vDmask d != 0)
    || (op == 0x04 && vCvt d != 0)
    || vSrcBad am (vAaddr d) (vApitch d) (vSbits d) || vSrcBad bm (vBaddr d) (vBpitch d) (vSbits d)
    || ((kind == .unary || kind == .binary) &&
        (vDaddr d % min (8 * m.vDbits c d) 64 != 0 || (vDpitch d != 0 && decide (vDpitch d * 64 < 8 * m.vDbits c d))))
    || (vRing d && (am != 0 || vApitch d != 0 || (tileOf (vAaddr d)).isNone || vAaddr d % 0x4000 != 0))
    || m.vOverlap c d

/-- The status of R193 or R183 by which a descriptor is rejected; none where it runs. -/
def Module.vStatus (m : Module) (c d : Nat) : Option Nat :=
  if m.vInvalid c d then some 3
  else if vKind (vOp d) = some .control then
    if vOp d = 0x30 ∧ !cvtOk (BitVec.ofNat 32 (bitsAt d 64 32)) then some 1
    else if (vOp d = 0x35 ∨ vOp d = 0x37) ∧ !scrPopulated (bitsAt d 44 20 * 4) 256 then some 5 else none
  else if !(if vInt d then vSfmt d == 6 || vSfmt d == 5 else decide (vSfmt d ≤ 4)) then some 1
  else if (m.vSources c d).any (fun s => !inScratch (s.2.2.2.2.1, s.2.2.2.2.2)) then some 5
  else if (m.vDest c d).any (fun r => !inScratch r) || (m.vScaleDest c d).any (fun r => !inScratch r) then some 5
  else if vCvt d ≠ 0 ∧ (vKind (vOp d) = some .unary ∨ vKind (vOp d) = some .binary) ∧ (tileOf (vDaddr d)).isSome ∧
      cvtFmt (m.vWord c d) ≠ 0 ∧ cvtFmt (m.vWord c d) ≠ 6 then some 3
  else none

/-! ### Operands (R168, R169, R195) -/

/-- One lane's operand: its value, the flags of widening it, and whether it comes from a poisoned line, of which nothing is widened. -/
structure Lane where
  v : Val
  fl : Flags
  bad : Bool
  deriving DecidableEq, Repr

/-- A source element widened to a lane (R169). -/
def widen (f : Fmt) (code : Nat) : Val × Flags :=
  match f with
  | .bf16 =>
    if bitsAt code 7 8 = 0 then
      (.fin (Dy.zero (decide (bitsAt code 15 1 = 1))), Flags.when (decide (bitsAt code 0 7 ≠ 0)) Flags.underflow)
    else (f.decode code, 0)
  | f => (f.decode code, 0)

/-- The lanes of a source at row r; `at'` replaces the address of a ring row. A poisoned line that several rows use is read, and counted, once for each
row (DESIGN CHOICE, log entry 93). -/
def Module.vOperand (m : Module) (c d mode addr pitch r : Nat) (at' : Option Nat) : Module × List Lane :=
  let f := (Fmt.ofCode (vSfmt d)).getD .fp32
  if mode = 3 then (m, [])
  else if mode = 0 then
    let o := at'.getD (addr + r * pitch * 64)
    let (m', l, bad) := m.load' (scrKey c o) (8 * f.bits)
    (m'.bumpBy F.VEC_POISON_CNT_COUNT c bad.length, (List.range 64).map fun i =>
      let (v, fl) := widen f (packedAt f.bits l i)
      let gone := bad.contains ((scrKey c o + i * f.bits / 8) / 64)
      ⟨v, if gone then 0 else fl, gone⟩)
  else
    let o := addr + (if mode = 1 then r * 4 else 0)
    let (m', l, bad) := m.load' (scrKey c o) 4
    let v := laneVal (vInt d) (BitVec.ofNat 32 (leNat l))
    (m'.bumpBy F.VEC_POISON_CNT_COUNT c bad.length, List.replicate 64 ⟨v, 0, !bad.isEmpty⟩)

/-! ### Arithmetic (R174, R176) -/

/-- An FP32 result, rounded once. -/
def fpOut (v : Val) : Word × Flags := v.toFp32

/-- An INT32 result, clamped (R176). -/
def intOut (i : Int) : Word × Flags := let (x, fl) := clampInt32 i; (BitVec.ofInt 32 x, fl)

/-- The integer of a lane under INT. -/
def Val.int : Val → Int
  | .fin d => d.at 0
  | _ => 0

/-- x < y as FP32 with +0 above −0 (R174). -/
def Val.below : Val → Val → Bool
  | .inf a, .inf b => a && !b
  | .inf a, .fin _ => a
  | .fin _, .inf b => !b
  | .fin a, .fin b => a.lt b || (a.m == 0 && b.m == 0 && a.neg && !b.neg)
  | _, _ => false

/-- MAX and MIN of FP32 lanes (R174). -/
def Val.pick (max : Bool) (a b : Val) : Val :=
  if a.isNan || b.isNan then .nan else if max then (if a.below b then b else a) else (if b.below a then b else a)

/-- FP32 comparisons of R176: operation 0 <, 1 ≤, 2 =, 3 ≠. -/
def Val.cmp (op : Nat) (a b : Val) : Bool :=
  if a.isNan || b.isNan then op == 3
  else
    let lt : Bool := match a, b with | .fin x, .fin y => x.lt y | _, _ => a.below b
    let eq : Bool := match a, b with | .fin x, .fin y => x.eqv y | .inf x, .inf y => x == y | _, _ => false
    match op with | 0 => lt | 1 => lt || eq | 2 => eq | _ => !eq

/-- A result flushed to a zero of a sign by R91. -/
def flushOut (neg : Bool) : Word × Flags := ((if neg then 0x8000_0000 else 0 : Word), Flags.underflow ||| Flags.inexact)

/-- 2^v for operation `op`: −infinity and the results that R91 flushes or R101 overflows are stated, the rest is bounded (R174). -/
def pow2Out (op : Nat) (v : Val) : Word × Flags :=
  match v with
  | .nan => (fp32Nan, Flags.invalid)
  | .inf neg => (if neg then 0 else fp32Inf false, 0)
  | .fin d =>
    if d.lt ⟨true, 126, 0⟩ then flushOut false
    else if !d.lt ⟨false, 128, 0⟩ then (fp32Inf false, Flags.overflow ||| Flags.inexact)
    else approxOut op d

/-- The FP32 word of a finite value's magnitude. -/
def Dy.magWord (d : Dy) : Nat := d.toFp32.1.toNat % 2 ^ 31

/-- RCP (R174). A magnitude above 2^126 has an exact result below 2^−126. -/
def rcpOut (v : Val) : Word × Flags :=
  match v with
  | .nan => (fp32Nan, Flags.invalid)
  | .inf neg => ((if neg then 0x8000_0000 else 0 : Word), 0)
  | .fin d =>
    if d.m = 0 then (fp32Inf d.neg, Flags.overflow)
    else if d.magWord > 0x7E80_0000 then flushOut d.neg else approxOut 9 d

/-- RSQRT (R174). -/
def rsqrtOut (v : Val) : Word × Flags :=
  match v with
  | .nan => (fp32Nan, Flags.invalid)
  | .inf neg => if neg then (fp32Nan, Flags.invalid) else (0, 0)
  | .fin d =>
    if d.m = 0 then (fp32Inf d.neg, Flags.overflow)
    else if d.neg then (fp32Nan, Flags.invalid) else approxOut 10 d

/-- EXPSUB (R174): t = A − B and u = t × L rounded, then 2^u. -/
def expsubOut (a b : Val) : Word × Flags :=
  match a, b with
  | .inf true, .fin _ | .inf true, .inf true => (0, 0)
  | _, _ =>
    let (t, f1) := (a.add b.negate).round
    let (u, f2) := (t.mul (Val.ofFp32 0x3FB8_AA3B)).round
    let (w, f3) := pow2Out 12 u
    (w, f1 ||| f2 ||| f3)

/-- SIGMOID (R174). From 0x42AE_AC50 on, e^x is below 2^−126 and so is the exact result (R91). -/
def sigmoidOut (v : Val) : Word × Flags :=
  match v with
  | .nan => (fp32Nan, Flags.invalid)
  | .inf neg => (if neg then 0 else 0x3F80_0000, 0)
  | .fin d => if d.neg && decide (d.magWord ≥ 0x42AE_AC50) then flushOut false else approxOut 13 d

/-- SILU (R174). A zero has the quotient of R173, a zero of its sign; exact results below 2^−126 (from 0x42B7_B6AC down, and of
operands up to 0x00FF_FFFF, or 0x0100_0000 if negative, in magnitude) flush (R91). -/
def siluOut (v : Val) : Word × Flags :=
  match v with
  | .nan => (fp32Nan, Flags.invalid)
  | .inf neg => (if neg then 0x8000_0000 else fp32Inf false, 0)
  | .fin d =>
    if d.m = 0 then ((if d.neg then 0x8000_0000 else 0 : Word), 0)
    else if (d.neg && (decide (d.magWord ≥ 0x42B7_B6AC) || decide (d.magWord ≤ 0x0100_0000))) || decide (d.magWord ≤ 0x00FF_FFFF) then
      flushOut d.neg
    else approxOut 14 d

/-- One lane of an element-wise operation (R173); `dv` is the destination that FMA reads. -/
def vLane (op : Nat) (int : Bool) (a b dv : Val) : Word × Flags :=
  if int then
    let x := a.int
    let y := b.int
    match op with
    | 0x01 => intOut (x + y)
    | 0x02 => intOut (x - y)
    | 0x03 => intOut (x * y)
    | 0x05 => intOut (max x y)
    | 0x06 => intOut (min x y)
    | 0x07 => intOut x.natAbs
    | 0x08 => intOut (-x)
    | _ => intOut x
  else
    match op with
    | 0x01 => fpOut (a.add b)
    | 0x02 => fpOut (a.add b.negate)
    | 0x03 => fpOut (a.mul b)
    | 0x04 => fpOut ((a.mul b).add dv)
    | 0x05 => fpOut (Val.pick true a b)
    | 0x06 => fpOut (Val.pick false a b)
    | 0x07 => fpOut a.abs
    | 0x08 => fpOut a.negate
    | 0x09 => rcpOut a
    | 0x0A => rsqrtOut a
    | 0x0B => pow2Out 11 a
    | 0x0C => expsubOut a b
    | 0x0D => sigmoidOut a
    | 0x0E => siluOut a
    | _ => fpOut a

/-- One level of the pairwise tree (R175). -/
def treeLevel : List (Val × Flags) → List (Val × Flags)
  | (a, f) :: (b, g) :: t => let (v, h) := (a.add b).round; (v, f ||| g ||| h) :: treeLevel t
  | l => l

/-- The pairwise tree of 6 levels over 64 lanes (R175). -/
def treeSum (l : List (Val × Flags)) : Val × Flags :=
  (treeLevel (treeLevel (treeLevel (treeLevel (treeLevel (treeLevel l)))))).headD (.fin (Dy.zero false), 0)

/-- A reduction of one row over the active lanes, with B[r] where there is one (R175, R176). An INT32 sum is exact and clamped once
(DEDUCED, log entry 14). -/
def vReduce (op : Nat) (int : Bool) (a : List Lane) (act : List Bool) (b : Option Lane) : Word × Flags :=
  let ls := ((a.zip act).filter (·.2)).map (·.1)
  let used := ls ++ b.toList
  let fl := Flags.orAll (used.map (·.fl))
  if used.any (·.bad) then (if int then 0 else fp32Nan, fl ||| Flags.invalid)
  else
    let (w, f) :=
      if int then
        if op = 0x10 then intOut ((used.map (·.v.int)).foldl max (-(2 ^ 31)))
        else intOut ((used.map (·.v.int)).foldl (· + ·) 0)
      else if op = 0x10 then fpOut (used.foldl (fun acc l => Val.pick true acc l.v) (.inf true))
      else
        let term (l : Lane) : Val × Flags := if op = 0x12 then (l.v.mul l.v).round else (l.v, 0)
        let (s, f1) := treeSum ((a.zip act).map fun (l, on) => if on then term l else (.fin (Dy.zero false), 0))
        match b with
        | some l => let (w, f2) := fpOut (s.add l.v); (w, f1 ||| f2)
        | none => let (w, f2) := fpOut s; (w, f1 ||| f2)
    (w, fl ||| f)

/-! ### Rows -/

/-- The lanes of mask register k (R177). -/
def Module.maskLanes (m : Module) (c k : Nat) : List Bool :=
  let w := if k = 0 then 2 ^ 64 - 1 else (m.word .VEC_MASK_LO c k).toNat + (m.word .VEC_MASK_HI c k).toNat * 2 ^ 32
  (List.range 64).map fun l => Nat.testBit w l

/-- A mask register's value; M0 reads all ones. -/
def Module.mask (m : Module) (c k : Nat) : Nat :=
  if k = 0 then 2 ^ 64 - 1 else (m.word .VEC_MASK_LO c k).toNat + (m.word .VEC_MASK_HI c k).toNat * 2 ^ 32

/-- Writes a mask register. -/
def Module.setMask (m : Module) (c k v : Nat) : Module :=
  (m.setWord .VEC_MASK_LO c k (BitVec.ofNat 32 v)).setWord .VEC_MASK_HI c k (BitVec.ofNat 32 (v / 2 ^ 32))

/-- Adds the flags of elements of 32 bits written from a scratch offset on: to the descriptor's summary, and in a tile register to the lane of the
row that each lies in (R188). Elements of another size go to scratch alone (R193). -/
def VecRun.addFlags (v : VecRun) (off : Nat) (fl : List Flags) : VecRun :=
  { v with
    flags := v.flags ||| Flags.orAll fl
    tileFlags := (List.range fl.length).foldl (fun t i =>
      match tileOf (off + 4 * i) with
      | some k => Tbl.upd 0 t (k * 64 + (off + 4 * i) % 256 / 4) (· ||| fl.getD i 0)
      | none => t) v.tileFlags }

/-- The counter of an operation's rows (R553). -/
def vCounter (op : Nat) : Nat := if op ≤ 8 then 12 else if op ≤ 14 then 13 else 14

/-- Row r of a descriptor of kind unary, binary, reduction or compare: operands read, the result converted and written. -/
def Module.vecRow (m : Module) (c : Nat) (v : VecRun) (r : Nat) : Module × VecRun :=
  let d := v.desc.bits
  let op := vOp d
  let int := vInt d
  let act := m.maskLanes c (bitsAt d 7 3)
  let ring := if vRing d then tileOf (vAaddr d) else none
  let n := v.r0 + r
  let (m1, a) := m.vOperand c d (vAmode d) (vAaddr d) (vApitch d) r (ring.map fun k => 0x20_0000 + k * 0x4000 + n % 64 * 256)
  let inRing := ring.isSome && tileOf (vDaddr d) == ring && vKind op != some .compare
  let (m2, b) := m1.vOperand c d (vBmode d) (vBaddr d) (vBpitch d) r none
  let release (m : Module) : Module := match ring with | some k => m.wr F.VEC_RRCNT_COUNT c (n + 1) k | none => m
  let m2 := if inRing then m2 else release m2
  let v := { v with next := r + 1 }
  match vKind op with
  | some .reduce =>
    let (w, fl) := vReduce op int a act (b.head?)
    let off := vDaddr d + 4 * r
    let m3 := (m2.put (scrKey c off) (leBytes 4 w.toNat)).count c 14 1
    (if inRing then release m3 else m3, v.addFlags off [fl])
  | some .compare =>
    let bit (l : Nat) : Bool :=
      let x := a.getD l ⟨.nan, 0, false⟩
      let y := b.getD l ⟨.nan, 0, false⟩
      let vx := if x.bad then (if int then .fin (Dy.zero false) else .nan) else x.v
      let vy := if y.bad then (if int then .fin (Dy.zero false) else .nan) else y.v
      act.getD l false && Val.cmp (op - 0x18) vx vy
    let w := (List.range 64).foldl (fun acc l => if bit l then acc + 2 ^ l else acc) 0
    (m2, { v with mask := some (vDmask d, BitVec.ofNat 64 w) })
  | _ =>
    let off := vDaddr d + r * m.vDpitchBytes c d
    let (m3, old, badD) := if op = 0x04 then m2.load' (scrKey c off) 256 else (m2, [], [])
    let m3 := m3.bumpBy F.VEC_POISON_CNT_COUNT c badD.length
    let res := (List.range 64).map fun l =>
      let x := a.getD l ⟨.fin (Dy.zero false), 0, false⟩
      let y := b.getD l ⟨.fin (Dy.zero false), 0, false⟩
      if !act.getD l false then ((0 : Word), (0 : Flags))
      else if x.bad || y.bad || badD.contains ((scrKey c off + 4 * l) / 64) then (if int then 0 else fp32Nan, Flags.invalid ||| x.fl ||| y.fl)
      else
        let (w, fl) := vLane op int x.v y.v (Val.ofFp32 (BitVec.ofNat 32 (leNat ((old.drop (4 * l)).take 4))))
        (w, fl ||| x.fl ||| y.fl)
    let words := res.map (·.1)
    let m4 := m3.count c (vCounter op) 1
    if vCvt d = 0 then
      let fl := res.map (·.2)
      let m5 := m4.writeLanes c off 32 (words.map (·.toNat)) act
      (if inRing then release m5 else m5, v.addFlags off fl)
    else
      let w := m.vWord c d
      let (m5, codes, fl2, scales) := m4.convRow c w int words act v.amax
      let fl := Flags.zipOr (res.map (·.2)) fl2
      let m6 := m5.writeLanes c off (cvtTarget w).bits codes act
      let m7 := (List.range scales.length).foldl (fun (m : Module) b =>
        match scales.getD b none with
        | some x => m.put (scrKey c (m.vScaleAt c d + 2 * r + b)) [BitVec.ofNat 8 x]
        | none => m) m6
      (if inRing then release m7 else m7, v.addFlags off fl)

/-- Ring row n of tile k is written (R185). -/
def Module.ringReady (m : Module) (c : Nat) (v : VecRun) : Bool :=
  !vRing v.desc.bits ||
    (match tileOf (vAaddr v.desc.bits) with
      | some k => decide (v.r0 + v.next < m.rd F.VEC_RWCNT_COUNT c k)
      | none => true)

/-- Executes rows while operands are there; the remaining rows bound it. -/
def Module.vecRows (m : Module) (c : Nat) : Nat → VecRun → Module × VecRun
  | 0, v => (m, { v with waiting := false })
  | fuel + 1, v =>
    if !m.ringReady c v then (m, { v with waiting := true })
    else
      let (m', v') := m.vecRow c v v.next
      m'.vecRows c fuel v'

/-- Runs the descriptor in progress as far as its operands allow. -/
def Module.runVec (m : Module) (c : Nat) : Module :=
  match (m.core c).vec with
  | none => m
  | some v =>
    let (m', v') := m.vecRows c (vRows v.desc.bits - v.next) v
    m'.setCore c { m'.core c with vec := some v' }

/-- Rejects the descriptor at the head of the vector queue, or the one in progress (R193, R186). -/
def Module.vxReject (m : Module) (c engine status : Nat) (d : Desc) : Module :=
  let m := m.wr F.VEC_STS_LAST_ERR c status
  (m.setCore c { m.core c with vec := none }).reject c .vx engine status d

/-- A row of the command table for one vector operation code: the descriptor at the head of the queue leaves it, is checked (R193) and
runs; another operation at the head, or a descriptor in progress, leaves the row nothing to do. -/
def Module.vecStart (m : Module) (c op : Nat) : Module :=
  let k := m.core c
  match k.vxq, k.vec with
  | d :: q, none =>
    if d.kind ≠ .vop ∨ vOp d.bits ≠ op then m
    else
      match m.vStatus c d.bits with
      | some st => m.vxReject c 1 st d
      | none =>
        let r0 := (m.vRing0 c d.bits).getD 0
        let slot := bitsAt (m.vWord c d.bits).toNat 16 4
        (m.setCore c { k with vxq := q, vec := some ⟨d, 0, r0, false, m.word .VEC_MON c (slot * 4), 0, 0, [], none⟩ }).runVec c
  | _, _ => m

/-- A control operation: the descriptor leaves the queue, is checked and takes its effect (R190). -/
def Module.vecControl (m : Module) (c op : Nat) (act : Module → Nat → Module) : Module :=
  let k := m.core c
  match k.vxq, k.vec with
  | d :: q, none =>
    if d.kind ≠ .vop ∨ vOp d.bits ≠ op then m
    else
      match m.vStatus c d.bits with
      | some st => m.vxReject c 1 st d
      | none => act (m.setCore c { k with vxq := q, vec := some ⟨d, 1, 0, false, 0, 0, 0, [], none⟩ }) d.bits
  | _, _ => m

/-- The completion of a vector or attention descriptor (R191, R200): flags, lane flags and masks are posted, counters and the event
counter incremented. -/
def Module.vecComplete (m : Module) (c : Nat) : Module :=
  match (m.core c).vec with
  | none => m
  | some v =>
    let d := v.desc.bits
    let vop := decide (v.desc.kind = .vop)
    if vop && decide (v.next < vRows d) && vKind (vOp d) != some .control then m
    else
      let m := m.setCore c { m.core c with vec := none }
      let m := m.setWord .VEC_FLAGS c 0 (m.word .VEC_FLAGS c 0 ||| v.flags.setWidth 32)
      let m := (List.range 6).foldl (fun (m : Module) k =>
        let fl := (List.range 64).map fun l => Tbl.get 0 v.tileFlags (k * 64 + l)
        if Flags.orAll fl = 0 then m else m.orTileFlags c k fl) m
      let m := match v.mask with | some (k, w) => m.setMask c k w.toNat | none => m
      let m := if vop && vKind (vOp d) == some .compare then m.count c 15 1
        else if vop && vKind (vOp d) == some .control then m.count c 16 1 else m
      m.descDone c (if vop then 1 else 4) v.status v.desc

/-! ### The rows of the command table -/

/-- VEC_COPY (R173). -/
def execVecCopy (c : CoreId) (s : State) : Res := s.done (s.m.vecStart c 0x00)
/-- VEC_ADD (R173). -/
def execVecAdd (c : CoreId) (s : State) : Res := s.done (s.m.vecStart c 0x01)
/-- VEC_SUB (R173). -/
def execVecSub (c : CoreId) (s : State) : Res := s.done (s.m.vecStart c 0x02)
/-- VEC_MUL (R173). -/
def execVecMul (c : CoreId) (s : State) : Res := s.done (s.m.vecStart c 0x03)
/-- VEC_FMA (R173). -/
def execVecFma (c : CoreId) (s : State) : Res := s.done (s.m.vecStart c 0x04)
/-- VEC_MAX (R173). -/
def execVecMax (c : CoreId) (s : State) : Res := s.done (s.m.vecStart c 0x05)
/-- VEC_MIN (R173). -/
def execVecMin (c : CoreId) (s : State) : Res := s.done (s.m.vecStart c 0x06)
/-- VEC_ABS (R173). -/
def execVecAbs (c : CoreId) (s : State) : Res := s.done (s.m.vecStart c 0x07)
/-- VEC_NEG (R173). -/
def execVecNeg (c : CoreId) (s : State) : Res := s.done (s.m.vecStart c 0x08)
/-- RCP (R174). -/
def execRcp (c : CoreId) (s : State) : Res := s.done (s.m.vecStart c 0x09)
/-- RSQRT (R174). -/
def execRsqrt (c : CoreId) (s : State) : Res := s.done (s.m.vecStart c 0x0A)
/-- EXP2 (R174). -/
def execExp2 (c : CoreId) (s : State) : Res := s.done (s.m.vecStart c 0x0B)
/-- EXPSUB (R174). -/
def execExpsub (c : CoreId) (s : State) : Res := s.done (s.m.vecStart c 0x0C)
/-- SIGMOID (R174). -/
def execSigmoid (c : CoreId) (s : State) : Res := s.done (s.m.vecStart c 0x0D)
/-- SILU (R174). -/
def execSilu (c : CoreId) (s : State) : Res := s.done (s.m.vecStart c 0x0E)
/-- ROWMAX (R175). -/
def execRowmax (c : CoreId) (s : State) : Res := s.done (s.m.vecStart c 0x10)
/-- ROWSUM (R175). -/
def execRowsum (c : CoreId) (s : State) : Res := s.done (s.m.vecStart c 0x11)
/-- ROWSSQ (R175). -/
def execRowssq (c : CoreId) (s : State) : Res := s.done (s.m.vecStart c 0x12)
/-- CMPLT (R176). -/
def execCmplt (c : CoreId) (s : State) : Res := s.done (s.m.vecStart c 0x18)
/-- CMPLE (R176). -/
def execCmple (c : CoreId) (s : State) : Res := s.done (s.m.vecStart c 0x19)
/-- CMPEQ (R176). -/
def execCmpeq (c : CoreId) (s : State) : Res := s.done (s.m.vecStart c 0x1A)
/-- CMPNE (R176). -/
def execCmpne (c : CoreId) (s : State) : Res := s.done (s.m.vecStart c 0x1B)

/-- SETCVT (R190). -/
def execSetcvt (c : CoreId) (s : State) : Res :=
  s.done (s.m.vecControl c 0x30 fun m d =>
    let n := bitsAt d 32 2 - 1
    (m.setWord .VEC_CVT c n (BitVec.ofNat 32 (bitsAt d 64 32))).wr F.VEC_SDST_SDST c (bitsAt d 96 21) n)

/-- SETMASK (R190). -/
def execSetmask (c : CoreId) (s : State) : Res :=
  s.done (s.m.vecControl c 0x31 fun m d => m.setMask c (bitsAt d 32 3) (bitsAt d 64 64))

/-- MASKOP (R190). -/
def execMaskop (c : CoreId) (s : State) : Res :=
  s.done (s.m.vecControl c 0x32 fun m d =>
    let a := m.mask c (bitsAt d 35 3)
    let b := m.mask c (bitsAt d 38 3)
    m.setMask c (bitsAt d 32 3) (match bitsAt d 41 2 with
      | 0 => a &&& b
      | 1 => a ||| b
      | 2 => a &&& (b ^^^ (2 ^ 64 - 1))
      | _ => a ^^^ b))

/-- FMASK (R190). -/
def execFmask (c : CoreId) (s : State) : Res :=
  s.done (s.m.vecControl c 0x33 fun m d =>
    let k := bitsAt d 35 3
    m.setMask c (bitsAt d 32 3) ((List.range 64).foldl (fun acc l =>
      if m.laneFlags c k l &&& bitsAt d 38 5 ≠ 0 then acc + 2 ^ l else acc) 0))

/-- FCLR (R189, R190). -/
def execFclr (c : CoreId) (s : State) : Res :=
  s.done (s.m.vecControl c 0x34 fun m d =>
    (List.range 6).foldl (fun (m : Module) k => if bitOf d (32 + k) then m.clearTileFlags c k (bitsAt d 38 5) else m) m)

/-- FSTORE (R190). -/
def execFstore (c : CoreId) (s : State) : Res :=
  s.done (s.m.vecControl c 0x35 fun m d =>
    m.put (scrKey c (bitsAt d 44 20 * 4)) (((List.range 64).map fun l => leBytes 4 (m.laneFlags c (bitsAt d 32 3) l)).flatten))

/-- MONCLR (R117, R190). -/
def execMonclr (c : CoreId) (s : State) : Res :=
  s.done (s.m.vecControl c 0x36 fun m d =>
    (List.range 16).foldl (fun (m : Module) k => if bitOf d (32 + k) then m.clearSlot c k else m) m)

/-- MONRD (R190). -/
def execMonrd (c : CoreId) (s : State) : Res :=
  s.done (s.m.vecControl c 0x37 fun m d =>
    m.put (scrKey c (bitsAt d 44 20 * 4)) (((List.range 64).map fun i => leBytes 4 (m.word .VEC_MON c i).toNat).flatten))

/-- Rejects the attention descriptor at the head (R207): the codes of R194 under ENGINE 4, the status in ATN_STS. -/
def Module.atnReject (m : Module) (c status : Nat) (d : Desc) : Module := (m.wr F.ATN_STS_LAST_ERR c status).reject c .vx 4 status d

/-- VEC_RESERVED_OP (R193, R207): a vector or attention descriptor with a reserved OP is rejected DESC_INVALID. -/
def execVecReservedOp (c : CoreId) (s : State) : Res :=
  let k := s.m.core c
  s.done (match k.vxq, k.vec with
    | d :: _, none =>
      if d.kind = .vop ∧ (vKind (vOp d.bits)).isNone then s.m.vxReject c 1 3 d
      else if d.kind = .atn ∧ bitsAt d.bits 0 4 ≥ 4 then s.m.atnReject c 3 d else s.m
    | _, _ => s.m)

/-- VEC_DESC_COMPLETE (R191). -/
def execVecDescComplete (c : CoreId) (s : State) : Res := s.done (s.m.vecComplete c)

/-- VEC_RING_ROW_READY (R185): a waiting ring read proceeds once its row is written. -/
def execVecRingRowReady (c : CoreId) (s : State) : Res :=
  s.done (match (s.m.core c).vec with
    | some v => if v.waiting && s.m.ringReady c v then s.m.runVec c else s.m
    | none => s.m)

/-- A pass with DRING 1 to tile register k is in the array or the matrix queue with rows still to write (R186). -/
def Core.ringPending (k : Core) (t : Nat) : Bool :=
  (match k.pass with
    | some p => mpRing p.desc.bits && mpDest p.desc.bits % 8 == t && decide (p.next < mpRows p.desc.bits)
    | none => false) ||
  k.mxq.any fun d => d.kind == .mpass && mpRing d.bits && !mpScratch d.bits && mpDest d.bits % 8 == t

/-- RING_SHORT (R186): a ring read waits for a row that can never be written. -/
def execRingShort (c : CoreId) (s : State) : Res :=
  let k := s.m.core c
  s.done (match k.vec with
    | some v =>
      if v.waiting && !s.m.ringReady c v && !(match tileOf (vAaddr v.desc.bits) with | some t => k.ringPending t | none => false) then
        -- flags of the rows written are posted with the end of the descriptor
        let m := s.m.setWord .VEC_FLAGS c 0 (s.m.word .VEC_FLAGS c 0 ||| v.flags.setWidth 32)
        let m := (List.range 6).foldl (fun (m : Module) t =>
          let fl := (List.range 64).map fun l => Tbl.get 0 v.tileFlags (t * 64 + l)
          if Flags.orAll fl = 0 then m else m.orTileFlags c t fl) m
        m.vxReject c 1 6 v.desc
      else s.m
    | none => s.m)

end Sys2Proof.Machine
end

