-- ==== Sys2Proof/Machine/Attention.lean ====
section
/-! DEFINITION. The attention-state operations (R199 to R207). -/

namespace Sys2Proof.Machine

/-! ### The descriptor (R201) -/

/-- OP. -/
def aOp (d : Nat) : Nat := bitsAt d 0 4
/-- OLOC: O in scratch. -/
def aScratch (d : Nat) : Bool := bitOf d 4
/-- OTILE. -/
def aTile (d : Nat) : Nat := bitsAt d 5 3
/-- W. -/
def aW (d : Nat) : Nat := bitsAt d 8 2 + 1
/-- CVTSEL. -/
def aCvt (d : Nat) : Nat := bitsAt d 10 2
/-- LSE. -/
def aLse (d : Nat) : Bool := bitOf d 12
/-- ROWS_M1 + 1. -/
def aRows (d : Nat) : Nat := bitsAt d 13 6 + 1
/-- Byte offset of the state record. -/
def aS (d : Nat) : Nat := bitsAt d 32 20 * 4
/-- Byte offset in NADDR. -/
def aN (d : Nat) : Nat := bitsAt d 52 20 * 4
/-- Byte offset of O. -/
def aO (d : Nat) : Nat := bitsAt d 72 20 * 4
/-- Byte offset in XADDR. -/
def aX (d : Nat) : Nat := bitsAt d 92 20 * 4

/-- Element bits of FINISH's output. -/
def Module.aBits (m : Module) (c d : Nat) : Nat := if aCvt d = 0 then 32 else (cvtTarget (m.word .VEC_CVT c (aCvt d - 1))).bits

/-- Bytes of one output row of FINISH, or of one row of the second O (R202). -/
def Module.aPitch (m : Module) (c d : Nat) : Nat := if aOp d = 3 then 64 * aW d * m.aBits c d / 8 else 256 * aW d

/-- The ranges of the state records, O, the second O and the destination (R207). -/
def Module.aRanges (m : Module) (c d : Nat) : List (Nat × Nat) :=
  [(aS d, aS d + 512)] ++ (if aOp d = 2 then [(aN d, aN d + 512)] else []) ++
  (if aScratch d then [(aO d, aO d + aRows d * 256 * aW d)] else []) ++
  (if aOp d = 2 ∨ aOp d = 3 then [(aX d, aX d + aRows d * m.aPitch c d)] else [])

/-- Some two ranges of a list share a byte. -/
def anyMeet : List (Nat × Nat) → Bool
  | [] => false
  | r :: t => t.any (rangesMeet r) || anyMeet t

/-- The ranges whose overlap R207 forbids: FINISH in place, with CVTSEL 0 and XADDR equal to OADDR, counts O and the destination
once. -/
def Module.aOverlap (m : Module) (c d : Nat) : Bool :=
  let inPlace := aOp d == 3 && aCvt d == 0 && aScratch d && aX d == aO d
  let r := m.aRanges c d
  anyMeet (if inPlace then r.dropLast else r)

/-- The status of R207 by which an attention descriptor is rejected; none where it runs. -/
def Module.aStatus (m : Module) (c d : Nat) : Option Nat :=
  let op := aOp d
  let usesN := op == 1 || op == 2 || (op == 3 && aLse d)
  if decide (op > 3) || bitsAt d 19 13 != 0 || bitsAt d 112 16 != 0
      || (aScratch d && aTile d != 0) || (!aScratch d && aO d != 0)
      || (!usesN && aN d != 0) || (op != 2 && op != 3 && aX d != 0)
      || aS d % 64 != 0 || aN d % 64 != 0 || aO d % 64 != 0 || aX d % 64 != 0
      || (!aScratch d && decide (aTile d + aW d > 6))
      || (op != 3 && (aCvt d != 0 || aLse d)) || m.aOverlap c d then some 3
  else if aCvt d ≠ 0 ∧ 7 ≤ cvtFmt (m.word .VEC_CVT c (aCvt d - 1)) then some 1
  else if (m.aRanges c d).any (fun r => decide (r.2 > 0x18_0000)) || (usesN && decide (aN d + 4 * aRows d > 0x18_0000)) then some 5
  else none

/-! ### Rows -/

/-- An FP32 element of scratch; from a poisoned line it is NaN (R195). -/
def Module.fpAt (m : Module) (off : Nat) (c : Nat) : Val :=
  if m.wordBad (scrKey c off / 64) then .nan else Val.ofFp32 (BitVec.ofNat 32 (m.num (scrKey c off) 4))

/-- Offset of element j of O row r (R199). -/
def aOat (d r j : Nat) : Nat :=
  if aScratch d then aO d + r * 256 * aW d + 4 * j else 0x20_0000 + (aTile d + j / 64) * 0x4000 + r * 256 + 4 * (j % 64)

/-- Writes an FP32 word to scratch. -/
def Module.putFp (m : Module) (c off : Nat) (w : Word) : Module := m.put (scrKey c off) (leBytes 4 w.toNat)

/-- Writes a row of O, its flags on the lanes written (R204). -/
def Module.putO (m : Module) (c d r : Nat) (v : VecRun) (out : List (Word × Flags)) : Module × VecRun :=
  (List.range (aW d)).foldl (fun (acc : Module × VecRun) w =>
    let part := (out.drop (64 * w)).take 64
    let off := aOat d r (64 * w)
    (acc.1.put (scrKey c off) ((part.map fun x => leBytes 4 x.1.toNat).flatten), acc.2.addFlags off (part.map (·.2)))) (m, v)

/-- Flags from m and l go to VEC_FLAGS only (R204). -/
def VecRun.noteFlags (v : VecRun) (fl : Flags) : VecRun := { v with flags := v.flags ||| fl }

/-- A row made NaN (R202, R203). -/
def Module.nanRow (m : Module) (c d r : Nat) (v : VecRun) : Module × VecRun :=
  let m := (m.putFp c (aS d + 4 * r) fp32Nan).putFp c (aS d + 256 + 4 * r) fp32Nan
  m.putO c d r (v.noteFlags Flags.invalid) (List.replicate (64 * aW d) (fp32Nan, Flags.invalid))

/-- INIT of row r (R202). -/
def Module.initRow (m : Module) (c d r : Nat) (v : VecRun) : Module × VecRun :=
  let m := (m.putFp c (aS d + 4 * r) (fp32Inf true)).putFp c (aS d + 256 + 4 * r) 0
  m.putO c d r v (List.replicate (64 * aW d) (0, 0))

/-- RESCALE of row r (R202). A NaN in m makes the row NaN as one in n does (DEDUCED, log entry 15). -/
def Module.rescaleRow (m : Module) (c d r : Nat) (v : VecRun) : Module × VecRun :=
  let mv := m.fpAt (aS d + 4 * r) c
  let n := m.fpAt (aN d + 4 * r) c
  if mv.isNan || n.isNan then m.nanRow c d r v
  else if Val.cmp 0 mv n then
    let (a, fa) := expsubOut mv n
    let av := Val.ofFp32 a
    let out := (List.range (64 * aW d)).map fun j => ((m.fpAt (aOat d r j) c).mul av).toFp32
    let (l, fl) := ((m.fpAt (aS d + 256 + 4 * r) c).mul av).toFp32
    let m1 := (m.putFp c (aS d + 4 * r) n.toFp32.1).putFp c (aS d + 256 + 4 * r) l
    m1.putO c d r (v.noteFlags (fa ||| fl)) out
  else if Val.cmp 0 n mv then (m, v.noteFlags Flags.invalid)
  else (m, v)

/-- a2 · x2 + a1 · x1 with the roundings of R203: the product a1 · x1 is rounded, and skipped where a1 is exactly 1. -/
def mergeTerm (a1 a2 : Option Val) (x1 x2 : Val) : Word × Flags :=
  let (t, f1) := match a1 with | none => (x1, 0) | some a => (a.mul x1).round
  let (w, f2) := (((a2.getD (.fin (Dy.ofInt 1))).mul x2).add t).toFp32
  (w, f1 ||| f2)

/-- MERGE of row r (R203). -/
def Module.mergeRow (m : Module) (c d r : Nat) (v : VecRun) : Module × VecRun :=
  let m1 := m.fpAt (aS d + 4 * r) c
  let m2 := m.fpAt (aN d + 4 * r) c
  if m1.isNan || m2.isNan then m.nanRow c d r v
  else
    let mx := Val.pick true m1 m2
    let factor (x : Val) : Option Val × Flags :=
      if Val.cmp 2 x mx then (none, 0) else let (a, f) := expsubOut x mx; (some (Val.ofFp32 a), f)
    let (a1, f1) := factor m1
    let (a2, f2) := factor m2
    let (l, fl) := mergeTerm a1 a2 (m.fpAt (aS d + 256 + 4 * r) c) (m.fpAt (aN d + 256 + 4 * r) c)
    let out := (List.range (64 * aW d)).map fun j =>
      mergeTerm a1 a2 (m.fpAt (aOat d r j) c) (m.fpAt (aX d + r * 256 * aW d + 4 * j) c)
    let m3 := (m.putFp c (aS d + 4 * r) mx.toFp32.1).putFp c (aS d + 256 + 4 * r) l
    m3.putO c d r (v.noteFlags (f1 ||| f2 ||| fl)) out

/-- m + ln l where the manual states no result, l being 0 or negative: a free value (log entry 10), whose flags are those that R113 names for what
is written: a NaN is the canonical one and sets INVALID, an infinity of finite operands sets OVERFLOW and INEXACT. -/
def lseOpen (mv l : Val) : Word × Flags :=
  match Val.ofFp32 (Config.lse mv.toFp32.1 l.toFp32.1) with
  | .nan => (fp32Nan, Flags.invalid)
  | .inf _ => (Config.lse mv.toFp32.1 l.toFp32.1, if mv.isFin && l.isFin then Flags.overflow ||| Flags.inexact else 0)
  | .fin _ => (Config.lse mv.toFp32.1 l.toFp32.1, 0)

/-- The LSE value of a row (R202): m + ln l. A NaN gives a NaN; an infinite m or l gives that infinity, opposite ones a NaN (R91, R101). -/
def lseOut (mv l : Val) : Word × Flags :=
  match mv, l with
  | .nan, _ | _, .nan => (fp32Nan, Flags.invalid)
  | .fin a, .fin b => if b.m = 0 ∨ b.neg then lseOpen mv l else lseNear a b
  | .inf n, .fin b => if b.m = 0 ∨ b.neg then lseOpen mv l else ((Val.inf n).toFp32.1, 0)
  | _, .inf true => lseOpen mv l
  | .fin _, .inf false => ((Val.inf false).toFp32.1, 0)
  | .inf n, .inf false => if n then (fp32Nan, Flags.invalid) else ((Val.inf false).toFp32.1, 0)

/-- FINISH of row r (R202). -/
def Module.finishRow (m : Module) (c d r : Nat) (v : VecRun) : Module × VecRun :=
  let l := m.fpAt (aS d + 256 + 4 * r) c
  let zero := match l with | .fin x => x.m == 0 | _ => false
  let (q, fq) := if zero then (0, Flags.invalid) else rcpOut l
  let out := (List.range (64 * aW d)).map fun j =>
    if zero then ((0 : Word), (0 : Flags)) else ((m.fpAt (aOat d r j) c).mul (Val.ofFp32 q)).toFp32
  let v := v.noteFlags (fq ||| Flags.orAll (out.map (·.2)))
  let base := aX d + r * m.aPitch c d
  let words := out.map (·.1)
  let (m1, v) := if aCvt d = 0 then (m.put (scrKey c base) ((words.map fun w => leBytes 4 w.toNat).flatten), v)
    else
      let w := m.word .VEC_CVT c (aCvt d - 1)
      let bits := (cvtTarget w).bits
      (List.range (aW d)).foldl (fun (acc : Module × VecRun) k =>
        let (m', codes, fl, _) := acc.1.convRow c w false ((words.drop (64 * k)).take 64) (List.replicate 64 true) 0
        (m'.writeLanes c (base + k * 8 * bits) bits codes (List.replicate 64 true), acc.2.noteFlags (Flags.orAll fl))) (m, v)
  if aLse d then
    let (w, fl) := lseOut (m.fpAt (aS d + 4 * r) c) l
    (m1.putFp c (aN d + 4 * r) w, v.noteFlags fl)
  else (m1, v)

/-- Poisoned lines that an attention descriptor reads: of its records, O, the second O and the new maxima (R195). -/
def Module.aPoisoned (m : Module) (c d : Nat) : List Nat :=
  let n := aRows d
  let own := if aOp d = 0 then [] else [(aS d, 512)] ++
    (if aScratch d then [(aO d, n * 256 * aW d)] else (List.range (aW d)).map fun w => (0x20_0000 + (aTile d + w) * 0x4000, n * 256))
  let more := if aOp d = 1 then [(aN d, 4 * n)] else if aOp d = 2 then [(aN d, 512), (aX d, n * 256 * aW d)] else []
  ((own ++ more).map fun (o, k) => (wordsOf (scrKey c o) k).filter m.wordBad).flatten

/-- A row of the command table for one attention operation: the descriptor at the head of the vector queue leaves it, is checked
(R207) and acts on its rows; VEC_DESC_COMPLETE ends it. -/
def Module.atnStart (m : Module) (c op : Nat) (row : Module → Nat → Nat → VecRun → Module × VecRun) : Module :=
  let k := m.core c
  match k.vxq, k.vec with
  | d :: q, none =>
    if d.kind ≠ .atn ∨ aOp d.bits ≠ op then m
    else
      match m.aStatus c d.bits with
      | some st => m.atnReject c st d
      | none =>
        let m0 := (m.setCore c { k with vxq := q }).bumpBy F.VEC_POISON_CNT_COUNT c (m.aPoisoned c d.bits).length
        let (m1, v) := (List.range (aRows d.bits)).foldl (fun (acc : Module × VecRun) r => row acc.1 d.bits r acc.2)
          (m0, ⟨d, 1, 0, false, 0, 0, 0, [], none⟩)
        let m2 := m1.count c 17 (aRows d.bits)
        m2.setCore c { m2.core c with vec := some v }
  | _, _ => m

/-- ATN_INIT (R202). -/
def execAtnInit (c : CoreId) (s : State) : Res := s.done (s.m.atnStart c 0 fun m d r v => m.initRow c d r v)
/-- ATN_RESCALE (R202). -/
def execAtnRescale (c : CoreId) (s : State) : Res := s.done (s.m.atnStart c 1 fun m d r v => m.rescaleRow c d r v)
/-- ATN_MERGE (R203). -/
def execAtnMerge (c : CoreId) (s : State) : Res := s.done (s.m.atnStart c 2 fun m d r v => m.mergeRow c d r v)
/-- ATN_FINISH (R202). -/
def execAtnFinish (c : CoreId) (s : State) : Res := s.done (s.m.atnStart c 3 fun m d r v => m.finishRow c d r v)

end Sys2Proof.Machine
end

