-- ==== Sys2Proof/Machine/Bank.lean ====
section
/-! DEFINITION. Bank operations (R259 to R280), page steps, refresh and the recomputation of pending pages (R252, R256). -/

namespace Sys2Proof.Machine

/-! ### The descriptor (R260) -/

/-- OP. -/
def bOp (d : Nat) : Nat := bitsAt d 0 4
/-- TGT. -/
def bTgt (d : Nat) : Bool := bitOf d 4
/-- LODGER. -/
def bLodger (d : Nat) : Nat := bitsAt d 5 2
/-- AFMT. -/
def bAfmt (d : Nat) : Nat := bitsAt d 8 4
/-- BFMT. -/
def bBfmt (d : Nat) : Nat := bitsAt d 12 4
/-- DFMT. -/
def bDfmt (d : Nat) : Nat := bitsAt d 16 4
/-- RND. -/
def bRnd (d : Nat) : Nat := bitsAt d 20 2
/-- TSLOT. -/
def bTslot (d : Nat) : Nat := bitsAt d 22 2
/-- SEED. -/
def bSeed (d : Nat) : Nat := bitsAt d 32 32
/-- APAGE. -/
def bApage (d : Nat) : Nat := bitsAt d 64 19
/-- BPAGE. -/
def bBpage (d : Nat) : Nat := bitsAt d 96 19
/-- DPAGE. -/
def bDpage (d : Nat) : Nat := bitsAt d 128 19
/-- NPAGES. -/
def bN (d : Nat) : Nat := bitsAt d 160 19
/-- S. -/
def bS (d : Nat) : Word := BitVec.ofNat 32 (bitsAt d 192 32)
/-- T. -/
def bT (d : Nat) : Word := BitVec.ofNat 32 (bitsAt d 224 32)

/-- What an operation uses (R261): A, B, D, S, T, the table slot; none for a reserved code. -/
def bUses (op : Nat) : Option (Bool × Bool × Bool × Bool × Bool × Bool) :=
  match op with
  | 0 => some (false, false, true, false, true, false)
  | 1 => some (true, false, true, false, false, false)
  | 2 | 3 | 4 | 5 => some (true, true, true, false, false, false)
  | 6 => some (true, true, true, true, false, false)
  | 7 => some (true, false, true, true, true, false)
  | 8 => some (true, false, true, false, false, true)
  | 9 => some (true, false, false, false, false, true)
  | _ => none

/-- The slice that a descriptor of core c names (R260): its own, or the one at a place of its cluster. -/
def bSlice (c d : Nat) : Nat := if bTgt d then clusterCore (coreCluster c) (bLodger d) else c

/-- The ranges an operation uses, as first pages. -/
def bRanges (d : Nat) : List Nat :=
  match bUses (bOp d) with
  | some (a, b, dd, _) => (if a then [bApage d] else []) ++ (if b then [bBpage d] else []) ++ (if dd then [bDpage d] else [])
  | none => []

/-- A format of R263: FP32, BF16, FP16, E4M3 or E5M2. -/
def bankFmt (f : Nat) : Option Fmt := if f ≤ 4 then Fmt.ofCode f else none

/-- DESC_INVALID (R279): reserved codes, RSVD bits, fields R261 does not name, LODGER without TGT, NPAGES, and a D that overlaps A or
B without sharing its first page. -/
def bInvalid (d : Nat) : Bool :=
  match bUses (bOp d) with
  | none => true
  | some (a, b, dd, s, t, ts) =>
    let lt := bOp d == 9
    let meets (x : Nat) := decide (x ≠ bDpage d) && rangesMeet (x, x + bN d) (bDpage d, bDpage d + bN d)
    bRnd d == 3 || bitOf d 7 || bitsAt d 24 8 != 0 || bitsAt d 83 13 != 0 || bitsAt d 115 13 != 0 || bitsAt d 147 13 != 0
      || bitsAt d 179 13 != 0
      || (!a && (bApage d != 0 || bAfmt d != 0)) || (lt && bAfmt d != 0) || (!b && (bBpage d != 0 || bBfmt d != 0))
      || (!dd && (bDpage d != 0 || bDfmt d != 0)) || (!s && bS d != 0) || (!t && bT d != 0) || (!ts && bTslot d != 0)
      || (!bTgt d && bLodger d != 0) || bN d == 0 || decide (bN d > 327680) || (lt && bN d != 1)
      || (dd && a && meets (bApage d)) || (dd && b && meets (bBpage d))

/-- FORMAT_INVALID (R263, R279): a format outside R263, or ranges of different element sizes. -/
def bFormatBad (d : Nat) : Bool :=
  if bOp d = 9 then false
  else
    let used := match bUses (bOp d) with
      | some (a, b, dd, _) => (if a then [bAfmt d] else []) ++ (if b then [bBfmt d] else []) ++ (if dd then [bDfmt d] else [])
      | none => []
    let sizes := used.map fun f => (bankFmt f).map Fmt.bits
    sizes.any (·.isNone) || sizes.any fun x => x != sizes.headD none

/-- The status by which the controller rejects a descriptor of core c (R279); none where it runs. -/
def Module.bStatus (m : Module) (c d : Nat) : Option Nat :=
  let t := bSlice c d
  let at' (p : Nat) : Nat := 0x1000_0000_0000 + t * 0x8000_0000 + p * 4096
  let allowed (p right : Nat) : Bool :=
    match m.partOf c with
    | some q => m.rights q.num (at' p) (bN d * 4096) &&& right == right
    | none => false
  if bInvalid d then some 3
  else if bFormatBad d then some 1
  else if (bRanges d).any fun p => decide (p + bN d > 327680) then some 5
  else if (bRanges d).any fun p => p % 64 != (bRanges d).headD 0 % 64 then some 6
  else if bTgt d && !m.sibling c t then some 0x0B
  else if (bRanges d).any (fun p => !allowed p Right.bank) || (bOp d != 9 && !allowed (bDpage d) (Right.bank + Right.write)) then
    some 7
  else if (match m.partOf c with | some q => !Nat.testBit q.bankEn t || q.kind == 2 | none => true) then some 8
  else if bOp d == 8 && (Tbl.get [] (m.slice t).slots (bTslot d)).isEmpty then some 9
  else none

/-- Distinct pages that a page step reads or writes (R261). -/
def bR (d : Nat) : Nat :=
  let shared := bDpage d == bApage d || (decide (2 ≤ bOp d) && decide (bOp d ≤ 6) && bDpage d == bBpage d)
  match bOp d with
  | 0 | 9 => 1
  | 1 | 7 | 8 => if bDpage d = bApage d then 1 else 2
  | 5 => 3
  | _ => if shared then 2 else 3

/-- t_RC in ns (R272). -/
def bTrc (d : Nat) : Nat := 128 + 24 * bR d

/-! ### Arithmetic of a bank unit (R264 to R267, R277) -/

/-- An FP32 number of an activation table. -/
def tabVal (t : List Byte) (o : Nat) : Val := Val.ofFp32 (BitVec.ofNat 32 (leNat ((t.drop o).take 4)))

/-- ⌊v⌋ against n: the index of the segment, none at or beyond n. -/
def segIndex (v : Val) (n : Nat) : Option Nat :=
  match v with
  | .fin d =>
    let i := if d.neg then 0 else if 0 ≤ d.e then d.m <<< d.e.toNat else d.m / 2 ^ (-d.e).toNat
    if i ≥ n then none else some i
  | _ => none

/-- x < y as numbers, for x not NaN: the two zeros are equal. -/
def Val.less (x y : Val) : Bool :=
  let zero (v : Val) : Bool := match v with | .fin d => d.m == 0 | _ => false
  x.below y && !(zero x && zero y)

/-- ACT (R267): the FP32 result of a table on x. -/
def actOut (t : List Byte) (x : Val) : Word × Flags :=
  if x.isNan then (fp32Nan, Flags.invalid)
  else
    let n := leNat ((t.drop 8).take 4)
    let seg : Nat :=
      if x.less (tabVal t 0) then 0x10
      else
        let u := (((x.add (tabVal t 0).negate).round).1.mul (tabVal t 4)).round.1
        match segIndex u n with
        | some i => 0x40 + 8 * i
        | none => 0x18
    let slope := tabVal t seg
    let icpt := tabVal t (seg + 4)
    let flat := match slope with | .fin d => d.m == 0 | _ => false
    match x with
    | .inf _ => if flat then icpt.toFp32 else ((slope.mul x).add icpt).toFp32
    | _ => ((slope.mul x).add icpt).toFp32

/-- The FP32 result of one element (R261, R264) and its flags, before conversion. -/
def bLane (op : Nat) (tab : List Byte) (s t a b dv : Val) : Word × Flags :=
  match op with
  | 0 => t.toFp32
  | 1 => a.toFp32
  | 2 => (a.add b).toFp32
  | 3 => (a.add b.negate).toFp32
  | 4 => (a.mul b).toFp32
  | 5 => ((a.mul b).add dv).toFp32
  | 6 => ((s.mul a).add b).toFp32
  | 7 => ((s.mul a).add t).toFp32
  | _ => actOut tab a

/-- The NaN that a bank unit writes for a poisoned operand (R277). -/
def bankNan : Fmt → Nat
  | .fp32 => 0x7FC0_0000 | .bf16 => 0x7FC0 | .fp16 => 0x7E00 | .e4m3 => 0x7F | _ => 0x7E

/-- The fare that a bank operation's page steps are charged to (R270). -/
def Module.bopFare (m : Module) (b : BopRun) (t : Nat) : Nat :=
  match m.partOf b.issuer with
  | some p =>
    fareKey p.num (if bitsAt p.modes 1 1 = 1 then b.desc.fare
      else m.rangeFare p.num (0x1000_0000_0000 + t * 0x8000_0000 + bDpage b.desc.bits * 4096))
  | none => fareKey 16 0

/-- One operand element of a page step: its value, its widening flags, and whether its word is delivered poisoned. -/
def bankElem (f : Fmt) (l : List Byte) (bad : List Nat) (k i : Nat) : Lane :=
  let (v, fl) := widen f (packedAt f.bits l i)
  ⟨v, fl, bad.contains ((k + i * f.bits / 8) / 64)⟩

/-- Whether a bank operation converts stochastically (R265). -/
def Module.bopStochastic (m : Module) (b : BopRun) : Bool :=
  let r := bRnd b.desc.bits
  (r == 2 || (r == 0 && m.defaultStochastic b.issuer)) && bDfmt b.desc.bits != 0

/-- Page i of slice t's bank operation, worked by bank k: the module after it and the run with its flags, generators and poisoned
elements. -/
def Module.bopPage (m : Module) (t : Nat) (b : BopRun) (k i : Nat) : Module × BopRun :=
  let d := b.desc.bits
  let op := bOp d
  let fa := (bankFmt (bAfmt d)).getD .fp32
  let fb := (bankFmt (bBfmt d)).getD .fp32
  let fd := (bankFmt (bDfmt d)).getD .fp32
  let key (p : Nat) := nearKey t ((p + i) * 4096)
  let useA := decide (1 ≤ op) && decide (op ≤ 8)
  let useB := decide (2 ≤ op) && decide (op ≤ 6)
  let pages := (if useA then [key (bApage d)] else []) ++ (if useB then [key (bBpage d)] else []) ++
    (if op = 5 then [key (bDpage d)] else [])
  let words := (pages.eraseDups.map fun p => wordsOf p 4096).flatten
  let bad := words.filter m.wordBad
  let m1 := (words.foldl (fun (m : Module) w => m.noteWord w) m).bumpBy F.BNK_POISON_CNT_COUNT t bad.length
  let la := if useA then m.bytes (key (bApage d)) 4096 else []
  let lb := if useB then m.bytes (key (bBpage d)) 4096 else []
  let ld := if op = 5 then m.bytes (key (bDpage d)) 4096 else []
  let tab := Tbl.get [] (m.slice t).slots (bTslot d)
  let sv := Val.ofFp32 (bS d)
  let tv := Val.ofFp32 (bT d)
  let zero : Lane := ⟨.fin (Dy.zero false), 0, false⟩
  let sto := m.bopStochastic b
  let n := 4096 * 8 / fd.bits
  let (codes, fl, g, nb, ns) := (List.range n).foldl (fun (acc : List Nat × Flags × DWord × Nat × Nat) j =>
    let (cs, fl, g, nb, ns) := acc
    let a := if useA then bankElem fa la bad (key (bApage d)) j else zero
    let x := if useB then bankElem fb lb bad (key (bBpage d)) j else zero
    let dv := if op = 5 then bankElem fd ld bad (key (bDpage d)) j else zero
    let own (l : Lane) : Flags := if l.bad then 0 else l.fl
    if a.bad || x.bad || dv.bad then (bankNan fd :: cs, fl ||| Flags.invalid ||| own a ||| own x ||| own dv, g, nb + 1, ns)
    else
      let (w, f1) := bLane op tab sv tv a.v x.v dv.v
      let g' := if sto then nextRandom g else g
      let (code, f2) := if fd = .fp32 then (w.toNat, (0 : Flags))
        else elemCode fd none (Val.ofFp32 w) (if sto then .stochastic (g' >>> 48).toNat else .nearest)
      (code :: cs, fl ||| a.fl ||| x.fl ||| dv.fl ||| f1 ||| f2, g', nb, if f2.hasSat then ns + 1 else ns))
    ([], 0, Tbl.get 0 b.gens k, 0, 0)
  let m2 := m1.put (key (bDpage d)) (leBytes 4096 (packCodes fd.bits codes.reverse))
  let sl := m2.slice t
  let m3 := m2.setSlice t { sl with pending := NSet.insert sl.pending (bDpage d + i) }
  let m4 := m3.setWord .BNK_FLAGS t 0 (m3.word .BNK_FLAGS t ||| fl.setWidth 32)
  (m4.count b.issuer (39 + fd.code) ns, { b with flags := b.flags ||| fl, gens := Tbl.set 0 b.gens k g, bad := b.bad + nb })

/-- A table that LOADTAB accepts (R268): LO and INV_STEP finite, INV_STEP > 0, N 1 to 120, RSVD fields 0. -/
def tableOk (l : List Byte) : Bool :=
  let f (o : Nat) := leNat ((l.drop o).take 4)
  let n := f 8
  (tabVal l 0).isFin && (match tabVal l 4 with | .fin d => decide (d.m ≠ 0) && !d.neg | _ => false)
    && decide (1 ≤ n) && decide (n ≤ 120) && f 0xC == 0 && leNat ((l.drop 0x20).take 0x20) == 0

/-- LOADTAB's page step (R268, R277): a table that breaks R268, or a poisoned word of its 1,024 bytes, leaves the slot as it was. -/
def Module.loadTab (m : Module) (t : Nat) (b : BopRun) : Module × BopRun :=
  let d := b.desc.bits
  let (m1, l, bad) := m.load' (nearKey t (bApage d * 4096)) 1024
  let m2 := m1.bumpBy F.BNK_POISON_CNT_COUNT t bad.length
  if !bad.isEmpty || !tableOk l then (m2, { b with status := 0x0A })
  else
    let s := m2.slice t
    (m2.setSlice t { s with slots := Tbl.set [] s.slots (bTslot d) l }, b)

/-! ### Issue (R269, R272) -/

/-- The slice whose controller takes a descriptor of core c (R269): the lodger slice that it names, of which c is a listed sibling, else its own,
which rejects a descriptor that names another (R279; DEDUCED, log entry 108). -/
def Module.bCtl (m : Module) (c d : Nat) : Nat := if m.sibling c (bSlice c d) then bSlice c d else c

/-- Removes every bank-operation descriptor of a core and reports the one rejected (R279), at the slice whose controller took it. -/
def Module.bopReject (m : Module) (c status : Nat) (d : Desc) : Module :=
  (m.wr F.BNK_STS_LAST_ERR (m.bCtl c d.bits) status).reject c .bk 3 status d

/-- A bank operation of core c runs on another slice than t of its cluster: the queue's next descriptor waits for its end, so that the queue
keeps its order (R135, R269). -/
def Module.bopElsewhere (m : Module) (c t : Nat) : Bool :=
  (List.range 4).any fun p =>
    let u := clusterCore (coreCluster c) p
    u != t && (match (m.slice u).bop with | some b => b.issuer == c && !b.abandoned | none => false)

/-- The place in the cluster from which the controller of slice t would take a descriptor now (R20, R269): the first from its pointer
on whose queue's head names the slice. -/
def Module.bopGrant (m : Module) (t : Nat) : Option Nat :=
  let cl := coreCluster t
  ((List.range 4).map fun i => ((m.slice t).ptr + i) % 4).find? fun p =>
    let c := clusterCore cl p
    match (m.core c).bkq with
    | d :: _ => m.bCtl c d.bits == t && !m.bopElsewhere c t
    | [] => false

/-- A bank operation leaves core c's queue (R272 steps 2 and 3): the head descriptor, where it is one of this operation, its slice's
controller is idle and the arbiter grants it. A descriptor that R279 rejects changes nothing. -/
def Module.bopStart (m : Module) (c op : Nat) : Module :=
  match (m.core c).bkq with
  | [] => m
  | d :: rest =>
    let t := m.bCtl c d.bits
    if bOp d.bits ≠ op ∨ (m.slice t).bop.isSome ∨ m.bopGrant t ≠ some (corePlace c) then m
    else
      let s := m.slice t
      let m := (m.setSlice t { s with ptr := (corePlace c + 1) % 4 }).wr F.BNK_STS_ISSUER t (corePlace c)
      match m.bStatus c d.bits with
      | some e => m.bopReject c e d
      | none =>
        let gens := (List.range 64).foldl (fun g k =>
          Tbl.set 0 g k (seedLane (BitVec.ofNat 64 (bSeed d.bits * 2 ^ 32)) k)) ([] : Tbl DWord)
        let m := m.setCore c { m.core c with bkq := rest }
        let m := m.wr F.BNK_PROGRESS_PAGES t 0
        m.setSlice t { m.slice t with bop := some ⟨d, c, true, [], gens, 0, 0, 0, false, []⟩ }

/-- FILL (R261). -/
def execBopFill (c : CoreId) (s : State) : Res := s.done (s.m.bopStart c 0)
/-- COPY (R261). -/
def execBopCopy (c : CoreId) (s : State) : Res := s.done (s.m.bopStart c 1)
/-- ADD (R261). -/
def execBopAdd (c : CoreId) (s : State) : Res := s.done (s.m.bopStart c 2)
/-- SUB (R261). -/
def execBopSub (c : CoreId) (s : State) : Res := s.done (s.m.bopStart c 3)
/-- MUL (R261). -/
def execBopMul (c : CoreId) (s : State) : Res := s.done (s.m.bopStart c 4)
/-- FMA (R261). -/
def execBopFma (c : CoreId) (s : State) : Res := s.done (s.m.bopStart c 5)
/-- AXPY (R261). -/
def execAxpy (c : CoreId) (s : State) : Res := s.done (s.m.bopStart c 6)
/-- AFFINE (R261). -/
def execAffine (c : CoreId) (s : State) : Res := s.done (s.m.bopStart c 7)
/-- ACT (R261, R267). -/
def execAct (c : CoreId) (s : State) : Res := s.done (s.m.bopStart c 8)
/-- LOADTAB (R261, R268). -/
def execLoadtab (c : CoreId) (s : State) : Res := s.done (s.m.bopStart c 9)

/-- BOP_RESERVED_OP (R279): the head descriptor of core c, where its OP is reserved, is rejected DESC_INVALID. -/
def execBopReservedOp (c : CoreId) (s : State) : Res :=
  s.done (match (s.m.core c).bkq with
    | d :: _ => if bOp d.bits ≥ 10 then s.m.bopStart c (bOp d.bits) else s.m
    | [] => s.m)

/-! ### Steps -/

/-- BOP_CLEAN_DONE (R272 step 3): the slice cache has written back and invalidated every line of the ranges; page steps begin. It
waits where the write of a line must (R298, R300, R304). -/
def execBopCleanDone (sl : CoreId) (s : State) : Res :=
  let x := s.m.slice sl
  s.done (match x.bop with
    | some b =>
      if !b.cleaning then s.m
      else
        let mine (l : Line) : Bool := (bopRanges b.desc.bits).any fun (first, k) => inPages first k (wordPage l.word * 4096)
        let old := x.cache.filterMap fun (_, l) => l.bind fun l => if l.dirty && mine l then some l.word else none
        let q : Asker := { src := sl, key := 8192 + sl }
        let ran := s.m.ranOf q
        match old.findSome? (s.m.bankHolds ran) with
        | some x => s.m.holdAsker q (.slice sl 0) x
        | none =>
          let m := (old.foldl (fun (m : Module) w => m.writeBack w ran) s.m).forget q.key
          m.setSlice sl { (m.slice sl).dropLines mine with bop := some { b with cleaning := false } }
    | none => s.m)

/-- A bank begins a refresh (R252). -/
def Slice.refresh (x : Slice) (bank now : Nat) : Slice :=
  { x with refreshWait := NSet.erase x.refreshWait bank, refreshAt := Tbl.set 0 x.refreshAt bank now }

/-- Bank k of slice t has a page step under way. -/
def Slice.stepIn (x : Slice) (k : Nat) : Bool :=
  match x.bop with
  | some b => !b.cleaning && b.stepping.contains k && !(b.abandoned && b.ended.contains k)
  | none => false

/-- PAGE_STEP_END (R272 step 4): bank k ends the page step under way, its next page of the run in ascending order; the step is charged
to its fare (R270), and a refresh that waited for the step begins (R252). After its issuer left for HELD, the operation ends with
the last such step (R278). -/
def Module.pageStep (m : Module) (t k : Nat) : Module :=
  match (m.slice t).bop with
  | none => m
  | some b =>
    if !(m.slice t).stepIn k then m
    else
      let i := (bopBankPages b.desc.bits k).getD (Tbl.get 0 b.done k) 0
      let (m1, b1) := if bOp b.desc.bits = 9 then m.loadTab t b else m.bopPage t b k i
      let b2 := { b1 with
        done := Tbl.upd 0 b1.done k (· + 1)
        ended := if b1.abandoned then NSet.insert b1.ended k else b1.ended }
      let m2 := (m1.count b.issuer (23 + bOp b.desc.bits) 1).charge t (m.bopFare b t) 0 (8 * bTrc b.desc.bits) true
      let m3 := m2.wr F.BNK_PROGRESS_PAGES t (m2.rd F.BNK_PROGRESS_PAGES t + 1)
      let x := m3.slice t
      let x := if x.refreshWait.contains k then x.refresh k (m.datumOf (coreDie t)) else x
      let ends := b2.abandoned && b2.stepping.all fun j => b2.ended.contains j
      (m3.setSlice t { x with bop := if ends then none else some b2 }).flushReads t

/-- PAGE_STEP_END (R272). -/
def execPageStepEnd (sl : CoreId) (bank : BankId) (s : State) : Res := s.done (s.m.pageStep sl bank)

/-- The result word of a bank operation (R273). -/
def bopWord (b : BopRun) : Nat := b.flags.toNat * 256 + b.bad % 2 ^ 32 * 2 ^ 32

/-- BOP_COMPLETE (R272 steps 5 and 6, R273): once every bank's last page step has ended, protection ends; an operation that ended with
TABLE_INVALID reaches its issuer as a rejection (R279), any other writes its result word and counts its event. -/
def Module.bopComplete (m : Module) (t : Nat) : Module :=
  match (m.slice t).bop with
  | none => m
  | some b =>
    if b.cleaning || b.abandoned || !b.stepping.isEmpty then m
    else
      let c := b.issuer
      let m := m.setSlice t { m.slice t with bop := none }
      if b.status ≠ 0 then m.bopReject c b.status b.desc
      else
        let m := match b.desc.ev with
          | some e => m.put (scrKey c (0x17_FF00 + 8 * e)) (leBytes 8 (bopWord b))
          | none => m
        m.descDone c 3 0 b.desc

/-- BOP_COMPLETE (R273). -/
def execBopComplete (sl : CoreId) (s : State) : Res := s.done (s.m.bopComplete sl)

/-- REFRESH (R252): a bank of a live slice refreshes, after any page step in progress. A slice that is not live is not refreshed
(R253). -/
def execRefresh (sl : CoreId) (bank : BankId) (s : State) : Res :=
  let x := s.m.slice sl
  s.done (if !s.m.sliceLive sl then s.m
    else if x.stepIn bank then s.m.setSlice sl { x with refreshWait := NSet.insert x.refreshWait bank }
    else s.m.setSlice sl (x.refresh bank (s.m.datumOf (coreDie sl))))

/-- A pending page's check word is computed from its words as the light code leaves them, and its mark cleared (R256, R306). -/
def Module.recompute (m : Module) (page : Nat) : Module :=
  let c := wordUnit (page * 64)
  let m := (((List.range 64).map fun i => page * 64 + i).foldl (fun (m : Module) w => if m.wordClass w = 1 then m.noteLight w else m) m).recheck page
  let x := m.slice c
  (m.setSlice c { x with pending := NSet.erase x.pending (wordPage (page * 64)) }).bump F.ECC_RECOMP_COUNT (coreDie c)

/-- PAGE_RECOMPUTE (R256): the page-code engine recomputes a pending page's strong code and clears its mark. -/
def execPageRecompute (sl : CoreId) (page : Fin 327680) (s : State) : Res :=
  let x := s.m.slice sl
  s.done (if x.pending.contains page.val then
      s.m.recompute (nearKey sl (page * 4096) / 4096)
    else s.m)

end Sys2Proof.Machine
end

