-- ==== Sys2Proof/Machine/Ecc.lean ====
section
/-! DEFINITION. Slow paths, far devices, the scrubber and field repair (R300 to R310). -/

namespace Sys2Proof.Machine

/-! ### Slow paths (R300, R301) -/

/-- Decoders of a slow-path queue: one in a far controller, four in a die's page-code engine. -/
def decoders (u : Nat) : Nat := if u < 20 then 1 else 4

/-- Marks the first path that no decoder runs. -/
def beginFirst : List SlowPath → List SlowPath
  | [] => []
  | x :: t => if x.begun then x :: beginFirst t else { x with begun := true } :: t

/-- SLOW_PATH_BEGIN (R300): the oldest queued path reaches a free decoder. -/
def execSlowPathBegin (u : Fin 24) (s : State) : Res :=
  let l := s.m.slowOf u
  s.done (if (l.filter (·.begun)).length < decoders u then s.m.setSlow u (beginFirst l) else s.m)

/-- Removes the first path that a decoder runs. -/
def takeBegun : List SlowPath → Option (SlowPath × List SlowPath)
  | [] => none
  | x :: t => if x.begun then some (x, t) else (takeBegun t).map fun (y, r) => (y, x :: r)

/-- What a slow path delivers is kept for the units that wait for it (R301). -/
def Module.putRan (m : Module) (x : SlowPath) : Module :=
  let r : Ran := ⟨x.word, m.bytes (x.word * 64) 64, m.wordBad x.word⟩
  { m with ran := x.waiters.foldl (fun t k => Tbl.upd [] t k fun s => s.filter (·.word != x.word) ++ [r]) m.ran }

/-- A slow path ends (R299 to R301): it is counted, the units that wait for it may go on, and the requests held behind it are delivered: reads
of its word first, which receive its result, then the writes. The stored word is not rewritten. Requests that found the queue full try
again. -/
def Module.endSlow (m : Module) (u : Nat) (x : SlowPath) (rest : List SlowPath) : Module :=
  let m := (m.setSlow u rest).noteSlow x.word
  let m := m.putRan x
  let held := x.held.map fun h => { h with ran := NSet.insert h.ran x.word }
  let m := (m.deliverAll (held.filter HeldReq.isRead)).deliverAll (held.filter fun h => !h.isRead)
  { m with slowBack := Tbl.set [] m.slowBack u [] }.deliverAll (Tbl.get [] m.slowBack u)

/-- SLOW_PATH_DONE (R299 to R301): the oldest running path of a queue ends. -/
def execSlowPathDone (u : Fin 24) (s : State) : Res :=
  s.done (match takeBegun (s.m.slowOf u) with
    | none => s.m
    | some (x, rest) => s.m.endSlow u x rest)

/-! ### Far devices (R302, R303) -/

/-- Everything held at a far device is delivered. -/
def Module.flushFar (m : Module) (j : Nat) : Module :=
  let l := (m.far j).held
  (m.setFar j { m.far j with held := [] }).deliverAll l

/-- A device is lost (R302): its requests, held ones included, complete DEVICE-LOST, and the floor plan takes note. -/
def Module.loseFar (m : Module) (j : Nat) : Module :=
  let m' := m.setFar j { m.far j with lost := true, retraining := false }
  let (m1, q) := m'.takeSlow j
  ((m1.flushFar j).deliverAll q).settle m .farLost j

/-- FMC_RETRAIN (R302): 16 consecutive transfers in error start a retraining. -/
def execFmcRetrain (f : FarId) (s : State) : Res :=
  let d := s.m.far f
  s.done (if s.m.farLost f || d.retraining then s.m
    else (s.m.setFar f { d with retraining := true, fails := 0 }).bump F.FMC_RETRAIN_COUNT f)

/-- FMC_RETRAIN_DONE (R302): an attempt ends; requests resume, a first failure is followed by a second attempt, a second one loses the
device. -/
def execFmcRetrainDone (f : FarId) (ok : Bool) (s : State) : Res :=
  let d := s.m.far f
  s.done (if !d.retraining then s.m
    else if ok then (s.m.setFar f { d with retraining := false, fails := 0 }).flushFar f
    else if d.fails = 0 then (s.m.setFar f { d with fails := 1 }).bump F.FMC_RETRAIN_COUNT f
    else s.m.loseFar f)

/-- Isolates a far device (R303). -/
def Module.isolate (m : Module) (j : Nat) : Module :=
  if m.rd F.FMC_CTL_ISOLATE j = 1 then m
  else
    let m' := m.wr F.FMC_CTL_ISOLATE j 1
    let (m1, q) := m'.takeSlow j
    ((m1.flushFar j).deliverAll q).settle m .farIsolated j

/-- FMC_ISOLATE (R303): a write of 1 by the physical function or Ostler; any other requester's is discarded. -/
def execFmcIsolate (req : Requester) (f : FarId) (s : State) : Res :=
  s.done (if privileged req.toNat then s.m.isolate f else s.m)

/-! ### The scrubber (R305 to R310) -/

/-- Bytes of a scrub target. -/
def scrubSize (kind : Nat) : Nat := if kind = 0 then 0x5000_0000 else 0x60_0000_0000
/-- The core or far device of a scrub target on die d. -/
def scrubUnit (d kind unit : Nat) : Nat := if kind = 0 then 144 * d + unit else 5 * d + unit
/-- The byte key of an offset of a scrub target. -/
def scrubKey (kind u o : Nat) : Nat := if kind = 0 then nearKey u o else farKey u o

/-- The status by which a scrub or repair target is refused (R308, R310); 0 where it is served. -/
def Module.scrubTarget (m : Module) (d kind unit : Nat) : Nat :=
  if kind > 1 ∨ (kind = 0 ∧ unit ≥ 144) ∨ (kind = 1 ∧ unit ≥ 5) then 1
  else if kind = 0 then (if m.sliceLive (144 * d + unit) then 0 else 3)
  else if m.farLost (5 * d + unit) then 4 else 0

/-- A write of SCB_CMD with OP 1 or 2 (R305, R306). A command that R310 refuses begins no scrub: it ends at once, with no summary
(DEDUCED, log entry 17). -/
def Module.scrubStart (m : Module) (src d : Nat) (repair : Bool) (kind unit fare : Nat) : Module :=
  if !privileged src then m
  else if m.rd F.SCB_STS_BUSY d = 1 then m.wr F.SCB_STS_CMD_LOST d 1
  else
    let start := m.rd F.SCB_START_LO_VALUE_LO d * 4096 + m.rd F.SCB_START_HI_VALUE_HI d * 2 ^ 32
    let len := m.rd F.SCB_LEN_LO_VALUE_LO d * 4096 + m.rd F.SCB_LEN_HI_VALUE_HI d * 2 ^ 32
    let t := m.scrubTarget d kind unit
    let st := if t = 1 ∨ len = 0 then 1 else if start + len > scrubSize kind then 2 else t
    if st ≠ 0 then ((m.wr F.SCB_STS_DONE d 1).wr F.SCB_STS_RESULT d st).event 0 5
    else
      let run : Scrub := ⟨repair, kind, unit, fare, start, len, start / 4096, 0, 0, 0, 0, 0, 0, 0, 0, [], [], m.datumOf d,
        m.datumOf d, false⟩
      let m := (m.wr F.SCB_STS_BUSY d 1).wr F.SCB_PROGRESS_PAGES d 0
      { m with scrubs := Tbl.set none m.scrubs d (some run) }

/-- SCRUB_SCAN (R305). -/
def execScrubScan (req : Requester) (d : LogicDie) (kind : Fin 4) (unit fare : Byte) (s : State) : Res :=
  s.done (s.m.scrubStart req.toNat d false kind unit.toNat fare.toNat)

/-- SCRUB_REPAIR (R306). -/
def execScrubRepair (req : Requester) (d : LogicDie) (kind : Fin 4) (unit fare : Byte) (s : State) : Res :=
  s.done (s.m.scrubStart req.toNat d true kind unit.toNat fare.toNat)

/-- A write of SCB_CMD with OP 3 (R308): the running scrub ends at the next page boundary. -/
def Module.scrubAbort (m : Module) (src d : Nat) : Module :=
  if !privileged src then m
  else { m with scrubs := Tbl.upd none m.scrubs d fun x => x.map fun x => { x with abort := true } }

/-- SCRUB_ABORT (R308). -/
def execScrubAbort (req : Requester) (d : LogicDie) (s : State) : Res := s.done (s.m.scrubAbort req.toNat d)

/-- What a scrub finds in a page by its words (R306): words corrected, words repaired, words not repaired. -/
structure PageFind where
  light : List Nat
  slow : List Nat
  lost : List Nat
  deriving DecidableEq, Repr

/-- The site of an offset of a scrub target. -/
def scrubSite (kind u o : Nat) : Site := if kind = 0 then .slice u o else .far u o

/-- The findings of the 64 words of a page; `pending` pages have no strong code to repair from. Words stored with POISON are left. -/
def Module.pageFind (m : Module) (page : Nat) (pending : Bool) : PageFind :=
  let ws := ((List.range 64).map fun i => page * 64 + i).filter fun w => !m.poison.contains w
  let bad (w : Nat) : Bool := m.wordClass w == 2 && (pending || !m.slowOk w)
  ⟨ws.filter fun w => m.wordClass w == 1, ws.filter fun w => m.wordClass w == 2 && !bad w, ws.filter bad⟩

/-- Counts what a read of a whole page found: each word corrected or repaired, and one slow path for its failing words (R311, R312). -/
def Module.noteFind (m : Module) (f : PageFind) (pending : Bool) : Module :=
  let m := f.light.foldl (fun (m : Module) w => m.noteLight w) m
  let m := f.slow.foldl (fun (m : Module) w =>
    (if isNearWord w then m.bump F.SLC_SLOWFIX_COUNT (wordUnit w) else m.bump F.FMC_SLOWFIX_COUNT (wordUnit w)).memErr w 1) m
  match f.slow ++ f.lost with
  | w :: _ => if isNearWord w && !pending then m.bump F.ECC_SLOW_COUNT (wordDie w) else m
  | [] => m

/-- The scrubber may not rewrite a word: its line is dirty in the slice cache, or a bank operation protects it (R307). -/
def Module.keepsWord (m : Module) (kind u page w : Nat) : Bool :=
  kind == 0 && ((m.slice u).dirty w || m.protects u (page * 4096 + w % 64 * 64) 64)

/-- Appends to a list of at most 16. -/
def push16 (l : List Nat) (b : Bool) (x : Nat) : List Nat := if b && decide (l.length < 16) then l ++ [x] else l

/-- The scrubber visits its next page (R306, R307). -/
def Module.scrubVisit (m : Module) (d : Nat) (x : Scrub) : Module × Scrub :=
  let u := scrubUnit d x.kind x.unit
  let p := x.next
  let page := scrubKey x.kind u (p * 4096) / 4096
  let prot := decide (x.kind = 0) && m.protects u (p * 4096) 4096
  let pending := decide (x.kind = 0) && m.pagePending u p
  let f0 := m.pageFind page pending
  let f : PageFind := if prot && pending then ⟨f0.light, [], []⟩ else f0
  let write (w : Nat) : Bool := x.repair && !m.keepsWord x.kind u p w
  let fix := (f.light ++ f.slow).filter write
  let poi := f.lost.filter write
  let kept := (f.light ++ f.slow ++ f.lost).length - fix.length - poi.length
  let ck := m.checkClass page == 2
  -- the check word is to be rewritten after a repair, a poisoning, its own failure, or on a pending page outside a protected range
  let ckDue := ck || !f.slow.isEmpty || !f.lost.isEmpty || (pending && !prot)
  let ckWrite := ckDue && x.repair && !prot
  let m1 := ((m.noteFind f0 pending).setPoison poi).freshCodes fix.contains
  let m2 := if ckWrite then m1.recheck page f.slow else m1
  let clears := pending && x.repair && !prot
  let m3 := if clears then
      (m2.setSlice u { m2.slice u with pending := NSet.erase (m2.slice u).pending p }).bump F.ECC_RECOMP_COUNT (coreDie u)
    else m2
  let ue := !f.lost.isEmpty
  let rep := !ue && !pending && (ck || !f.slow.isEmpty)
  let cand := ue || !f.slow.isEmpty || decide (f.light.length ≥ 4)
  let x' := { x with
    next := p + 1
    pages := x.pages + 1
    ce := x.ce + f.light.length
    repairs := x.repairs + (if rep then 1 else 0)
    rewritten := x.rewritten + fix.length + poi.length + (if ckWrite then 1 else 0)
    notRewritten := x.notRewritten + kept + (if ckDue && !ckWrite then 1 else 0)
    ue := x.ue + (if ue then 1 else 0)
    pendingRecomp := x.pendingRecomp + (if clears then 1 else 0)
    cands := x.cands + (if cand then 1 else 0)
    ueList := push16 x.ueList ue p
    candList := push16 x.candList cand p
    datumEnd := m.datumOf d }
  (m3.wr F.SCB_PROGRESS_PAGES d x'.pages, x')

/-- How a scrub must end now (R308): its last page visited, an abort, or the state of its target; none while it goes on. -/
def Module.scrubEnds (m : Module) (d : Nat) (x : Scrub) : Option Nat :=
  if x.next * 4096 ≥ x.start + x.len then some 0
  else if x.abort then some 5
  else if m.scrubTarget d x.kind x.unit ≠ 0 then some (m.scrubTarget d x.kind x.unit) else none

/-- The scrubber's read of its next page waits: for a page of range D, a field repair, or a far bus (R274, R302, R304). -/
def Module.scrubWaits (m : Module) (d : Nat) (x : Scrub) : Bool :=
  let u := scrubUnit d x.kind x.unit
  let k := scrubKey x.kind u (x.next * 4096)
  (m.holds (scrubSite x.kind u (x.next * 4096)) k 4096 false (wordsOf k 4096) .bank).isSome

/-- SCRUB_PAGE (R306): the running scrub visits one page, unless it must end or wait. Each page it visits is charged to its fare. -/
def execScrubPage (d : LogicDie) (s : State) : Res :=
  s.done (match Tbl.get none s.m.scrubs d.val with
    | none => s.m
    | some x =>
      if (s.m.scrubEnds d x).isSome || s.m.scrubWaits d x then s.m
      else
        let u := scrubUnit d x.kind x.unit
        let (m1, x') := s.m.scrubVisit d x
        let m2 := m1.beginAlone (if x.kind = 0 then u else 576 + u) ⟨fareKey 16 x.fare, none,
          if x.kind = 0 then 0x1000_0000_0000 + u * 0x8000_0000 + x.next * 4096 else x.next * 4096, 4096⟩
        { m2 with scrubs := Tbl.set none m2.scrubs d.val (some x') })

/-- Up to 16 page numbers of a summary list, the rest 0xFFFF_FFFF. -/
def listBytes (l : List Nat) : List Byte :=
  ((List.range 16).map fun i => leBytes 4 (l.getD i 0xFFFF_FFFF)).flatten

/-- The 256-byte summary record (R309). -/
def Scrub.summary (x : Scrub) (d result : Nat) : List Byte :=
  let c (n : Nat) := leBytes 4 (min n 0xFFFF_FFFF)
  leBytes 4 0x4252_4353 ++ leBytes 1 result ++ leBytes 1 x.kind ++ leBytes 2 (if x.kind = 0 then x.unit else 5 * d + x.unit)
    ++ leBytes 8 x.start ++ leBytes 8 x.len ++ c x.pages ++ c x.ce ++ c x.repairs ++ c x.rewritten ++ c x.notRewritten ++ c x.ue
    ++ c x.pendingRecomp ++ c x.cands ++ leBytes 8 x.datumStart ++ leBytes 8 x.datumEnd ++ leBytes 8 0
    ++ listBytes x.ueList ++ listBytes x.candList ++ leBytes 48 0

/-- SCRUB_DONE (R309): a scrub that must end writes its summary at the address in SCB_SUM and sets DONE and event 5; a summary that cannot be
written makes the result SUMMARY_FAULT, and one that must wait is not written yet. -/
def execScrubDone (d : LogicDie) (s : State) : Res :=
  s.done (match Tbl.get none s.m.scrubs d.val with
    | none => s.m
    | some x =>
      match s.m.scrubEnds d x with
      | none => s.m
      | some r =>
        let sum := s.m.rd F.SCB_SUM_LO_ADDR_LO d * 64 + s.m.rd F.SCB_SUM_HI_ADDR_HI d * 2 ^ 32
        let (m1, st) := s.m.writeSpan askOstler (fun _ => false) 6 sum (x.summary d r)
        if st = St.waits then s.m.backOff m1
        else
          let m2 := { m1.forget reqOstler with scrubs := Tbl.set none m1.scrubs d.val none }
          let m3 := ((m2.wr F.SCB_STS_BUSY d 0).wr F.SCB_STS_DONE d 1).wr F.SCB_STS_RESULT d (if st = St.ok then r else 6)
          s.m.regulated ostlerIface (m3.event 0 5))

/-! ### Field repair (R304) -/

/-- The bank of a page, as a key of the spare rows used. -/
def spareKey (kind u page : Nat) : Nat := if kind = 0 then u * 64 + page % 64 else 65536 + u

/-- Spare rows left in a bank (R304): what the fuse map gave it, less those used. -/
def Module.sparesLeft (m : Module) (k : Nat) : Nat := Config.spareRows k - Tbl.get 0 m.spares k

/-- Ends a field repair with a result. -/
def Module.repairEnd (m : Module) (d r left : Nat) : Module :=
  let m := { m with repairs := Tbl.set none m.repairs d none }
  ((((m.wr F.SCB_RPR_STS_BUSY d 0).wr F.SCB_RPR_STS_DONE d 1).wr F.SCB_RPR_STS_RESULT d r).wr F.SCB_RPR_STS_SPARES_LEFT d left).event 0 5

/-- A write of SCB_RPR_CMD with GO 1 (R304, R313). -/
def Module.fieldRepair (m : Module) (src d kind unit : Nat) : Module :=
  if !privileged src || m.rd F.SCB_RPR_STS_BUSY d == 1 then m
  else
    let page := m.rd F.SCB_RPR_PAGE_PAGE d
    let t := m.scrubTarget d kind unit
    let u := scrubUnit d kind unit
    let k := spareKey kind u page
    let st := if t = 1 then 1 else if page * 4096 ≥ scrubSize kind then 2 else if t ≠ 0 then t
      else if m.sparesLeft k = 0 then 7 else 0
    if st ≠ 0 then m.repairEnd d st (if st = 7 then 0 else m.rd F.SCB_RPR_STS_SPARES_LEFT d)
    else { (m.wr F.SCB_RPR_STS_BUSY d 1) with repairs := Tbl.set none m.repairs d (some ⟨kind, unit, page, false, []⟩) }

/-- FIELD_REPAIR (R304). -/
def execFieldRepair (req : Requester) (d : LogicDie) (kind : Fin 4) (unit : Byte) (s : State) : Res :=
  s.done (s.m.fieldRepair req.toNat d kind unit.toNat)

/-- FIELD_REPAIR_COPY_DONE (R304 step 3): the page stands on the spare row, with POISON set on words that could not be repaired, and
is released. A page that a bank operation protects waits for its end. -/
def execFieldRepairCopyDone (d : LogicDie) (s : State) : Res :=
  s.done (match Tbl.get none s.m.repairs d.val with
    | none => s.m
    | some r =>
      let u := scrubUnit d r.kind r.unit
      if r.copied || (decide (r.kind = 0) && s.m.protects u (r.page * 4096) 4096) then s.m
      else
        let page := scrubKey r.kind u (r.page * 4096) / 4096
        let pending := decide (r.kind = 0) && s.m.pagePending u r.page
        let f := s.m.pageFind page pending
        let m1 := (((s.m.noteFind f pending).setPoison f.lost).freshCodes (f.light ++ f.slow).contains).recheck page
        let m2 := { m1 with
          spares := Tbl.upd 0 m1.spares (spareKey r.kind u r.page) (· + 1)
          repairs := Tbl.set none m1.repairs d.val (some { r with copied := true, held := [] }) }
        m2.deliverAll r.held)

/-- FIELD_REPAIR_DONE (R304 step 4): Ostler has programmed the fuse, or could not, and records the repair in the Ledger (R590). -/
def execFieldRepairDone (d : LogicDie) (fuseOk : Bool) (s : State) : Res :=
  s.done (match Tbl.get none s.m.repairs d.val with
    | none => s.m
    | some r =>
      if !r.copied then s.m
      else
        let u := scrubUnit d r.kind r.unit
        let left := s.m.sparesLeft (spareKey r.kind u r.page)
        let st := if fuseOk then 0 else 8
        let m := if fuseOk then s.m else { s.m with sparesTemp := Tbl.upd 0 s.m.sparesTemp (spareKey r.kind u r.page) (· + 1) }
        (m.repairEnd d st left).issueRec 0x07 (leBytes 8 (s.m.datumOf 4) ++ leBytes 1 r.kind ++ leBytes 2 u ++ leBytes 1 st
          ++ leBytes 4 r.page ++ leBytes 1 left ++ leBytes 15 0))

end Sys2Proof.Machine
end

