-- ==== Sys2Proof/Machine/Frames.lean ====
section
/-! DEFINITION. Fabric packets and frames as bytes (R325, R425, R430, R432, R433, R447): units, link words, CRC-24, link messages. -/

namespace Sys2Proof.Machine

/-! ### Packets (R325, R430, R433) -/

/-- A response kind (R327, R432). -/
def FabMsg.response (x : FabMsg) : Bool := x.kind == 0x0C || x.kind == 0x0D || x.kind == 6 || x.kind == 7
/-- A posted kind. -/
def FabMsg.posted (x : FabMsg) : Bool := x.kind == 0x0A || x.kind == 3
/-- Data units of a packet: of data of 64 bytes or more (R327, R432). -/
def FabMsg.dataUnits (x : FabMsg) : Nat := x.x.p.data.length / 64
/-- Units of a packet: its head and its data units (R430). -/
def FabMsg.units (x : FabMsg) : Nat := 1 + x.dataUnits
/-- Channel and subchannel of a packet (R425 CH). -/
def FabMsg.pair (x : FabMsg) : Nat := x.x.p.vc.val * 2 + (if x.response then 1 else 0)

/-- Bytes to a length, filled with zeros. -/
def zeroFill (n : Nat) (l : List Byte) : List Byte := l ++ List.replicate (n - l.length) 0

/-- A number whose bit i is set where entry i is. -/
def poisonMask (l : List Bool) : Nat := ((List.range l.length).zip l).foldl (fun a (i, b) => if b then a + 2 ^ i else a) 0

/-- The head unit of a packet on a link: DEST and SRC are 0 (R433). -/
def FabMsg.headUnit (x : FabMsg) : List Byte :=
  let p := x.x.p
  let short := x.dataUnits = 0
  leBytes 1 x.kind
    ++ leBytes 1 (p.vc.val + (if short && p.poison.headD false then 64 else 0) + (if p.deadline.isSome then 128 else 0))
    ++ leBytes 2 p.src.toNat ++ leBytes 2 p.tag ++ [p.fare, x.x.status] ++ leBytes 6 p.addr ++ leBytes 2 (p.deadline.getD 0).toNat
    ++ leBytes 2 p.len ++ leBytes 1 x.dataUnits ++ [x.x.op] ++ leBytes 4 0 ++ leBytes 2 x.x.dunit.toNat ++ leBytes 2 x.x.sunit.toNat
    ++ [x.x.hops] ++ leBytes 1 (if short then 0 else poisonMask p.poison) ++ leBytes 2 0 ++ zeroFill 32 (if short then p.data.take 32 else [])

/-- The units of a packet. -/
def FabMsg.unitBytes (x : FabMsg) : List (List Byte) :=
  x.headUnit :: (List.range x.dataUnits).map fun i => (x.x.p.data.drop (64 * i)).take 64

/-! ### Frames (R425) -/

/-- One byte more of a CRC-24, its most significant bit first. -/
def crc24Byte (c : Nat) (b : Byte) : Nat :=
  (List.range 8).foldl (fun c _ => let d := c * 2; (if d / 2 ^ 24 % 2 = 1 then d ^^^ 0x1864CFB else d) % 2 ^ 24) (c ^^^ (b.toNat * 2 ^ 16))

/-- CRC-24 of bytes in order: polynomial 0x864CFB, from 0xFFFFFF, not inverted. That bytes go in most significant bit first, and the link word's
after the payload's from its lowest byte on, is PRESUMED (log entry 101). -/
def crc24 (l : List Byte) : Nat := l.foldl crc24Byte 0xFFFFFF

/-- TYPE of a link word. -/
def Ftype.idle : Nat := 0
def Ftype.data : Nat := 1
def Ftype.link : Nat := 2

/-- The link word of a frame. -/
def frameWord (type ch seq ack cch ccnt : Nat) (payload : List Byte) : BitVec 56 :=
  let low := type % 4 + ch % 8 * 4 + seq % 1024 * 2 ^ 5 + ack % 1024 * 2 ^ 15 + cch % 8 * 2 ^ 25 + ccnt % 16 * 2 ^ 28
  BitVec.ofNat 56 (low + crc24 (payload ++ leBytes 4 low) * 2 ^ 32)

/-- A link word of its parts: TYPE, CH and SEQ, then ACK, CCH and CCNT, then the CRC. -/
def wordOf (head : BitVec 15) (back : BitVec 17) (crc : BitVec 24) : BitVec 56 := (crc ++ back) ++ head

/-- The link word of a link message. -/
def arrivalWord (l : Arrival) : BitVec 56 := wordOf 2 l.back l.crc

/-- A frame passes its CRC; one of TYPE 3 counts as one that fails. -/
def frameOk (w : BitVec 56) (payload : List Byte) : Bool :=
  bitsAt w.toNat 0 2 != 3 && bitsAt w.toNat 32 24 == crc24 (payload ++ leBytes 4 (w.toNat % 2 ^ 32))

/-! ### Link messages (R447) -/

/-- A payload that begins with these bytes. -/
def framePayload (l : List Byte) : List Byte := zeroFill 256 l

/-- HELLO. -/
def helloBytes (unit port link fecWant dstate master mhops ready : Nat) : List Byte :=
  framePayload ([1, 0] ++ leBytes 2 unit ++ leBytes 1 port ++ leBytes 1 link ++ leBytes 1 fecWant ++ leBytes 1 dstate ++ leBytes 2 master
    ++ leBytes 1 mhops ++ leBytes 1 ready)
/-- VECTOR. -/
def vectorBytes (unit part : Nat) (dist : List Byte) : List Byte :=
  framePayload ([2, 0] ++ leBytes 2 unit ++ leBytes 1 part ++ [0, 0, 0] ++ dist)
/-- DREQ. -/
def dreqBytes (seq t1 : Nat) : List Byte := framePayload ([3, 0] ++ leBytes 2 seq ++ leBytes 4 0 ++ leBytes 8 t1)
/-- DRSP. -/
def drspBytes (seq t1 t2 t3 : Nat) : List Byte :=
  framePayload ([4, 0] ++ leBytes 2 seq ++ leBytes 4 0 ++ leBytes 8 t1 ++ leBytes 8 t2 ++ leBytes 8 t3)
/-- IDENT of the companion port (R484). -/
def identBytes (vendor product revision windowLog2 capacity flags : Nat) : List Byte :=
  framePayload ([0x10, 0] ++ leBytes 2 vendor ++ leBytes 2 product ++ leBytes 1 revision ++ leBytes 1 windowLog2 ++ leBytes 2 capacity
    ++ leBytes 1 flags)
/-- REPLAY. -/
def replayBytes (frm : Nat) : List Byte := framePayload ([5, 0] ++ leBytes 2 frm)

end Sys2Proof.Machine
end

