-- ==== Sys2Proof/Machine/Link.lean ====
section
/-! DEFINITION. Fabric links as a sender and a router see them: unit numbers and tables (R437 to R440), assignment of packets to links
(R431), frames, credits and the replay buffer (R425 to R430, R446). -/

namespace Sys2Proof.Machine

/-- Fabric completion statuses (R436). -/
def FSt.noRoute : Nat := 0x20
def FSt.hopLimit : Nat := 0x21
def FSt.linkLost : Nat := 0x22
def FSt.noWindow : Nat := 0x23
def FSt.notReady : Nat := 0x24
def FSt.badUnit : Nat := 0x25

/-- This module's unit (R437). -/
def Module.unit (m : Module) : Nat := if m.platLoaded then m.plat.survey.unit else 0xFFFF

/-- The module is ready (R507). -/
def Module.ready (m : Module) : Bool := m.rd F.BRG_MOD_STS_READY 4 == 1

/-- The key of a link: port · 12 + link. -/
def linkKey (p l : Nat) : Nat := p * 12 + l
/-- A link. -/
def Module.link (m : Module) (p l : Nat) : Link := Tbl.get {} m.links (linkKey p l)
/-- Replaces a link. -/
def Module.setLink (m : Module) (p l : Nat) (x : Link) : Module := { m with links := Tbl.set {} m.links (linkKey p l) x }
/-- A port. -/
def Module.port (m : Module) (p : Nat) : Port := Tbl.get {} m.ports p
/-- Replaces a port. -/
def Module.setPort (m : Module) (p : Nat) (x : Port) : Module := { m with ports := Tbl.set {} m.ports p x }

/-- The companion port as port 8 of the links, its one link being number 0 (R483). -/
def ucpPort : Nat := 8

/-- The state of a link (R422): 0 DISABLED, 1 DOWN, 2 TRAIN, 3 ACTIVE, 4 RETRAIN; the companion port's is active while the port is in IDENT or UP. -/
def Module.linkState (m : Module) (p l : Nat) : Nat :=
  if p = ucpPort then (if l = 0 ∧ (m.rd F.UCP_STS_STATE 4 = 3 ∨ m.rd F.UCP_STS_STATE 4 = 4) then 3 else 1) else m.rd F.TWL_STS_STATE (linkKey p l)

/-- A link is ACTIVE, its port's domain has lock (R32), and it has not heard another neighbour than the port's (R448); the companion port carries
packets while it is UP (R485). -/
def Module.linkCarries (m : Module) (p l : Nat) : Bool :=
  if p = ucpPort then l == 0 && m.companionUp
  else m.linkState p l == 3 && !m.lockLost.contains (64 + p) &&
    !(m.rd F.TWP_NB_VALID p == 1 &&
      (match (m.link p l).heard with
        | some h => h != (m.rd F.TWP_NB_UNIT p, m.rd F.TWP_NB_PORT p)
        | none => false))

/-- The port's links that carry traffic. -/
def Module.carriers (m : Module) (p : Nat) : List Nat := (List.range 12).filter fun l => m.linkCarries p l

/-- The trained count in half-links (R422). -/
def Module.trained (m : Module) (p : Nat) : Nat :=
  (m.carriers p).foldl (fun n l => n + (if m.rd F.TWL_STS_WIDTH (linkKey p l) = 3 then 2 else 1)) 0

/-- A port that carries fabric traffic: survey result OK and a trained link (R440). -/
def Module.portUsable (m : Module) (p : Nat) : Bool := m.rd F.TWP_STS_RESULT p == 1 && !(m.carriers p).isEmpty

/-- Where the tables send a packet (R440). -/
inductive FabHop where
  | here
  | out (p : Nat)
  | none
  deriving DecidableEq, Repr

/-- Routes a destination unit (R440); the tables of every port are copies, port 0's are read. -/
def Module.fabRoute (m : Module) (dunit : Nat) : FabHop :=
  let own := m.unit
  let g := dunit / 256
  let (pri, alt) :=
    if g = own / 256 then (m.rd F.TWP_MBR_PRIMARY 0 (dunit % 256), m.rd F.TWP_MBR_ALTERNATE 0 (dunit % 256))
    else (m.rd F.TWP_GRP_PRIMARY 0 g, m.rd F.TWP_GRP_ALTERNATE 0 g)
  if pri = 0xE then .here
  else if pri < 8 ∧ m.portUsable pri then .out pri
  else if alt < 8 ∧ m.portUsable alt then .out alt
  else .none

/-! ### Frames that leave (R425 to R430, R446) -/

/-- The ACK of a link's frames: the SEQ of the last DATA frame received in order. -/
def Link.ack (k : Link) : Nat := (k.rxNext + 1023) % 1024

/-- Sends a frame: its link word tells the last frame received, and returns up to 15 credits of a pair (R425, R429). -/
def Module.sendFrame (m : Module) (p l type ch seq : Nat) (payload : List Byte) : Module :=
  let k := m.link p l
  let cch := (k.back.map Prod.fst).headD 0
  let ccnt := min 15 (Tbl.get 0 k.back cch)
  (m.setLink p l { k with back := Tbl.upd 0 k.back cch (· - ccnt), told := k.rxNext }).emit
    (.frame p l (frameWord type ch seq k.ack cch ccnt payload) payload)

/-- Sends a link message (R426, R447) on an ACTIVE link. -/
def Module.sendLink (m : Module) (p l : Nat) (payload : List Byte) : Module :=
  if m.linkState p l = 3 then m.sendFrame p l Ftype.link 0 0 payload else m

/-- IDLE frames, as far as they tell the neighbour something new (R426; the stream of others is left out, DESIGN CHOICE, log entry 101). -/
def Module.idleOut (m : Module) (p l : Nat) : Nat → Module
  | 0 => m
  | fuel + 1 =>
    let k := m.link p l
    if m.linkState p l = 3 && (k.told != k.rxNext || !k.back.isEmpty) then
      (m.sendFrame p l Ftype.idle 0 0 (framePayload [])).idleOut p l fuel
    else m

/-- What the next DATA frame of a pair holds: its units, the packet it goes on with, those that begin in it, how many packets end, and the units
sent then of the packet that goes on in the next. -/
structure Fill where
  units : List (List Byte) := []
  carry : Option FabMsg := none
  starts : List FabMsg := []
  ended : Nat := 0
  sent : Nat := 0
  deriving DecidableEq, Repr

/-- Fills a frame from the packets of a pair that wait (R430); a packet begins only where its pair has credits for its frames, and for 3
further ones where this module (`own`) injected it (R446). `spent` are the pair's credits spent. -/
def fillFrame (own spent : Nat) : List FabMsg → Fill → Fill
  | [], f => f
  | x :: t, f =>
    let used := f.units.length
    let needed := (used + x.units + 3) / 4 + (if x.x.sunit.toNat = own then 3 else 0)
    if used ≥ 4 ∨ (f.sent = 0 ∧ 32 < spent + needed) then f
    else
      let us := (x.unitBytes.drop f.sent).take (4 - used)
      let g := { f with
        units := f.units ++ us
        carry := if f.sent = 0 then f.carry else some x
        starts := if f.sent = 0 then f.starts ++ [x] else f.starts }
      if f.sent + us.length = x.units then fillFrame own spent t { g with ended := f.ended + 1, sent := 0 }
      else { g with sent := f.sent + us.length }

/-- Removes the first n packets of a pair. -/
def dropPair (pair : Nat) : Nat → List FabMsg → List FabMsg
  | 0, l => l
  | _ + 1, [] => []
  | n + 1, x :: t => if x.pair = pair then dropPair pair n t else x :: dropPair pair (n + 1) t

/-- The next DATA frame of a pair, where it has a unit ready and a credit; `own` as in `fillFrame`. -/
def nextFill (own : Nat) (k : Link) (pair : Nat) : Option Fill :=
  let spent := Tbl.get 0 k.spent pair
  let f := fillFrame own spent (k.queue.filter fun y => y.pair == pair) { sent := Tbl.get 0 k.sent pair }
  if f.units.isEmpty ∨ 32 ≤ spent then none else some f

/-- Channel pairs in the order in which a sender chooses (R430). -/
def pairOrder : List Nat := [1, 0, 3, 2, 5, 4, 7, 6]

/-- DATA frames that a port's replay buffer holds (R428, R483). -/
def replayRoom (p : Nat) : Nat := if p = ucpPort then 128 else 512

/-- Sends DATA frames while a pair has one ready and the replay buffer has room (R428, R430, R483). R446 binds fabric packets alone. -/
def Module.pumpFrames (m : Module) (p l : Nat) : Nat → Module
  | 0 => m
  | fuel + 1 =>
    let k := m.link p l
    if replayRoom p ≤ (k.next + 1024 - k.base) % 1024 then m
    else
      match pairOrder.findSome? fun pair => (nextFill (if p = ucpPort then 0x10000 else m.unit) k pair).map fun f => (pair, f) with
      | none => m
      | some (pair, f) =>
        let payload := framePayload f.units.flatten
        let k' := { k with
          next := (k.next + 1) % 1024
          spent := Tbl.upd 0 k.spent pair (· + 1)
          sent := Tbl.set 0 k.sent pair f.sent
          queue := dropPair pair f.ended k.queue
          replay := k.replay ++ [⟨k.next, pair, payload, f.carry, f.starts⟩] }
        ((m.setLink p l k').sendFrame p l Ftype.data pair k.next payload).pumpFrames p l fuel

/-- A link sends DATA frames: it carries traffic (R448), and its port's result is OK (R451). -/
def Module.sendsData (m : Module) (p l : Nat) : Bool := m.linkCarries p l && (p == ucpPort || m.rd F.TWP_STS_RESULT p == 1)

/-- Sends what a link may send: DATA while its port's result is OK and it carries traffic (R448, R451), then what IDLE frames must tell. -/
def Module.pump (m : Module) (p l : Nat) : Module :=
  let m := if m.sendsData p l then m.pumpFrames p l 512 else m
  m.idleOut p l 20

/-- Units of a channel pair that wait on a link. -/
def Link.waiting (k : Link) (pair : Nat) : Nat :=
  (k.queue.filter fun y => y.pair == pair).foldl (fun n y => n + y.units) 0 - Tbl.get 0 k.sent pair

/-- Assigns a packet to the port's link with the fewest waiting units of its pair, the lowest number on a tie (R431). -/
def Module.assign (m : Module) (p : Nat) (x : FabMsg) : Module :=
  match m.carriers p with
  | [] => m
  | l0 :: rest =>
    let l := rest.foldl (fun best l => if (m.link p l).waiting x.pair < (m.link p best).waiting x.pair then l else best) l0
    (m.setLink p l { m.link p l with queue := (m.link p l).queue ++ [x] }).pump p l

/-- A packet as a port sends it out: HOPS decremented (R440), DEST and SRC 0 (R433). -/
def FabMsg.hop (x : FabMsg) : FabMsg :=
  { x with x := { x.x with hops := BitVec.ofNat 8 (x.x.hops.toNat - 1), p := { x.x.p with head := { ndata := x.dataUnits } } } }

/-- The packets of a pair whose frames are in a link's replay buffer, in the order sent; a packet whose frames are all acknowledged and which
is not wholly sent counts with them (DESIGN CHOICE, log entry 101). -/
def Link.lostOf (k : Link) (pair : Nat) : List FabMsg :=
  match k.replay.filter fun f => f.pair == pair with
  | f :: t => f.carry.toList ++ (f :: t).flatMap (·.starts)
  | [] => if Tbl.get 0 k.sent pair = 0 then [] else ((k.queue.filter fun x => x.pair == pair).take 1)

/-- Sends a packet of this module's own (R434, R435, R440) by the default route (R433, R337): a status other than 0 completes it at its
source, and one whose way to the port holds it waits (R32, R474). A ring's packets leave by its NEXT_PORT alone (R231). -/
def Module.fabSend (m : Module) (x : FabMsg) (ring : Option Nat := none) : Module × Nat :=
  let d := x.x.dunit.toNat
  if d = 0xFFFF ∨ d = m.unit then (m, FSt.badUnit)
  else
    match (match ring with | some p => if m.portUsable p then FabHop.out p else .none | none => m.fabRoute d) with
    | .out p =>
      let src := x.x.p.src.toNat
      if !(defaultLinks (if src < 576 then some src else none) (some (portRouter p))).all m.d2dUp then (m, St.linkDown)
      else if src < 576 && m.pathTests (defaultPath src (some (portRouter p))) then (m, St.waits)
      else ((m.noteFlits (if src < 576 then defaultPath src (some (portRouter p)) else []) x.x.p.vc x.units).assign p x.hop, 0)
    | _ => (m, FSt.noRoute)

end Sys2Proof.Machine
end

