-- ==== Sys2Proof/Machine/Observe.lean ====
section
/-! DEFINITION. Counters, the freeze line, the sampler and the Fieldbook stores (R552 to R574). -/

namespace Sys2Proof.Machine

/-- A record of a unit of the hub, offered to the hub's store. -/
def Module.hubRecord (m : Module) (type unit a0 a1 a2 : Nat) : Module := m.record 4 type .hub (Config.hubUnit unit) a0 a1 a2

/-! ### The freeze line (R556, R557) -/

/-- The freeze line is asserted. -/
def Module.frozen (m : Module) : Bool := m.rd F.CTR_FRZ_STS_FROZEN 4 == 1

/-- The visible value of a counter (R556): while the line is asserted, without the increments stamped from the freeze instant on. -/
def Module.counter (m : Module) (c n : Nat) : DWord := Tbl.get 0 m.counters (c * 64 + n) - Tbl.get 0 m.after (c * 64 + n)

/-- The increments of the counters stamped at or after an instant (R18, R555). -/
def Module.since (m : Module) (t : Nat) : Tbl DWord :=
  (m.incs.filter fun x => !before x.2.1 t).foldl (fun a (k, _, n) => Tbl.set 0 a k (Tbl.get 0 a k + BitVec.ofNat 64 n)) []

/-- FROZEN of the hub and of every logic die. -/
def Module.setFrozen (m : Module) (v : Nat) : Module :=
  (List.range 4).foldl (fun (m : Module) d => m.wr F.CTR_DIE_STS_FROZEN d v) (m.wr F.CTR_FRZ_STS_FROZEN 4 v)

/-- A freeze source acts with instant F (R557): 1 a command, 2 a scheduled freeze, 3 a trigger. While the line is asserted it has no
effect. -/
def Module.freeze (m : Module) (f source : Nat) : Module :=
  if m.frozen then m
  else
    let m := { m with frz := some f, frzBack := false, after := m.since f }
    let m := (m.setFrozen 1).wr F.CTR_FRZ_STS_SOURCE 4 source
    let m := (m.wr F.CTR_FRZ_DATUM_LO_VALUE 4 (f % 2 ^ 32)).wr F.CTR_FRZ_DATUM_HI_VALUE 4 (f / 2 ^ 32)
    m.hubRecord 0x0D 2 (1 + 2 * source) f 0

/-- The line is released (R557): visible values return to the live counts. -/
def Module.thaw (m : Module) : Module :=
  if !m.frozen then m
  else
    let source := m.rd F.CTR_FRZ_STS_SOURCE 4
    let f := m.rd F.CTR_FRZ_DATUM_LO_VALUE 4 + m.rd F.CTR_FRZ_DATUM_HI_VALUE 4 * 2 ^ 32
    let m := { m with frz := none, frzBack := false, after := [] }
    ((m.setFrozen 0).wr F.CTR_FRZ_STS_SOURCE 4 0).hubRecord 0x0D 2 (2 * source) f 0

/-- CTR_FRZ_AT. -/
def Module.frzAt (m : Module) : Nat := m.rd F.CTR_FRZ_AT_LO_VALUE 4 + m.rd F.CTR_FRZ_AT_HI_VALUE 4 * 2 ^ 32

/-- A write of CTR_FRZ_CMD (R557, R573): only the physical function and Ostler write it. -/
def Module.frzCmd (m : Module) (src op : Nat) : Module :=
  if !privileged src then m
  else
    let now := m.datumOf 4
    match op with
    | 0 => m
    | 1 => m.freeze now 1
    | 2 => m.thaw
    | 3 => if before m.frzAt now then m.freeze now 2 else m.wr F.CTR_FRZ_STS_ARMED 4 1
    | 4 => m.wr F.CTR_FRZ_STS_ARMED 4 0
    | _ => m.wr F.CTR_FRZ_STS_BAD_OP 4 1

/-- FREEZE (R557). -/
def execFreeze (req : Requester) (s : State) : Res := s.done (s.m.frzCmd req.toNat 1)
/-- THAW (R557). -/
def execThaw (req : Requester) (s : State) : Res := s.done (s.m.frzCmd req.toNat 2)
/-- FREEZE_AT (R557). -/
def execFreezeAt (req : Requester) (s : State) : Res := s.done (s.m.frzCmd req.toNat 3)
/-- DISARM (R573). -/
def execDisarm (req : Requester) (s : State) : Res := s.done (s.m.frzCmd req.toNat 4)
/-- A reserved OP of CTR_FRZ_CMD (R573): 5 to 7. -/
def execFrzCmdReserved (req : Requester) (op : Fin 3) (s : State) : Res := s.done (s.m.frzCmd req.toNat (5 + op))

/-- SCHEDULED_FREEZE (R557): the hub Datum has reached CTR_FRZ_AT while a freeze is armed. -/
def execScheduledFreeze (s : State) : Res :=
  s.done (if s.m.rd F.CTR_FRZ_STS_ARMED 4 = 1 ∧ !before (s.m.datumOf 4) s.m.frzAt then
      (s.m.wr F.CTR_FRZ_STS_ARMED 4 0).freeze s.m.frzAt 2
    else s.m)

/-! ### The sampler (R558 to R562) -/

/-- The positions of the selected clusters, in ascending core number (R560). -/
def Observe.positions (o : Observe) : List Nat := (List.range 576).filter fun c => Nat.testBit o.clusters (coreCluster c)
/-- The counters selected. -/
def Observe.selected (o : Observe) : List Nat := (List.range 51).filter fun n => Nat.testBit o.cmask n
/-- B of R560: the bytes of one position's block. -/
def Observe.block (o : Observe) : Nat := (8 * o.selected.length + 63) / 64 * 64
/-- S of R560: the bytes of a record. -/
def Observe.recSize (o : Observe) : Nat := 128 + o.positions.length * o.block

/-- A list of bytes padded with zeros to n. -/
def padTo (n : Nat) (l : List Byte) : List Byte := l ++ List.replicate (n - l.length) 0

/-- The record of an instant (R560, R561): the increments stamped before it, or the held values where the freeze line was asserted then:
it has been since F, or since before Datum stepped back (log entry 106). -/
def Module.sampleRecord (m : Module) (o : Observe) (seq instant skipped : Nat) : List Byte :=
  let frozen := match m.frz with | some f => !before instant f || m.frzBack | none => false
  let flags := (if frozen then 1 else 0) + (if m.unaligned 4 then 2 else 0)
  let late := if frozen then m.after else m.since instant
  let value (c n : Nat) : DWord := Tbl.get 0 m.counters (c * 64 + n) - Tbl.get 0 late (c * 64 + n)
  leBytes 4 0x594C_4154 ++ leBytes 2 flags ++ leBytes 2 o.positions.length ++ leBytes 8 seq ++ leBytes 8 instant ++ leBytes 8 o.cmask
    ++ leBytes 4 skipped ++ leBytes 4 o.block ++ leBytes 24 0
    ++ (o.positions.map fun c => padTo o.block ((o.selected.map fun n => leBytes 8 (value c n).toNat).flatten)).flatten
    ++ leBytes 8 seq ++ leBytes 56 0

/-- The sampler restarts (R82): SEQ counts from the first instant after now. -/
def Module.restartSampler (m : Module) (o : Observe) : Module :=
  let on := decide (o.collect = 1)
  let p := o.intervalUs * 1000
  let m := { m with obs := { m.obs with smp := { last := m.datumOf 4 - m.datumOf 4 % p } } }
  (((m.wr F.CTR_SMP_STS_ON 4 (if on then 1 else 0)).wr F.CTR_SMP_STS_TALLY_FULL 4 0).wr F.CTR_SMP_SEQ_COUNT 4 0).wr
    F.CTR_SMP_SKIP_COUNT 4 0

/-- Writes the record of an instant, its header first, then its blocks, then SEQ_END (R562); false where a write completed other
than OK. -/
def Module.writeSample (m : Module) (a : Nat) (l : List Byte) : Module × Bool :=
  let (m1, s1) := m.writeSpan askNow (fun _ => false) 2 a (l.take 64)
  if s1 ≠ St.ok then (m1, false)
  else
    let body := (l.drop 64).take (l.length - 128)
    let (m2, s2) := m1.writeSpan askNow (fun _ => false) (body.length / 4096 + 3) (a + 64) body
    if s2 ≠ St.ok then (m2, false)
    else
      let (m3, s3) := m2.writeSpan askNow (fun _ => false) 2 (a + l.length - 64) (l.drop (l.length - 64))
      (m3, s3 == St.ok)

/-- SAMPLE_INSTANT (R562): the hub Datum has reached a multiple of INTERVAL_US µs later than the last instant. Instants that it passed
over are skipped; `busy` says that the record before is not wholly written yet, which skips this one. With COLLECT 0 in force nothing is
sampled, whatever ON shows (R558). -/
def execSampleInstant (busy : Bool) (s : State) : Res :=
  let m := s.m
  let o := m.plat.observe
  let p := o.intervalUs * 1000
  let k := m.obs.smp
  let now := m.datumOf 4
  let i := now - now % p
  s.done (if m.rd F.CTR_SMP_STS_ON 4 = 0 ∨ o.collect ≠ 1 ∨ p = 0 ∨ !before k.last i then m
    else
      let passed := (BitVec.ofNat 64 i - BitVec.ofNat 64 k.last).toNat / p - 1
      let seq := k.seq + passed + 1
      let skip (m : Module) (n : Nat) (w : Nat) : Module :=
        let m := m.bumpBy F.CTR_SMP_SKIP_COUNT 4 n
        { m with obs := { m.obs with smp := ⟨seq % 2 ^ 64, (k.skipped + n) % 2 ^ 32, w, i⟩ } }
      if busy then skip m (passed + 1) k.written
      else
        let cap := o.tallyLen / o.recSize
        let a := o.tally + k.written % cap * o.recSize
        let sk := (k.skipped + passed) % 2 ^ 32
        let (m1, ok) := m.writeSample a (m.sampleRecord o seq i sk)
        if !ok then (skip m1 (passed + 1) k.written).wr F.CTR_SMP_STS_WFAULT 4 1
        else
          let m2 := (m1.bumpBy F.CTR_SMP_SKIP_COUNT 4 passed).wr F.CTR_SMP_SEQ_COUNT 4 (seq % 2 ^ 32)
          let m3 := { m2 with obs := { m2.obs with smp := ⟨seq % 2 ^ 64, 0, k.written + 1, i⟩ } }
          let m4 := m3.hubRecord 0x0E 3 sk seq 0
          if !o.wrap && k.written + 1 == cap then (m4.wr F.CTR_SMP_STS_TALLY_FULL 4 1).wr F.CTR_SMP_STS_ON 4 0 else m4)

/-! ### The stores (R565 to R569) -/

/-- Records of a store. -/
def storeSize (d : Nat) : Nat := if d = 4 then 262144 else 524288

/-- First slot of a store's reserve in window mode (R567). -/
def Module.reserveAt (m : Module) (d : Nat) : Nat := storeSize d - storeSize d * (m.store d).reserve / 100

/-- The GAP record of a store's losses. -/
def Module.gapRec (m : Module) (d : Nat) (g : Gap) : FbRec :=
  ⟨m.datumOf d, 1, if m.unaligned d then 1 else 0, Config.hubUnit (16 + d), g.count, g.first, g.last⟩

/-- A store that filled keeps the GAP record of its later losses in its last slot (R567). -/
def Module.rewriteGap (m : Module) (d : Nat) : Module :=
  let s := m.store d
  match s.gap with
  | some g => if s.full then m.setStore d { s with slots := Tbl.set none s.slots (storeSize d - 1) (some (m.gapRec d g)) } else m
  | none => m

/-- A record lost by a store that has stopped. -/
def Module.loseRec (m : Module) (d : Nat) (r : FbRec) : Module :=
  let s := m.store d
  let g : Gap := match s.gap with
    | none => ⟨1, r.datum, r.datum⟩
    | some g => ⟨min (2 ^ 32 - 1) (g.count + 1), g.first, r.datum⟩
  ((m.bump F.FBK_LOST_VALUE d).setStore d { s with gap := if s.full then some g else s.gap }).rewriteGap d

/-- A store stops because it is full. -/
def Module.fillStop (m : Module) (d : Nat) : Module :=
  (m.wr F.FBK_STS_STOPPED d 1).setStore d { m.store d with full := true }

/-- Places a record in a store by its mode (R567). -/
def Module.place (m : Module) (d : Nat) (r : FbRec) : Module :=
  let s := m.store d
  let n := storeSize d
  let w := m.rd F.FBK_WRPTR_VALUE d
  let put (m : Module) (i : Nat) : Module := m.setStore d { s with slots := Tbl.set none s.slots i (some r) }
  let ring (m : Module) (size : Nat) : Module :=
    let m := (put m w).wr F.FBK_WRPTR_VALUE d ((w + 1) % size)
    if w + 1 = size then m.wr F.FBK_STS_WRAPPED d 1 else m
  match m.rd F.FBK_STS_MODE d with
  | 0 =>
    let m := (put m w).wr F.FBK_WRPTR_VALUE d (w + 1)
    if w + 1 = n - 1 then m.fillStop d else m
  | 1 => ring m n
  | _ =>
    let reserve : Bool := match s.trig with | some t => !before r.datum t | none => false
    if reserve then
      let q := m.rd F.FBK_POSTPTR_VALUE d
      let m := (put m q).wr F.FBK_POSTPTR_VALUE d (q + 1)
      if q + 1 = n - 1 then m.fillStop d else m
    else ring m (m.reserveAt d)

/-- A trigger fires with instant T (R568): only the first after ARM takes effect, at every store. -/
def Module.fire (m : Module) (t : Nat) (freezes : Bool) : Module :=
  if (List.range 5).any fun d => m.rd F.FBK_STS_TRIGGERED d == 1 then m
  else
    let m := (List.range 5).foldl (fun (m : Module) d =>
      let m := ((m.wr F.FBK_STS_TRIGGERED d 1).wr F.FBK_TRIG_DATUM_LO_VALUE d (t % 2 ^ 32)).wr F.FBK_TRIG_DATUM_HI_VALUE d (t / 2 ^ 32)
      m.setStore d { m.store d with trig := some t }) m
    if freezes then m.freeze (m.datumOf 4) 3 else m

/-- A record matches a store's trigger configuration (R568). -/
def Module.matchesTrig (m : Module) (d : Nat) (r : FbRec) : Bool :=
  m.rd F.FBK_TRIG_CFG_EN d == 1 && m.rd F.FBK_TRIG_CFG_TYPE d == r.type
    && (m.rd F.FBK_TRIG_CFG_SRC_EN d == 0 || m.rd F.FBK_TRIG_CFG_SOURCE d == r.source)
    && r.arg0 &&& m.rd F.FBK_TRIG_MASK_VALUE d == m.rd F.FBK_TRIG_VAL_VALUE d

/-- Records an accepted record: it may fire the trigger, which it then carries as a flag (R563, R568), and is placed. -/
def Module.recordIn (m : Module) (d : Nat) (r : FbRec) : Module :=
  if m.rd F.FBK_STS_STOPPED d = 1 then m.loseRec d r
  else if m.matchesTrig d r && !((List.range 5).any fun k => m.rd F.FBK_STS_TRIGGERED k == 1) then
    (m.fire r.datum (m.rd F.FBK_TRIG_CFG_FREEZE d == 1)).place d { r with flags := r.flags ||| 2 }
  else m.place d r

/-- FIELDBOOK_RECORD (R565, R566): a store accepts the record at the front of its input queue, where its filter names the type. -/
def execFieldbookRecord (d : DieId) (s : State) : Res :=
  let x := s.m.store d
  s.done (match x.inq with
    | [] => s.m
    | r :: t =>
      let m := s.m.setStore d { x with inq := t }
      if Nat.testBit (m.rd F.FBK_FILTER_TYPES d * 4) r.type then m.recordIn d r else m)

/-- GAP (R565): a store whose input queue has room writes one record for what was lost; a full store rewrites its last slot. -/
def execGap (d : DieId) (s : State) : Res :=
  let x := s.m.store d
  s.done (match x.gap with
    | none => s.m
    | some g =>
      if x.inq.length ≥ 64 then s.m
      else if s.m.rd F.FBK_STS_STOPPED d = 1 then s.m.rewriteGap d
      else
        let r := s.m.gapRec d g
        (s.m.setStore d { x with gap := none }).recordIn d r)

/-! ### Commands of the hub's Fieldbook block (R568 to R571, R574) -/

/-- Arms a store (R569). -/
def Module.armStore (m : Module) (d : Nat) : Module :=
  let m := (m.wr F.FBK_WRPTR_VALUE d 0).wr F.FBK_POSTPTR_VALUE d (m.reserveAt d)
  let m := ((m.wr F.FBK_STS_TRIGGERED d 0).wr F.FBK_STS_STOPPED d 0).wr F.FBK_STS_WRAPPED d 0
  (m.wr F.FBK_LOST_VALUE d 0).setStore d { m.store d with gap := none, trig := none, full := false }

/-- Arms every store. -/
def Module.armAll (m : Module) : Module := (List.range 5).foldl (fun (m : Module) d => m.armStore d) m

/-- Sets every store's mode and reserve from OBSERVE, and arms it (R569). Without an OBSERVE entry the module
runs stop mode with no triggers (R67): FBK_TRIG_CFG.EN is cleared at this instant, and software may set it again (DESIGN CHOICE, log entry
81). -/
def Module.observeStores (m : Module) (o : Observe) : Module :=
  ((List.range 5).foldl (fun (m : Module) d =>
    let m := if o.present then m else m.wr F.FBK_TRIG_CFG_EN d 0
    (m.wr F.FBK_STS_MODE d o.mode).setStore d { m.store d with reserve := if o.reserve = 0 then 50 else o.reserve }) m).armAll

/-- A command of FBK_CMD ends with a result. -/
def Module.fbkEnd (m : Module) (r : Nat) : Module :=
  ((m.wr F.FBK_CMD_STS_BUSY 4 0).wr F.FBK_CMD_STS_DONE 4 1).wr F.FBK_CMD_STS_RESULT 4 r

/-- FBK_AT. -/
def Module.fbkAt (m : Module) : Nat := m.rd F.FBK_AT_LO_VALUE 4 + m.rd F.FBK_AT_HI_VALUE 4 * 2 ^ 32

/-- A write of FBK_CMD (R570, R571, R573). -/
def Module.fbkCmd (m : Module) (src op store : Nat) : Module :=
  if !privileged src then m
  else if m.rd F.FBK_CMD_STS_BUSY 4 = 1 then m.wr F.FBK_CMD_STS_CMD_LOST 4 1
  else if op = 0 then m
  else
    match op with
    | 1 => m.armAll.fbkEnd 0
    | 2 => (m.fire (m.datumOf 4) false).fbkEnd 0
    | 3 => { m with obs := { m.obs with schedTrig := true } }.fbkEnd 0
    | 4 => ((List.range 5).foldl (fun (m : Module) d => m.wr F.FBK_STS_STOPPED d 1) m).fbkEnd 0
    | 5 =>
      let first := m.rd F.FBK_DUMP_FIRST_VALUE 4
      let count := m.rd F.FBK_DUMP_COUNT_VALUE 4
      if store > 4 ∨ count = 0 then m.fbkEnd 1
      else if first + count > storeSize store then m.fbkEnd 2
      else
        let dst := m.rd F.FBK_DUMP_DST_LO_VALUE 4 * 64 + m.rd F.FBK_DUMP_DST_HI_VALUE 4 * 2 ^ 32
        { (m.wr F.FBK_CMD_STS_BUSY 4 1) with obs := { m.obs with dump := some ⟨store, first, count, dst⟩ } }
    | _ => m.fbkEnd 1

/-- ARM (R569). -/
def execArm (req : Requester) (s : State) : Res := s.done (s.m.fbkCmd req.toNat 1 0)
/-- TRIGGER (R568). -/
def execTrigger (req : Requester) (s : State) : Res := s.done (s.m.fbkCmd req.toNat 2 0)
/-- TRIGGER_AT (R568). -/
def execTriggerAt (req : Requester) (s : State) : Res := s.done (s.m.fbkCmd req.toNat 3 0)
/-- STOP (R574). -/
def execStop (req : Requester) (s : State) : Res := s.done (s.m.fbkCmd req.toNat 4 0)
/-- DUMP (R570): begins a dump, or ends at once with INVALID or RANGE. -/
def execDump (req : Requester) (store : Fin 8) (s : State) : Res := s.done (s.m.fbkCmd req.toNat 5 store)
/-- A reserved OP of FBK_CMD (R570): 6 and 7. -/
def execFbkCmdReserved (req : Requester) (op : Fin 2) (s : State) : Res := s.done (s.m.fbkCmd req.toNat (6 + op) 0)

/-- SCHEDULED_TRIGGER (R568): the hub Datum has reached FBK_AT while a trigger is scheduled. -/
def execScheduledTrigger (s : State) : Res :=
  s.done (if s.m.obs.schedTrig && !before (s.m.datumOf 4) s.m.fbkAt then
      { s.m with obs := { s.m.obs with schedTrig := false } }.fire (s.m.datumOf 4) false
    else s.m)

/-- The 32 bytes of a record (R563); a slot never written holds zeros. -/
def recBytes : Option FbRec → List Byte
  | none => List.replicate 32 0
  | some r => leBytes 8 r.datum ++ leBytes 1 r.type ++ leBytes 1 r.flags ++ leBytes 2 r.source ++ leBytes 4 r.arg0 ++ leBytes 8 r.arg1
      ++ leBytes 8 r.arg2

/-- DUMP_DONE (R570): the records stand at the destination; a write that did not complete OK ended the dump, and one that must wait has not
ended it. -/
def execDumpDone (s : State) : Res :=
  s.done (match s.m.obs.dump with
    | none => s.m
    | some x =>
      let l := ((List.range x.count).map fun i => recBytes (Tbl.get none (s.m.store x.store).slots (x.first + i))).flatten
      let (m1, st) := s.m.writeSpan askOstler (fun _ => false) (l.length / 4096 + 3) x.dst l
      if st = St.waits then s.m.backOff m1
      else s.m.regulated ostlerIface <| { m1.forget reqOstler with obs := { m1.obs with dump := none } }.fbkEnd (if st = St.ok then 0 else 3))

/-- A write of FBK_MARK (R574): one MARK record in the hub store. -/
def Module.mark (m : Module) (src v : Nat) : Module := if privileged src then m.hubRecord 0x0F 4 v 0 0 else m

/-- MARK (R574). -/
def execMark (req : Requester) (value : Word) (s : State) : Res := s.done (s.m.mark req.toNat value.toNat)

end Sys2Proof.Machine
end

