-- ==== Sys2Proof/Machine/Datum.lean ====
section
/-! DEFINITION. The module's Datum state and its source (R454 to R459): what changes them, beside the exchange itself. -/

namespace Sys2Proof.Machine

/-- Datum states (DAT_STS.STATE). -/
def DSt.free : Nat := 0
def DSt.acquire : Nat := 1
def DSt.locked : Nat := 2
def DSt.holdover : Nat := 3
def DSt.master : Nat := 4

/-- The Datum state. -/
def Module.datState (m : Module) : Nat := m.rd F.DAT_STS_STATE 4

/-- θ of the last kept sample, as a 64-bit number. -/
def Module.theta64 (m : Module) : Nat := ((m.word .DAT_OFFSET 4).signExtend 64).toNat

/-- Enters a Datum state: event 26 and a DATUM record mark a change (R461, R564). -/
def Module.datMove (m : Module) (new : Nat) : Module :=
  let old := m.datState
  if new = old then m
  else
    let m := m.wr F.DAT_STS_STATE 4 new
    let m := if new = DSt.holdover then m.bump F.DAT_LOST_CNT_COUNT 4 else m
    let m := if new = DSt.free ∨ new = DSt.master then { m with dat := { m.dat with rate := 0, part := 0, todo := 0 } } else m
    (m.event 0 26).hubRecord 0x0C 1 (old + new * 16) m.theta64 (m.rd F.DAT_STS_MHOPS 4)

/-- A candidate port (R457): its Datum status is GOOD and its neighbour is MASTER or LOCKED. -/
def Module.candidate (m : Module) (p : Nat) : Bool :=
  m.rd F.TWP_DATUM_STATUS p == 1 && m.rd F.TWP_NB_VALID p == 1 && ((m.port p).dstate == 4 || (m.port p).dstate == 2)

/-- The candidate with the lowest MASTER, then MHOPS, then port (R457). -/
def Module.bestSource (m : Module) : Option Nat :=
  ((List.range 8).filter m.candidate).foldl (fun (a : Option Nat) p =>
    match a with
    | none => some p
    | some q =>
      let x := m.port p
      let y := m.port q
      if x.master < y.master ∨ (x.master = y.master ∧ x.mhops < y.mhops) then some p else a) none

/-- Follows a source: MASTER and MHOPS come from its neighbour. -/
def Module.follow (m : Module) (p : Nat) : Module :=
  let x := m.port p
  (((m.wr F.DAT_STS_SRC_PORT 4 p).wr F.DAT_STS_SRC_VALID 4 1).wr F.DAT_STS_MHOPS 4 (x.mhops + 1)).wr F.DAT_STS_MASTER 4 x.master

/-- Takes a new source: its samples count from the first. -/
def Module.takeSource (m : Module) (p : Nat) : Module := { (m.follow p) with dat := { m.dat with near := 0, far := 0, first := true } }

/-- Follows no source. -/
def Module.noSource (m : Module) : Module :=
  (((m.wr F.DAT_STS_SRC_PORT 4 0).wr F.DAT_STS_SRC_VALID 4 0).wr F.DAT_STS_MHOPS 4 0).wr F.DAT_STS_MASTER 4 0xFFFF

/-- The hub's domain D has no lock: the state cannot leave FREE (R32, R458). -/
def Module.hubDLost (m : Module) : Bool := m.lockLost.contains 92

/-- A follower keeps or chooses its source, and the state follows (R457, R458). -/
def Module.reselect (m : Module) : Module :=
  let st := m.datState
  if st = DSt.master ∨ m.hubDLost ∨ (m.platLoaded ∧ m.plat.survey.role = 1) then m
  else
    let cur := if m.rd F.DAT_STS_SRC_VALID 4 = 1 then some (m.rd F.DAT_STS_SRC_PORT 4) else none
    match m.bestSource with
    | none => if st = DSt.locked ∨ st = DSt.acquire then m.noSource.datMove DSt.holdover else m
    | some b =>
      if st = DSt.free ∨ st = DSt.holdover then (m.takeSource b).datMove DSt.acquire
      else
        match cur with
        | some p => if m.candidate p && decide ((m.port p).master ≤ (m.port b).master) then m.follow p else m.takeSource b
        | none => m.takeSource b

/-- The role of a loaded survey takes effect (R458): a change of it frees the state; a master counts on its own. -/
def Module.applyRole (m : Module) (changed : Bool) : Module :=
  let m := if changed then m.noSource.datMove DSt.free else m
  if m.plat.survey.role = 1 ∧ m.hubDLost = false then
    let m := m.noSource.datMove DSt.master
    m.wr F.DAT_STS_MASTER 4 m.unit
  else m.reselect

/-- Steps the Datum of the hub and of the dies that track it by θ ns (R458). -/
def Module.stepDatum (m : Module) (theta : Int) : Module :=
  let by' (m : Module) (d : Nat) : Module :=
    { m with datum := Tbl.set 0 m.datum d (BitVec.ofInt 64 ((m.datumOf d : Int) + theta)).toNat }
  let m := if theta < 0 ∧ m.frz.isSome then { m with frzBack := true } else m
  (List.range 4).foldl (fun (m : Module) d => if m.rd F.DAT_DSTS_TRACK d = 1 then by' m d else m) (by' m 4)

end Sys2Proof.Machine
end

