-- ==== Sys2Proof/Machine/PlatCheck.lean ====
section
/-! DEFINITION. The plat image (R44 to R67, R333 to R345, R358 to R360) as the loader reads it, and the checks of R70. A failure is a
result of R85 with its DETAIL and DETAIL2. -/

namespace Sys2Proof.Machine

/-- A failed check: RESULT, DETAIL, DETAIL2. -/
abbrev PlatErr := Nat × Nat × Nat

/-- Results of R85. -/
def Plt.badMagic : Nat := 0x01
def Plt.badVersion : Nat := 0x02
def Plt.badLength : Nat := 0x03
def Plt.badDigest : Nat := 0x04
def Plt.badEncoding : Nat := 0x05
def Plt.scope : Nat := 0x06
def Plt.feature : Nat := 0x07
def Plt.variant : Nat := 0x08
def Plt.companion : Nat := 0x09
def Plt.partConflict : Nat := 0x0A
def Plt.coreFenced : Nat := 0x0B
def Plt.coreOutside : Nat := 0x0C
def Plt.routeDead : Nat := 0x0D
def Plt.routeLong : Nat := 0x0E
def Plt.routeFormat : Nat := 0x0F
def Plt.mapConflict : Nat := 0x10
def Plt.interleave : Nat := 0x11
def Plt.oversubscribed : Nat := 0x12
def Plt.poolInvalid : Nat := 0x13
def Plt.poolMismatch : Nat := 0x14
def Plt.surveyFormat : Nat := 0x15
def Plt.source : Nat := 0x16
def Plt.notFound : Nat := 0x17
def Plt.floorplanChanged : Nat := 0x18
def Plt.writeFault : Nat := 0x19
def Plt.badCommand : Nat := 0x1A
def Plt.programInvalid : Nat := 0x1B

/-- Reads n bytes of the image at an offset as a little-endian number. -/
abbrev Img := Nat → Nat → Nat

/-- The lowest offset of those whose breach holds. -/
def lowest (l : List (Nat × Bool)) : Option Nat :=
  l.foldl (fun a (o, b) => if b then some (match a with | some x => min x o | none => o) else a) none

/-- A failure with the lowest offset of a list, as a result's DETAIL. -/
def failAt (r : Nat) (l : List (Nat × Bool)) : Option PlatErr := (lowest l).map fun o => (r, o, 0)

/-! ### Header and directory (R44, R45) -/

/-- A directory entry: TYPE, OFFSET, SIZE. -/
structure Section where
  type : Nat
  off : Nat
  size : Nat
  deriving DecidableEq, Repr

/-- Entry size of a section type (R46); none for a reserved type. -/
def entrySize (t : Nat) : Option Nat :=
  match t with
  | 1 => some 160 | 2 | 3 | 4 | 5 => some 32 | 6 => some 16 | 7 => some 48 | 8 => some 16 | 9 => some 64
  | _ => none

/-- MAGIC to the remaining header fields, in the order of R70 steps 2 to 5, for a command and a PLT_SRC_LEN. -/
def headerErr (g : Img) (op part len : Nat) : Option PlatErr :=
  if g 0 4 ≠ 0x5441_4C50 then some (Plt.badMagic, 0, 0)
  else if g 4 2 ≠ 1 then some (Plt.badVersion, g 4 2, 0)
  else if op = 1 ∧ g 6 1 ≠ 0 then some (Plt.badCommand, 0, g 6 1)
  else if op = 2 ∧ (g 6 1 ≠ 1 ∨ g 7 1 ≠ part) then some (Plt.badCommand, part, g 7 1)
  else if g 8 4 ≠ len ∨ g 8 4 > 0x4000_0000 then some (Plt.badLength, 8, 0)
  else failAt Plt.badEncoding [(7, g 6 1 == 0 && g 7 1 != 0), (0xC, g 0xC 2 == 0 || decide (g 0xC 2 > 64)), (0xE, g 0xE 2 != 0),
    (0x20, decide (g 0x20 1 ≥ 8)), (0x21, decide (g 0x21 1 > 1)), (0x22, g 0x22 30 != 0)]

/-- The end of the header and directory. -/
def dirEnd (g : Img) : Nat := 0x60 + 16 * g 0xC 2

/-- Two spans of bytes share one. -/
def spansMeet (a n b k : Nat) : Bool := decide (0 < n) && decide (0 < k) && decide (a < b + k) && decide (b < a + n)

/-- The breach of one directory entry, if any, beside the entries before it (R45). A section of SIZE 0 whose OFFSET lies in the header or
the directory is BAD_LENGTH at its OFFSET: of such a section "only its OFFSET rules apply", and the model counts among them that a section
begins at or after the end of the directory, though a section without bytes overlaps nothing (DESIGN CHOICE, log entry 81). -/
def dirEntryErr (g : Img) (b : Nat) (prev : List Section) : Option PlatErr :=
  let t := g b 2
  let o := g (b + 4) 4
  let n := g (b + 8) 4
  match entrySize t with
  | none => some (Plt.badEncoding, b, 0)
  | some e =>
    if prev.any fun s => s.type == t then some (Plt.scope, t, 0)
    else if g (b + 2) 2 ≠ 0 then some (Plt.badEncoding, b + 2, 0)
    else if o % 64 ≠ 0 ∨ o < dirEnd g ∨ prev.any (fun s => spansMeet o n s.off s.size) then some (Plt.badLength, b + 4, 0)
    else if n % e ≠ 0 ∨ (n ≠ 0 ∧ o + n > g 8 4) then some (Plt.badLength, b + 8, 0)
    else if g (b + 12) 4 ≠ 0 then some (Plt.badEncoding, b + 12, 0)
    else none

/-- The directory: its sections, or its first breach. -/
def readDir (g : Img) : Nat → Nat → List Section → Except PlatErr (List Section)
  | 0, _, prev => .ok prev
  | k + 1, b, prev =>
    match dirEntryErr g b prev with
    | some e => .error e
    | none => readDir g k (b + 16) (prev ++ [⟨g b 2, g (b + 4) 4, g (b + 8) 4⟩])

/-- Step 1 of a load (R69): header and directory. -/
def step1 (g : Img) (op part len : Nat) : Except PlatErr (List Section) :=
  match headerErr g op part len with
  | some e => .error e
  | none => if dirEnd g > g 8 4 then .error (Plt.badLength, 0xC, 0) else readDir g (g 0xC 2) 0x60 []

/-- Offsets of the entries of a section. -/
def entries (l : List Section) (t : Nat) : List Nat :=
  match l.find? fun s => s.type == t with
  | some s => (List.range (s.size / (entrySize t).getD 1)).map fun i => s.off + i * (entrySize t).getD 1
  | none => []

/-- Entries with their index. -/
def indexed (l : List Nat) : List (Nat × Nat) := (List.range l.length).zip l

/-! ### Reserved encodings (R17, R70 step 8) -/

/-- LAYOUT values that R209 reserves. -/
def layoutBad (v : Nat) : Bool :=
  decide (v % 4 > 1) || decide (v / 4 % 4 > 1) || decide (v / 16 % 4 > 2) || decide (v ≥ 64) || (v % 4 == 1 && decide (v ≥ 4))

/-- TARGET values that R60 reserves. -/
def targetBad (t : Nat) : Bool :=
  decide (t ≥ 0x1000) || (decide (0x254 ≤ t) && decide (t ≤ 0x25F)) || (decide (0x261 ≤ t) && decide (t ≤ 0x2FF)) || decide (t ≥ 0x340)

/-- The OBSERVE entry at an offset (R67, R558). -/
def readObserve (g : Img) (b : Nat) : Observe :=
  ⟨g b 1, g (b + 1) 1, g (b + 2) 1, g (b + 4) 4, g (b + 8) 8, g (b + 16) 8, g (b + 0x18) 8, g (b + 0x20) 18, g (b + 0x32) 1 % 2 == 1, true⟩

/-- Reserved encodings of one entry, by section type: their offsets. `i` is its place in the section. -/
def reservedIn (g : Img) (t i b : Nat) : List (Nat × Bool) :=
  let f (o n : Nat) : Nat := g (b + o) n
  let rsvd (o n : Nat) : Nat × Bool := (b + o, f o n != 0)
  match t with
  | 1 => [(b + 1, decide (f 1 1 > 2)), (b + 2, decide (f 2 1 > 8)), (b + 3, decide (f 3 1 > 3)), rsvd 6 2, rsvd 0x2A 6,
      (b + 0x30, decide (16 ≤ f 0x30 1) && decide (f 0x30 1 ≤ 254)), (b + 0x31, decide (f 0x31 1 > 1)), rsvd 0x32 14, rsvd 0x88 24]
  | 2 => [rsvd 2 2, (b + 24, decide (f 24 4 ≥ 4096)), rsvd 28 4]
  | 3 =>
    match f 0 1 with
    | 1 => [rsvd 3 13]
    | 2 => [(b + 2, decide (f 2 1 > 1)), (b + 3, decide (f 3 1 > 6)), rsvd 13 3]
        ++ (List.range 4).flatMap fun k => [(b + 18 + 4 * k, decide (f (18 + 4 * k) 1 > 3)), rsvd (19 + 4 * k) 1]
    | 3 => [(b + 2, decide (f 2 1 > 1)), rsvd 3 1, rsvd 6 2, rsvd 12 4]
    | _ => [(b, true)]
  | 4 => [(b + 1, decide (f 1 1 > 15)), rsvd 3 5, rsvd 24 8]
  | 5 => [(b + 1, decide (f 1 1 > 2)), (b + 4, decide (16 ≤ f 4 1) && f 4 1 != 255), rsvd 5 3, rsvd 24 8]
  | 6 =>
    match f 3 1 with
    | 0 => [(b + 2, decide (f 2 1 > 1)), (b + 4, targetBad (f 4 2)), rsvd 6 2, rsvd 12 4]
    | 1 => [(b, decide (f 0 1 > 15)), (b + 2, f 2 1 != 0), (b + 4, f 4 2 == 0), (b + 6, decide (f 6 2 > 1)),
        (b + 10, f 8 2 != 0 && decide (f 10 2 < 10)), (b + 12, decide (f 12 2 > 32767)), rsvd 14 2]
    | 2 => [(b, decide (f 0 1 > 15)), (b + 2, f 2 1 != 0), rsvd 13 3]
    | _ => [(b + 3, true)]
  | 7 => [(b + 1, decide (f 1 1 > 1)), (b + 2, decide (f 2 1 > 4)), (b + 3, decide (f 3 1 > 1)), (b + 4, layoutBad (f 4 1)), rsvd 5 3,
      rsvd 12 4, rsvd 32 16]
  | 8 =>
    if i = 0 then [(b + 2, decide (f 2 1 > 1)), rsvd 4 12]
    else if i ≤ 8 then [(b + 1, decide (f 1 1 > 7)), rsvd 3 1, rsvd 7 9]
    else [rsvd 3 1, rsvd 10 6]
  | 9 =>
    let o := readObserve g b
    [(b, decide (f 0 1 > 2)), (b + 1, decide (f 1 1 > 99)), (b + 2, decide (f 2 1 > 1)), rsvd 3 1]
      ++ if f 2 1 = 1 then
        [(b + 4, f 4 4 == 0 || decide (f 4 4 > 1_000_000)), (b + 8, f 8 8 % 64 != 0), (b + 16, decide (f 16 8 < o.recSize)),
          (b + 0x18, o.cmask == 0 || decide (o.cmask ≥ 2 ^ 51)), (b + 0x20, o.clusters == 0), (b + 0x32, decide (f 0x32 1 > 1)),
          rsvd 0x33 13]
      else []
  | _ => []

/-- A second KIND 1 entry of one fare (R360). -/
def secondParams (g : Img) (l : List Nat) : List (Nat × Bool) :=
  (indexed l).map fun (i, b) => (b, g (b + 3) 1 == 1 && (l.take i).any fun c => g (c + 3) 1 == 1 && g c 2 == g b 2)

/-- BAD_ENCODING over every section. -/
def reservedErr (g : Img) (l : List Section) : Option PlatErr :=
  failAt Plt.badEncoding ((l.flatMap fun s => (indexed (entries l s.type)).flatMap fun (i, b) => reservedIn g s.type i b)
    ++ secondParams g (entries l 6))

/-! ### Parsing -/

/-- A PARTITION entry. -/
def readPart (g : Img) (b : Nat) : PartEntry :=
  ⟨g b 1, g (b + 1) 1, g (b + 2) 1, g (b + 3) 1, (if g (b + 4) 2 = 0 then 20 else g (b + 4) 2), g (b + 8) 8, g (b + 0x10) 8,
    g (b + 0x18) 18, g (b + 0x30) 1, g (b + 0x31) 1, g (b + 0x40) 72⟩

/-- A PROGRAM entry. -/
def readProg (g : Img) (b : Nat) : ProgEntry :=
  ⟨g b 2, g (b + 4) 4, g (b + 8) 4, g (b + 12) 4, BitVec.ofNat 64 (g (b + 16) 8), BitVec.ofNat 32 (g (b + 24) 4)⟩

/-- A MEMMAP entry. -/
def readRange (g : Img) (b : Nat) : MemRange := ⟨g b 1, g (b + 1) 1, g (b + 2) 1, g (b + 8) 8, g (b + 16) 8⟩

/-- An INTERLEAVE entry. -/
def readRegion (g : Img) (b : Nat) : Region :=
  ⟨g b 1, g (b + 1) 1, g (b + 2) 1, g (b + 3) 1, g (b + 4) 1, g (b + 8) 8, g (b + 16) 8⟩

/-- A box of four bytes. -/
def readBox (g : Img) (b : Nat) : Box := ⟨g b 1, g (b + 1) 1, g (b + 2) 1, g (b + 3) 1⟩

/-- A route record. -/
def readRoute (g : Img) (b : Nat) : RouteRec :=
  ⟨g (b + 1) 1, g (b + 2) 1 % 2, g (b + 3) 1, readBox g (b + 4), readBox g (b + 8),
    (List.range (g (b + 12) 1)).map (fun k => ⟨g (b + 16 + 4 * k) 1, g (b + 17 + 4 * k) 1, g (b + 18 + 4 * k) 1⟩), b⟩

/-- A multicast rule. -/
def readRule (g : Img) (b : Nat) : McRule := ⟨g (b + 1) 1, g (b + 2) 1, g (b + 4) 2, readBox g (b + 8), g (b + 16) 8, g (b + 24) 8, b⟩

/-- A class map. -/
def readClass (g : Img) (b : Nat) : ClassMap := ⟨g (b + 1) 1, g (b + 2) 1, g (b + 16) 16⟩

/-- A FARE entry. -/
def readFare (g : Img) (b : Nat) : FareEntry := ⟨g b 1, g (b + 1) 1, g (b + 2) 1, g (b + 3) 1, g (b + 4) 12, b⟩

/-- A POOL entry. -/
def readPool (g : Img) (b : Nat) : PoolEntry :=
  ⟨g b 1, g (b + 1) 1, g (b + 2) 1, g (b + 3) 1 % 2 == 1, g (b + 4) 1, g (b + 8) 4, g (b + 16) 8, g (b + 24) 8⟩

/-- The SURVEY section. -/
def readSurvey (g : Img) (l : List Nat) : Survey :=
  match l with
  | [] => {}
  | h :: t => ⟨g h 2, g (h + 2) 1, (t.take 8).map (fun b => ⟨g (b + 1) 1, g (b + 2) 1, g (b + 4) 2, g (b + 6) 1⟩),
      (t.drop 8).map fun b => ⟨g b 1, g (b + 1) 1, g (b + 2) 1, g (b + 4) 2, g (b + 6) 2, g (b + 8) 1, g (b + 9) 1⟩⟩

/-- What an image configures. An OBSERVE section of no entry configures what an absent one does, and one of several configures its first
(R67 speaks of one entry; DESIGN CHOICE, log entry 81). -/
def readPlat (g : Img) (l : List Section) : Plat :=
  let es := entries l
  let kind (k : Nat) := (es 3).filter fun b => g b 1 == k
  { platId := g 0x10 8, parts := (es 1).map (readPart g), progs := (es 2).map (readProg g), classMaps := (kind 1).map (readClass g)
    routes := (kind 2).map (readRoute g), rules := (kind 3).map (readRule g), memmap := (es 4).map (readRange g)
    regions := (es 5).map (readRegion g), fares := (es 6).map (readFare g), pools := (es 7).map (readPool g)
    survey := readSurvey g (es 8), observe := match es 9 with | b :: _ => readObserve g b | [] => {}
    hasInterleave := l.any fun s => s.type == 5 }

/-- The configuration that a load leaves in force (R59, R80, R82): a module-scope plat alone; or a partition-scope plat in place of its
partition's share of the one in force. -/
def Module.merged (m : Module) (op p : Nat) (pl : Plat) : Plat :=
  if op = 1 then pl
  else
    let q := m.plat
    let old := q.parts.find? fun e => e.num == p
    let oldCore (c : Nat) : Bool := match old with | some e => Nat.testBit e.clusters (coreCluster c) | none => false
    { q with
      parts := (q.parts.filter fun e => e.num != p) ++ pl.parts
      progs := (q.progs.filter fun e => !oldCore e.core) ++ pl.progs
      classMaps := (q.classMaps.filter fun e => e.part != p) ++ pl.classMaps
      routes := (q.routes.filter fun e => e.part != p) ++ pl.routes
      rules := (q.rules.filter fun e => e.part != p) ++ pl.rules
      memmap := (q.memmap.filter fun e => e.part != p) ++ pl.memmap
      regions := if pl.hasInterleave then (q.regions.filter fun e => e.owner != p) ++ pl.regions else q.regions
      fares := (q.fares.filter fun e => e.part != p) ++ pl.fares.filter fun e => e.part == p
      pools := (q.pools.filter fun e => e.part != p) ++ pl.pools }

/-! ### Scope, features, variant, companion (R46, R72, R481) -/

/-- SCOPE (R46): of the sections that the directory lists and the scope forbids, or gives another number of entries, the one lowest in the
directory (R70); failing that, the mandatory section of lowest TYPE that is missing, which has no byte offset (DESIGN CHOICE, log entry
81: R46 orders these no further). -/
def scopeErr (op : Nat) (l : List Section) : Option PlatErr :=
  let has (t : Nat) : Bool := l.any fun s => s.type == t
  let n := (entries l 1).length
  let wrong (t : Nat) : Bool :=
    if op = 1 then t == 1 && (decide (n < 1) || decide (n > 16)) else (t == 1 && n != 1) || t == 8 || t == 9
  let missing := ((if op = 1 then [1, 3, 4, 5, 8] else [1, 3, 4]).find? fun t => !has t)
  ((((l.map (·.type)).find? wrong).or missing)).map fun t => (Plt.scope, t, 0)

/-- Level of a feature code (R481). -/
def featureLevel (f : Nat) : Nat := if f ≤ 11 then 0 else if f = 12 then 1 else 256

/-- FEATURE, VARIANT and COMPANION (R72). -/
def Module.fitErr (m : Module) (g : Img) (pl : Plat) : Option PlatErr :=
  let lvl := m.rd F.DTD_LEVEL_LEVEL 4
  match (List.range 64).find? fun f => Nat.testBit (g 0x18 8) f && decide (featureLevel f > lvl) with
  | some f => some (Plt.feature, f, lvl)
  | none =>
    if !Nat.testBit (g 0x20 1) m.fuses.variant then some (Plt.variant, m.fuses.variant, 0)
    else if (g 0x21 1 == 1 || pl.parts.any fun e => e.compUse == 1) && !m.companionUp then some (Plt.companion, 0, 0)
    else none

/-! ### Partitions and programs (R48, R51 to R53, R79, R360) -/

/-- PARTITION_CONFLICT: partitions among themselves, with the partitions that stay, and the queues of KIND 2 entries. -/
def Module.partErr (m : Module) (op p : Nat) (g : Img) (l : List Section) (pl : Plat) : Option PlatErr :=
  let others := if op = 1 then [] else m.plat.parts.filter fun e => e.num != p
  let one (i b : Nat) : List (Nat × Bool) :=
    let e := readPart g b
    let before := others ++ pl.parts.take i
    let own := if op = 2 then m.part p else none
    let all := maskOf 576 fun c => Nat.testBit e.clusters (coreCluster c)
    [ (b, decide (e.num > 15) || (pl.parts.take i).any (fun x => x.num == e.num) || (op == 2 && e.num != p)),
      (b + 2, (e.fn != 0 && before.any fun x => x.fn == e.fn) || (match own with | some o => o.fn != e.fn | none => false)),
      (b + 8, before.any fun x => x.arqMap &&& e.arqMap != 0), (b + 0x10, before.any fun x => x.dpqMap &&& e.dpqMap != 0),
      (b + 0x18, before.any fun x => x.clusters &&& e.clusters != 0), (b + 0x40, e.bankEn &&& all != e.bankEn) ]
  let k2 := (entries l 6).filter fun b => g (b + 3) 1 == 2
  let queues (i b : Nat) : Nat × Bool :=
    let q := g (b + 4) 8
    let arq := match pl.parts.find? fun e => e.num == g b 1 with | some e => e.arqMap | none => 0
    (b + 4, q &&& arq != q || (k2.take i).any fun c => g (c + 4) 8 &&& q != 0)
  failAt Plt.partConflict (((indexed (entries l 1)).flatMap fun (i, b) => one i b) ++ (indexed k2).map fun (i, b) => queues i b)

/-- CORE_OUTSIDE, CORE_FENCED and PROGRAM_INVALID, entry by entry. An image that extends beyond LENGTH fails at IMAGE_OFF where it
begins at or beyond LENGTH, else at IMAGE_LEN, and one of IMAGE_LEN 0 that begins below the directory's end at IMAGE_OFF; R53 names no field for
these (DESIGN CHOICE, log entry 81). -/
def Module.progErr (m : Module) (g : Img) (l : List Section) (pl : Plat) : Option PlatErr :=
  (indexed (entries l 2)).findSome? fun (i, b) =>
    let e := readProg g b
    let home := pl.parts.find? fun x => decide (e.core < 576) && Nat.testBit x.clusters (coreCluster e.core)
    match home with
    | none => some (Plt.coreOutside, e.core, 0)
    | some x =>
      if x.kind = 2 then some (Plt.coreOutside, e.core, 0)
      else if !m.good e.core then some (Plt.coreFenced, e.core, 0)
      else failAt Plt.programInvalid [ (b, (pl.progs.take i).any fun y => y.core == e.core),
        (b + 4, e.off % 64 != 0 || decide (e.off < dirEnd g) || decide (e.off ≥ g 8 4)),
        (b + 8, e.len == 0 || decide (e.len > 0x18_0000) || decide (e.off + e.len > g 8 4)),
        (b + 12, e.entry % 8 != 0 || decide (e.entry ≥ e.len)) ]

/-! ### Routes (R333 to R336, R343) -/

/-- A box of one die. -/
def Box.oneDie (x : Box) : Bool :=
  decide (x.x0 ≤ x.x1) && decide (x.x1 ≤ 23) && decide (x.y0 ≤ x.y1) && decide (x.y1 ≤ 23)
    && x.x0 / 12 == x.x1 / 12 && x.y0 / 12 == x.y1 / 12

/-- The legs keep the kind order and the halves of R24, R335 and R336, from a die and half on: `afterHub` where the leg before entered
the hub. A segment joins two routers by links where they lie in one half of the mesh. -/
def legsOk (dst : Box) : Nat → Nat → Bool → List Leg → Bool
  | _, half, afterHub, [] =>
    if dst.x0 = 31 then afterHub
    else !afterHub && dst.x0 / 12 == half && dst.x1 / 12 == half
  | die, half, afterHub, l :: t =>
    decide (l.x ≤ 23) && decide (l.y ≤ 23) &&
      (let e := dieAt l.x l.y
       match l.kind with
       | 1 => !afterHub && l.x / 12 == half && legsOk dst e half false t
       | 2 => !afterHub && e == die && l.x == bridgeX e && legsOk dst e half true t
       | 3 => afterHub && e != die && l.x == bridgeX e && legsOk dst e (l.x / 12) false t
       | _ => false)

/-- A route record's own format. -/
def routeOk (g : Img) (b : Nat) : Bool :=
  let r := readRoute g b
  let n := g (b + 12) 1
  let hub := r.dst.x0 == 31 && r.dst.y0 == 31 && r.dst.x1 == 31 && r.dst.y1 == 31
  decide (n ≤ 4) && r.src.oneDie
    && (hub || (decide (r.dst.x0 ≤ r.dst.x1) && decide (r.dst.x1 ≤ 23) && decide (r.dst.y0 ≤ r.dst.y1) && decide (r.dst.y1 ≤ 23)))
    && ((List.range 4).all fun k => decide (k < n) || g (b + 16 + 4 * k) 3 == 0)
    && legsOk r.dst (dieAt r.src.x0 r.src.y0) (r.src.x0 / 12) false r.legs

/-- A multicast rule's own format, beside the rules before it (R343). -/
def ruleOk (pl : Plat) (r : McRule) (before : List McRule) : Bool :=
  r.box.oneDie && decide (r.leader < 576) && r.box.has r.leader
    && (match pl.parts.find? fun e => e.num == r.part with
      | some e => r.nodes.all fun n => Nat.testBit e.clusters (coreCluster n)
      | none => false)
    && r.off % 64 == 0 && r.len % 64 == 0 && r.len != 0
    && (if r.endpoint = 1 then slicePopulated r.off r.len else scrPopulated r.off r.len)
    && !before.any fun x => x.part == r.part && x.endpoint == r.endpoint && x.leader == r.leader && spansMeet x.off x.len r.off r.len

/-- Pass 1 (R336): each record alone, and the limits on their number. -/
def routePass1 (g : Img) (l : List Section) (pl : Plat) : Option PlatErr :=
  let es := entries l 3
  ((indexed es).find? fun (i, b) =>
    let p := g (b + 1) 1
    let same := (es.take i).filter fun c => g c 1 == g b 1 && g (c + 1) 1 == p
    !(pl.parts.any fun e => e.num == p) ||
      (match g b 1 with
        | 1 => decide (g (b + 2) 1 > 3) || same.any fun c => g (c + 2) 1 == g (b + 2) 1
        | 2 => decide (same.length ≥ 256) || !routeOk g b
        | _ => decide (same.length ≥ 16) || !ruleOk pl (readRule g b) (same.map (readRule g)))).map fun (_, b) => (Plt.routeFormat, b, 0)

/-- ROUTE_DEAD and ROUTE_LONG of one path. -/
def Module.pathErr (m : Module) (off : Nat) (p : List Nat) : Option PlatErr :=
  match p.find? fun n => n != hubNode && m.dead n with
  | some n => some (Plt.routeDead, n, 0)
  | none => if crossings p > 4 then some (Plt.routeLong, off, 0) else none

/-- Pass 2 (R336): the paths of records and trees by byte offset, then the default paths by source and destination. -/
def Module.routePass2 (m : Module) (g : Img) (l : List Section) (pl : Plat) (mine : List Nat) : Option PlatErr :=
  let recs := (entries l 3).findSome? fun b =>
    match g b 1 with
    | 2 => (pl.recordPaths (readRoute g b)).findSome? (m.pathErr b)
    | 3 => ((pl.rulePaths (readRule g b)) ++ [(readRule g b).nodes]).findSome? fun p =>
        match p.find? fun n => n != hubNode && m.dead n with
        | some n => some (Plt.routeDead, n, 0)
        | none => if crossings p > 4 then some (Plt.routeLong, b, 0) else none
    | _ => none
  match recs with
  | some e => some e
  | none =>
    let all := (List.range 576).flatMap fun c => mine.flatMap fun p => (pl.defaultPaths p).filter fun q => q.headD hubNode == c
    all.findSome? (m.pathErr 0)

/-- The three passes of R336. -/
def Module.routeErr (m : Module) (g : Img) (l : List Section) (pl all : Plat) (mine : List Nat) : Option PlatErr :=
  match routePass1 g l pl with
  | some e => some e
  | none =>
    match m.routePass2 g l all mine with
    | some e => some e
    | none => (m.deps all mine).cycle.map fun o => (Plt.routeFormat, if o = noRec then 0 else o, 0)

/-! ### Memory map (R55, R56, R343, R559) -/

/-- Rights that make a range exclusive (R56). -/
def MemRange.exclusive (r : MemRange) : Bool := r.rights &&& (Right.write + Right.atomic + Right.bank) != 0

/-- The offset in its entry of what makes a range lie outside what R56 allows. -/
def Module.rangeBreach (m : Module) (r : MemRange) : Option Nat :=
  let lo := r.base
  let hi := r.base + r.len
  if hi ≤ 0x0780_0000_0000 then none
  else if 0x1000_0000_0000 ≤ lo ∧ hi ≤ 0x1120_0000_0000 then
    let c := (lo - 0x1000_0000_0000) / 0x8000_0000
    if slicePopulated (lo % 0x8000_0000) r.len && m.sliceLive c then none else some 8
  else if 0x2000_0000_0000 ≤ lo ∧ hi ≤ 0x2000_9000_0000 then
    let c := (lo - 0x2000_0000_0000) / 0x40_0000
    if scrPopulated (lo % 0x40_0000) r.len && m.good c then none else some 8
  else if 0x3000_0000_0000 ≤ lo ∧ hi ≤ 0x3005_0000_0000 then (if r.rights &&& 0xE ≠ 0 then some 1 else none)
  else if 0x3800_0000_0000 ≤ lo then
    (if m.companionUp && decide (hi ≤ 0x3800_0000_0000 + 2 ^ m.rd F.UCP_CAP_WINDOW_LOG2 4) then none else some 8)
  else some 8

/-- MAP_CONFLICT over the MEMMAP entries, the rules' target ranges and the tally. -/
def Module.mapErr (m : Module) (op p : Nat) (g : Img) (l : List Section) (pl : Plat) : Option PlatErr :=
  let others := if op = 1 then [] else m.plat.memmap.filter fun r => r.part != p
  let es := entries l 4
  let one (i b : Nat) : List (Nat × Bool) :=
    let r := readRange g b
    let before := pl.memmap.take i
    let known := (if op = 2 then r.part == p else true) && pl.parts.any fun e => e.num == r.part
    let br := m.rangeBreach r
    [ (b, !known || decide ((before.filter fun x => x.part == r.part).length ≥ 64)), (b + 1, br == some 1),
      (b + 8, r.base % 4096 != 0 || br == some 8 || (others ++ before).any fun x =>
        x.part != r.part && (x.exclusive || r.exclusive) && spansMeet x.base x.len r.base r.len),
      (b + 16, r.len % 4096 != 0 || r.len == 0) ]
  let rule (r : McRule) : Nat × Bool :=
    (r.at', r.nodes.any fun n =>
      let a := (if r.endpoint = 1 then 0x1000_0000_0000 + n * 0x8000_0000 else 0x2000_0000_0000 + n * 0x40_0000) + r.off
      !(pl.memmap.any fun x => x.part == r.part && x.rights &&& Right.write != 0 && decide (x.base ≤ a) && decide (a + r.len ≤ x.base + x.len)))
  let tally (b : Nat) : Nat × Bool :=
    let o := readObserve g b
    let far := decide (o.tally + o.tallyLen ≤ 0x0780_0000_0000)
    let near := decide (0x1000_0000_0000 ≤ o.tally) && decide (o.tally + o.tallyLen ≤ 0x1120_0000_0000)
      && slicePopulated (o.tally % 0x8000_0000) o.tallyLen && m.good ((o.tally - 0x1000_0000_0000) / 0x8000_0000)
    (b + 8, o.collect == 1 && (!(far || near) || pl.memmap.any fun x => x.exclusive && spansMeet x.base x.len o.tally o.tallyLen))
  failAt Plt.mapConflict (((indexed es).flatMap fun (i, b) => one i b) ++ pl.rules.map rule ++ (entries l 9).map tally)

/-! ### Interleave (R58, R59, R289, R290) -/

/-- A region keeps the rules of its own entry. -/
def Region.ok (r : Region) : Bool :=
  let mib := 0x10_0000
  decide (r.num ≤ 63) && decide (r.stack ≤ 3) && decide (r.dev ≤ 19) && decide (0 < r.len) &&
    (if r.mode = 0 then r.base % (20 * mib) == 0 && r.len % (20 * mib) == 0 && r.stack == 0 && r.dev == 0
        && decide (r.base + r.len ≤ 0x0780_0000_0000)
      else if r.mode = 1 then r.len % (5 * mib) == 0 && decide (r.stack * r.len ≤ r.base) && (r.base - r.stack * r.len) % (20 * mib) == 0
        && decide (r.base - r.stack * r.len + 4 * r.len ≤ 0x0780_0000_0000) && r.dev == 0
      else r.len % mib == 0 && decide (r.dev * r.len ≤ r.base) && (r.base - r.dev * r.len) % (20 * mib) == 0
        && decide (r.base - r.dev * r.len + 20 * r.len ≤ 0x0780_0000_0000) && r.stack == 0)

/-- Two regions share a far address or a device location. -/
def Region.clash (a b : Region) : Bool :=
  let (da, oa, na) := a.foot
  let (db, ob, nb) := b.foot
  spansMeet a.base a.len b.base b.len || (da.any db.contains && spansMeet oa na ob nb)

/-- INTERLEAVE, entry by entry, against earlier entries, the regions that stay and the floor plan. -/
def Module.interErr (m : Module) (op p : Nat) (l : List Section) (pl : Plat) : Option PlatErr :=
  let kept := if op = 1 then [] else m.regionsNow.filter fun r => r.owner != p
  let es := (entries l 5).zip pl.regions
  ((List.range es.length).findSome? fun i =>
    match es[i]? with
    | none => none
    | some (b, r) =>
      let before := kept ++ pl.regions.take i
      if !r.ok || (op == 2 && r.owner != p) || (before.any fun x => x.num == r.num || x.clash r) || r.foot.1.any m.farLost then some b
      else none).map fun b => (Plt.interleave, b, 0)

/-! ### Pools (R64, R65, R81, R211) -/

/-- A span lies within the union of a partition's write ranges. -/
def covered (l : List MemRange) (p : Nat) : Nat → Nat → Nat → Bool
  | 0, a, e => decide (e ≤ a)
  | fuel + 1, a, e =>
    if e ≤ a then true
    else
      let top := (l.filter fun r => r.part == p && r.rights &&& Right.write != 0 && decide (r.base ≤ a)).foldl
        (fun x r => max x (r.base + r.len)) 0
      if top ≤ a then false else covered l p fuel top e

/-- The slices of a near pool (R65): programmed cores and lodger slices of the partition. -/
def Module.poolSlices (m : Module) (pl : Plat) (p : Nat) : List Nat :=
  match pl.parts.find? fun e => e.num == p with
  | some e => (List.range 576).filter fun c =>
      Nat.testBit e.clusters (coreCluster c) && ((pl.progs.any fun g => g.core == c) || m.lodger c)
  | none => []

/-- The address spans of a pool, by R65: near, its slices' shares; far, one span. -/
def Module.poolSpans (m : Module) (pl : Plat) (e : PoolEntry) : List (Nat × Nat) :=
  if e.loc = 1 then [(e.base, e.count * 0x1_0000)]
  else
    let sl := m.poolSlices pl e.part
    let k := sl.length
    (sl.zip (List.range k)).filterMap fun (c, i) =>
      let n := (e.count + k - 1 - i) / k
      if n = 0 then none else some (0x1000_0000_0000 + c * 0x8000_0000 + e.base, n * 0x1_0000)

/-- POOL_INVALID and POOL_MISMATCH, entry by entry; `all` is the configuration that the load leaves. -/
def Module.poolErr (m : Module) (l : List Section) (pl all : Plat) : Option PlatErr :=
  (indexed (entries l 7)).findSome? fun (i, b) =>
    match pl.pools[i]? with
    | none => none
    | some e =>
      let n := pl.memmap.length + 1
      let spans := m.poolSpans pl e
      let tlen := 64 + 8 * e.count
      let inWrite (a k : Nat) : Bool := covered pl.memmap e.part n a (a + k)
      let bytes := 2 * (16 * 2 ^ e.tokens) * (64 * 2 ^ (e.layout / 16 % 4)) * 2 ^ (e.layout / 4 % 4)
      let known := pl.parts.any fun x => x.num == e.part
      let baseBad := e.base % 0x1_0000 != 0 || spans.isEmpty || !(spans.all fun (a, k) => inWrite a k)
        || (if e.loc = 1 then !(all.regions.any fun r => r.owner == e.part && decide (r.base ≤ e.base)
              && decide (e.base + e.count * 0x1_0000 ≤ r.base + r.len))
            else spans.any fun (a, k) => !slicePopulated (a % 0x8000_0000) k)
      let home := (decide (0x1000_0000_0000 ≤ e.table) && decide (e.table < 0x1120_0000_0000) && slicePopulated (e.table % 0x8000_0000) tlen)
        || all.regions.any fun r => r.mode == 2 && decide (r.base ≤ e.table) && decide (e.table + tlen ≤ r.base + r.len)
      let tableBad := e.table % 4096 != 0 || !home || !inWrite e.table tlen || spans.any fun (a, k) => spansMeet a k e.table tlen
      let invalid := failAt Plt.poolInvalid [ (b, !known || (pl.pools.take i).any fun x => x.part == e.part),
          (b + 2, e.layout % 4 == 0 && decide (bytes > 0x1_0000)), (b + 8, e.count == 0 || e.count == 0xFFFF_FFFF),
          (b + 0x10, baseBad), (b + 0x18, tableBad) ]
      let mismatch := match m.plat.pools.find? fun x => x.part == e.part with
        | some o => if !e.keep then none
            else failAt Plt.poolMismatch [ (b + 1, o.loc != e.loc), (b + 2, o.tokens != e.tokens), (b + 4, o.layout != e.layout),
              (b + 8, o.count != e.count), (b + 0x10, o.base != e.base), (b + 0x18, o.table != e.table) ]
        | none => none
      match invalid, mismatch with
      | some x, some y => if y.2.1 < x.2.1 then some y else some x
      | some x, none => some x
      | none, y => y

/-! ### Admission (R60 to R63) -/

/-- The load of a device target (R62). -/
def Module.targetLoad (m : Module) (pl : Plat) (t : Nat) : Nat :=
  (pl.fares.filter fun e => e.kind == 0).foldl (fun n e => n + m.term pl e t) 0

/-- Device targets in ascending number. -/
def deviceTargets : List Nat := List.range 0x254 ++ [0x260]

/-- A partition's ranges meet a span. -/
def Plat.maps (pl : Plat) (p a n : Nat) : Bool := pl.memmap.any fun r => r.part == p && spansMeet r.base r.len a n

/-- The admission check (R63): each guarantee of the image, then the loads. A guarantee whose PART is no partition of the plat is MAP_CONFLICT at its
entry's offset; R63 names no DETAIL for it (DESIGN CHOICE, log entry 81). -/
def Module.admitErr (m : Module) (g : Img) (l : List Section) (pl all : Plat) : Option PlatErr :=
  let each := ((entries l 6).filter fun b => g (b + 3) 1 == 0).findSome? fun b =>
    let e := readFare g b
    let t := e.gTarget
    if !(pl.parts.any fun x => x.num == e.part) then some (Plt.mapConflict, b, 0)
    else if t < 0x240 then
      if !m.sliceLive t then some (Plt.coreFenced, t, 0)
      else if pl.maps e.part (0x1000_0000_0000 + t * 0x8000_0000) 0x5000_0000 then none else some (Plt.mapConflict, b + 4, 0)
    else if t < 0x254 then
      if pl.memmap.any fun x => x.part == e.part && all.regions.any fun r => r.touches x.base (x.base + x.len) (t - 0x240) then none
      else some (Plt.mapConflict, b + 4, 0)
    else if t = 0x260 then
      if !m.companionUp then some (Plt.companion, 0, 0)
      else if pl.maps e.part 0x3800_0000_0000 (2 ^ 40) then none else some (Plt.mapConflict, b + 4, 0)
    else
      match all.regions.find? fun r => r.num == t - 0x300 with
      | some r => if pl.maps e.part r.base r.len then none else some (Plt.mapConflict, b + 4, 0)
      | none => some (Plt.mapConflict, b + 4, 0)
  match each with
  | some e => some e
  | none =>
    (deviceTargets.find? fun t => decide (m.targetLoad all t > 65536)).map fun t =>
      (Plt.oversubscribed, t, m.targetLoad all t - 65536)

/-! ### Survey (R66, R437) -/

/-- SURVEY_FORMAT: the section's own format, and each partition's RING (a ring of the survey in force). A section without an entry has none to point
at: DETAIL 0 (DESIGN CHOICE, log entry 81). -/
def Module.surveyErr (m : Module) (op : Nat) (g : Img) (l : List Section) (pl : Plat) : Option PlatErr :=
  let es := entries l 8
  let rings := (if op = 1 then pl.survey else m.plat.survey).rings
  let ringless := (entries l 1).map fun b => (b + 0x30, g (b + 0x30) 1 != 255 && !rings.any fun r => r.index == g (b + 0x30) 1)
  if op = 1 ∧ es.isEmpty then some (Plt.surveyFormat, 0, 0)
  else
    let own := (indexed es).flatMap fun (i, b) =>
      let f (o n : Nat) : Nat := g (b + o) n
      if i = 0 then [(b, f 0 2 == 0xFFFF), (b + 3, decide (f 3 1 > 16) || es.length != 9 + f 3 1)]
      else if i ≤ 8 then [(b, f 0 1 != i - 1), (b + 2, decide (f 2 1 > 24)), (b + 6, decide (f 6 1 > 7))]
      else [(b, decide (f 0 1 > 15) || ((es.take i).drop 9).any fun c => g c 1 == f 0 1),
        (b + 1, decide (f 1 1 < 2) || decide (f 1 1 > 64)), (b + 2, decide (f 2 1 ≥ f 1 1)), (b + 8, decide (f 8 1 > 7)),
        (b + 9, decide (f 9 1 > 7))]
    failAt Plt.surveyFormat (own ++ ringless)

/-! ### Steps 2 and 3 -/

/-- The first of a list of checks that fails; later ones are not made. -/
def firstErr : List (Unit → Option PlatErr) → Option PlatErr
  | [] => none
  | f :: t => match f () with | some e => some e | none => firstErr t

/-- The section checks of step 3 in the order of R70. -/
def Module.sectionsErr (m : Module) (g : Img) (op p : Nat) (l : List Section) : Option PlatErr :=
  let pl := readPlat g l
  let all := m.merged op p pl
  let mine := pl.parts.map (·.num)
  firstErr [ fun _ => reservedErr g l, fun _ => scopeErr op l, fun _ => m.fitErr g pl, fun _ => m.partErr op p g l pl,
    fun _ => m.progErr g l pl, fun _ => m.routeErr g l pl all mine, fun _ => m.mapErr op p g l pl, fun _ => m.interErr op p l pl,
    fun _ => m.poolErr l pl all, fun _ => m.admitErr g l pl all, fun _ => m.surveyErr op g l pl ]

end Sys2Proof.Machine
end

