-- ==== Sys2Proof/Machine/Queues.lean ====
section
/-! DEFINITION. Arrival and departure queues (R396 to R411): the host's appends and commits, the cores' takes and puts, the host's
reads and pops, and what the states of partitions do to them. Each side reads the counts of the other side as they are now, which R397
allows. -/

namespace Sys2Proof.Machine

/-- An arrival queue. -/
def Module.arq (m : Module) (q : Nat) : ArQueue := Tbl.get {} m.arqs q
/-- Replaces an arrival queue. -/
def Module.setArq (m : Module) (q : Nat) (x : ArQueue) : Module := { m with arqs := Tbl.set {} m.arqs q x }
/-- A departure queue. -/
def Module.dpq (m : Module) (q : Nat) : DpQueue := Tbl.get {} m.dpqs q
/-- Replaces a departure queue. -/
def Module.setDpq (m : Module) (q : Nat) (x : DpQueue) : Module := { m with dpqs := Tbl.set {} m.dpqs q x }

/-- The partition, not ABSENT, that holds an arrival queue (R47, R411). -/
def Module.arqPart (m : Module) (q : Nat) : Option PartEntry := m.plat.parts.find? fun e => Nat.testBit e.arqMap q
/-- The partition that holds a departure queue. -/
def Module.dpqPart (m : Module) (q : Nat) : Option PartEntry := m.plat.parts.find? fun e => Nat.testBit e.dpqMap q
/-- Compatibility mode (R47). -/
def PartEntry.compat (e : PartEntry) : Bool := e.modes % 2 == 1

/-- The queue default fare (R359): 0 where no KIND 2 entry of its partition names the queue. -/
def Module.defFare (m : Module) (q : Nat) : Nat :=
  match m.arqPart q with
  | some e =>
    match m.plat.fares.find? fun f => f.kind == 2 && f.part == e.num && Nat.testBit f.qmask q with
    | some f => f.fare
    | none => 0
  | none => 0

/-- Words of a queue. -/
def queueWords : Nat := 1024

/-- The head packet of a queue's words and the rest; none while no whole packet waits. -/
def headPacket : List QWord → Option (List QWord × List QWord)
  | [] => none
  | w :: t => if w.last then some ([w], t) else (headPacket t).map fun (p, r) => (w :: p, r)

/-- Lengths of the packets waiting, oldest first; words after the last end mark form no packet. -/
def packetLens : Nat → List QWord → List Nat
  | _, [] => []
  | n, w :: t => if w.last then (n + 1) :: packetLens 0 t else packetLens (n + 1) t

/-- Packets waiting. -/
def packetCount (l : List QWord) : Nat := (l.filter QWord.last).length

/-- Words after the last end mark. -/
def looseWords (l : List QWord) : Nat := l.length - (packetLens 0 l).foldl (· + ·) 0

/-- Offers a QUEUE record (R564): 0 commit, 1 rewind, 2 take, 3 put, 4 pop, 5 discard; a departure queue by the queue's own number. -/
def Module.queueRec (m : Module) (q what words : Nat) : Module := m.record 4 7 .queue q (what + words % 512 * 256) q 0

/-- The word at a place of a queue fails its parity (R396); `dep` for a departure queue. -/
def Module.parityBad (m : Module) (dep : Bool) (q head i : Nat) : Bool :=
  m.badParity.contains ((if dep then 65536 else 0) + q * queueWords + (head + i) % queueWords)

/-! ### Discards (R411) -/

/-- The staged packet is gone. -/
def ArQueue.unstage (x : ArQueue) : ArQueue := { x with staged := [], size := false, overrun := false }

/-- Counts discarded packets, by their lengths. -/
def Module.countDiscards (m : Module) (f : RegField) (q : Nat) (lens : List Nat) : Module :=
  lens.foldl (fun (m : Module) n => (m.bump f q).queueRec q 5 n) m

/-- Discards and counts everything an arrival queue holds, its staged packet included. -/
def Module.discardArq (m : Module) (q : Nat) : Module :=
  let x := m.arq q
  let loose := looseWords x.words
  let lens := packetLens 0 x.words ++ (if loose = 0 then [] else [loose]) ++ (if x.staged.isEmpty then [] else [x.staged.length])
  (m.setArq q { head := (x.head + x.words.length) % queueWords }).countDiscards F.ARQ_DISCARD_CNT_COUNT q lens

/-- Empties and counts a departure queue. -/
def Module.emptyDpq (m : Module) (q : Nat) : Module :=
  let x := m.dpq q
  (m.setDpq q { head := (x.head + x.words.length) % queueWords }).countDiscards F.DPQ_DISCARD_CNT_COUNT q (packetLens 0 x.words)

/-- Every queue of a map. -/
def Module.onQueues (m : Module) (map : Nat) (f : Module → Nat → Module) : Module :=
  ((List.range 64).filter (Nat.testBit map)).foldl f m

/-! ### The host's side of arrival queues (R399 to R403) -/

/-- Free words as the host sees them. -/
def ArQueue.free (x : ArQueue) : Nat := queueWords - x.words.length

/-- A list cut into words of 64 bytes. -/
def wordsIn : Nat → List Byte → List (List Byte)
  | 0, _ => []
  | n + 1, l => l.take 64 :: wordsIn n (l.drop 64)

/-- Sets the error bits of a rewind (R401), counts it and raises event 4. -/
def Module.rewind (m : Module) (q n : Nat) (bits : Nat) : Module :=
  let m := ((m.setArq q (m.arq q).unstage).setWord .ARQ_ERR q 0 (m.word .ARQ_ERR q ||| BitVec.ofNat 32 bits)).bump F.ARQ_REWIND_CNT_COUNT q
  let m := m.queueRec q 1 n
  match m.arqPart q with
  | some e => m.event e.fn 4
  | none => m

/-- A commit of the staged packet of n words (R401, R411). -/
def Module.commit (m : Module) (q n : Nat) : Module :=
  let x := m.arq q
  match m.arqPart q with
  | none => (m.setArq q x.unstage).countDiscards F.ARQ_DISCARD_CNT_COUNT q [n]
  | some e =>
    if e.kind = 2 then (m.setArq q x.unstage).countDiscards F.ARQ_DISCARD_CNT_COUNT q [n]
    else
      let ctl := leNat ((Tbl.get [] x.staged 0).take 4)
      if x.size || x.overrun then m.rewind q n ((if x.size then 8 else 0) + (if x.overrun then 4 else 0))
      else if (List.range n).any fun i => (Tbl.get [] x.staged i).isEmpty then m.rewind q n 2
      else if ctl ≥ 512 then m.rewind q n 16
      else if (List.range n).any fun i => m.parityBad false q x.head (x.words.length + i) then m.rewind q n 1
      else
        let ws := (List.range n).map fun i => (⟨Tbl.get [] x.staged i, false, i + 1 == n⟩ : QWord)
        (m.setArq q { x.unstage with words := x.words ++ ws }).queueRec q 0 n

/-- A host write to an APPEND or COMMIT window in native mode (R399), at a window offset. -/
def Module.stageWords (m : Module) (q : Nat) (isCommit : Bool) (off : Nat) (data : List Byte) : Module :=
  let x := m.arq q
  let n := data.length / 64
  if off % 64 ≠ 0 ∨ data.length % 64 ≠ 0 ∨ n = 0 then m.setArq q { x with size := true }
  else if off / 64 + n > min 256 x.free then m.setArq q { x with overrun := true }
  else
    let ws := (List.range n).zip (wordsIn n data)
    let m := m.setArq q { x with staged := ws.foldl (fun t (i, w) => Tbl.set [] t (off / 64 + i) w) x.staged }
    if isCommit then m.commit q (off / 64 + n) else m

/-- Appends one word in compatibility mode (R403). -/
def Module.appendWord (m : Module) (q : Nat) (w : List Byte) (endMark : Bool) : Module :=
  let x := m.arq q
  if x.words.length ≥ queueWords then (m.setArq q { x with taint := true }).wr F.ARQ_ERR_OVERFLOW q 1
  else
    let long := !endMark && decide (x.run ≥ 255)
    let last := endMark || long
    let word : QWord := ⟨w, long || (endMark && x.taint), last⟩
    let x' : ArQueue := { x with words := x.words ++ [word], run := if last then 0 else x.run + 1, taint := if last then false else x.taint }
    let m := if long then m.wr F.ARQ_ERR_LONG q 1 else m
    let m := m.setArq q x'
    if !last then m
    else
      let hearth := match m.arqPart q with | some e => e.kind == 2 | none => false
      if hearth then
        let y := m.arq q
        let n := x.run + 1
        (m.setArq q { y with words := y.words.take (y.words.length - n) }).countDiscards F.ARQ_DISCARD_CNT_COUNT q [n]
      else m.queueRec q 0 (x.run + 1)

/-- A host write to an APPEND or COMMIT window in compatibility mode (R403). -/
def Module.appendCompat (m : Module) (q : Nat) (isCommit : Bool) (off : Nat) (data : List Byte) : Module :=
  let n := data.length / 64
  if off % 64 ≠ 0 ∨ data.length % 64 ≠ 0 ∨ n = 0 then (m.setArq q { m.arq q with taint := true }).wr F.ARQ_ERR_SIZE q 1
  else ((List.range n).zip (wordsIn n data)).foldl (fun (m : Module) (i, w) => m.appendWord q w (isCommit && i + 1 == n)) m

/-- A host write to a window of an arrival queue, by its partition's mode (R399, R403, R411). -/
def Module.arqWrite (m : Module) (q : Nat) (isCommit : Bool) (off : Nat) (data : List Byte) : Module :=
  match m.arqPart q with
  | some e => if e.compat then m.appendCompat q isCommit off data else m.stageWords q isCommit off data
  | none => m.stageWords q isCommit off data

/-- Who may write a queue's block (R417): the function that serves its partition, the physical function and Ostler. -/
def queueWriter (src : Nat) (e : Option PartEntry) : Bool :=
  privileged src || (match e with | some e => e.fn != 0 && src == reqHost + e.fn | none => false)

/-- A write of ARQ_ABORT (R402). -/
def Module.arqAbort (m : Module) (src q v : Nat) : Module :=
  if queueWriter src (m.arqPart q) && v % 2 == 1 then m.setArq q (m.arq q).unstage else m

/-- ARQ_ABORT (R402): a write of 1 discards the staged packet with no count. -/
def execArqAbort (req : Requester) (q : QueueId) (value : Word) (s : State) : Res := s.done (s.m.arqAbort req.toNat q value.toNat)

/-! ### The host's side of departure queues (R409) -/

/-- A write of DPQ_POP. -/
def Module.dpqPop (m : Module) (src q v : Nat) : Module :=
  if !queueWriter src (m.dpqPart q) || v % 2 == 0 then m
  else
    let x := m.dpq q
    match headPacket x.words with
    | none => m
    | some (p, r) => (m.setDpq q ⟨r, (x.head + p.length) % queueWords⟩).queueRec q 4 p.length

/-- DPQ_POP (R409). -/
def execDpqPop (req : Requester) (q : QueueId) (value : Word) (s : State) : Res := s.done (s.m.dpqPop req.toNat q value.toNat)

/-- Bytes of a departure queue's READ window, and whether a word among them is returned poisoned, which is counted (R409). -/
def Module.dpqRead (m : Module) (q off n : Nat) : Module × List Byte × List Bool :=
  let x := m.dpq q
  let p := match headPacket x.words with | some (p, _) => p | none => []
  let ws := if n = 0 then [] else (List.range ((off + n - 1) / 64 + 1 - off / 64)).map (off / 64 + ·)
  let bad (i : Nat) : Bool := match p[i]? with | some w => w.poison || m.parityBad true q x.head i | none => false
  let byte (o : Nat) : Byte := match p[o / 64]? with | some w => w.data.getD (o % 64) 0 | none => 0
  (m.bumpBy F.DPQ_POISON_CNT_COUNT q (ws.filter bad).length, (List.range n).map fun i => byte (off + i), ws.map bad)

/-! ### Queue instructions (R404 to R408) -/

/-- Statuses of R405. -/
def QSt.ok : Nat := 0
def QSt.empty : Nat := 1
def QSt.full : Nat := 2
def QSt.tooLong : Nat := 3
def QSt.notOwned : Nat := 4
def QSt.rewound : Nat := 5
def QSt.range : Nat := 6

/-- The result word (R405). -/
def qResult (status words fare : Nat) (poison : Bool) : DWord :=
  BitVec.ofNat 64 (status + words % 512 * 256 + fare % 256 * 2 ^ 24 + if poison then 2 ^ 32 else 0)

/-- A buffer of n words that R404 allows. -/
def qBufferOk (a n : Nat) : Bool := a % 64 == 0 && decide (a + 64 * n ≤ 0x18_0000)

/-- The outcome of an attempt: the module, and the result word; none while a waiting form must wait. -/
abbrev QTry := Module × Option DWord

/-- Takes the head packet of an arrival queue into a buffer of `cap` words (R404 to R406); none while the queue is empty. -/
def Module.take (m : Module) (c q a cap : Nat) : QTry :=
  let owned := match m.partOf c with | some p => Nat.testBit p.arqMap q | none => false
  if !qBufferOk a cap then (m, some (qResult QSt.range 0 0 false))
  else if !owned then (m, some (qResult QSt.notOwned 0 0 false))
  else
    let x := m.arq q
    match headPacket x.words, m.partOf c with
    | some (p, rest), some e =>
      let n := p.length
      let ctl := match p with | w :: _ => leNat (w.data.take 4) | [] => 0
      let fare := if !e.compat && bitsAt ctl 8 1 == 1 then ctl % 256 else m.defFare q
      if n > cap then (m, some (qResult QSt.tooLong n fare false))
      else
        let bad := (List.range n).filter fun i =>
          (match p[i]? with | some w => w.poison | none => false) || m.parityBad false q x.head i
        let k := scrKey c a
        let m := m.setArq q { x with words := rest, head := (x.head + n) % queueWords }
        let m := m.storeTag k (p.map (·.data)).flatten fun w => bad.contains (w - k / 64)
        let m := (m.bumpBy F.ARQ_POISON_CNT_COUNT q bad.length).count c 49 1
        let m := if e.fareSource then m.wr F.SEQ_FARE_FARE c fare else m
        (m.queueRec q 2 n, some (qResult QSt.ok n fare (!bad.isEmpty)))
    | _, _ => (m, none)

/-- A core's partition holds a departure queue. -/
def Module.ownsDpq (m : Module) (c q : Nat) : Bool := match m.partOf c with | some p => Nat.testBit p.dpqMap q | none => false

/-- Puts n words of a buffer on a departure queue (R404, R405, R407); none while space is short. -/
def Module.putQ (m : Module) (c q a n : Nat) : QTry :=
  let part := m.partOf c
  if !qBufferOk a n then (m, some (qResult QSt.range n 0 false))
  else if !m.ownsDpq c q then (m, some (qResult QSt.notOwned n 0 false))
  else
    let x := m.dpq q
    if x.words.length + n > queueWords then (m, none)
    else
      let (m, l, badW) := m.load' (scrKey c a) (64 * n)
      let k := scrKey c a / 64
      let ws := (List.range n).map fun i => (⟨(l.drop (64 * i)).take 64, badW.contains (k + i), i + 1 == n⟩ : QWord)
      let native := match part with | some p => !p.compat | none => true
      if native && (List.range n).any fun i => m.parityBad true q x.head (x.words.length + i) then
        ((m.bump F.DPQ_REWIND_CNT_COUNT q).queueRec q 1 n, some (qResult QSt.rewound n 0 (!badW.isEmpty)))
      else (((m.setDpq q { x with words := x.words ++ ws }).count c 50 1).queueRec q 3 n, some (qResult QSt.ok n 0 (!badW.isEmpty)))

/-- Ends a queue instruction with its result: the core resumes after it. -/
def Module.qEnd (m : Module) (c dst : Nat) (v : DWord) : Module :=
  let k := m.core c
  m.retire c { k.setG dst v with wait := none }

/-- A waiting core resumes with the outcome of its instruction. -/
def Module.qResume (m : Module) (c dst : Nat) (t : QTry) : Module :=
  match t with
  | (_, none) => m
  | (m', some v) => (m'.setCoreSt c .running).qEnd c dst v

/-- The cores that wait at a queue, the first to come first. -/
def Module.waiters (m : Module) (q : Nat) (put : Bool) : List Nat :=
  (Tbl.get [] m.line (if put then 64 + q else q)).filter fun c =>
    (m.core c).st == .waiting && (match (m.core c).wait with
      | some (.take _ q' _ _) => !put && q' == q
      | some (.put _ q' _ _) => put && q' == q
      | _ => false)

/-- A core comes to wait at a queue, behind those that wait there. -/
def Module.joinLine (m : Module) (c q : Nat) (put : Bool) : Module :=
  { m with line := Tbl.set [] m.line (if put then 64 + q else q) ((m.waiters q put).filter (· != c) ++ [c]) }

/-- The waiting instruction of a core is tried again. -/
def Module.qAgain (m : Module) (c : Nat) : Module :=
  match (m.core c).wait with
  | some (.take dst q a cap) => m.qResume c dst (m.take c q a cap)
  | some (.put dst q a n) => m.qResume c dst (m.putQ c q a n)
  | _ => m

/-- The cores that wait at a queue are served, in the order in which they came, up to the first that must still wait (R406, R407). -/
def Module.serveLine (m : Module) (q : Nat) (put : Bool) : Module :=
  (m.waiters q put).foldl (fun (m : Module) c => if (m.waiters q put).head? = some c then m.qAgain c else m) m

/-- A queue instruction: `wait` where it is a waiting form. IMM[31:8] must be 0. It is served after those that wait at its queue; a put that
finds one waiting still ends FULL, or waits behind it, whatever its own length (R406, R407; DEDUCED, log entry 103). -/
def Module.qOp (m : Module) (c dst src1 src2 : Nat) (imm : Word) (put : Bool) (waits : Bool) : Module :=
  m.fetch c fun m k =>
    if imm.toNat ≥ 256 then m.opInvalid c k
    else
      let q := (k.getG src1).toNat % 64
      let a := (k.getG src2).toNat
      let n := imm.toNat + 1
      let m := m.serveLine q put
      let behind := put && qBufferOk a n && m.ownsDpq c q && !(m.waiters q put).isEmpty
      match (if put then m.putQ c q a n else m.take c q a n), behind with
      | (m', some v), false => m'.qEnd c dst v
      | (m1, r), _ =>
        let m' := if r.isSome then m else m1
        if waits then
          ((m'.joinLine c q put).setCore c
            { k with wait := some (if put then .put dst q a n else .take dst q a n), lastPc := k.pc }).setCoreSt c .waiting
        else m'.qEnd c dst (if put then qResult QSt.full n 0 false else qResult QSt.empty 0 0 false)

/-- QTAKE (R404). -/
def execQtake (c : CoreId) (dst src1 src2 : GReg) (imm : Word) (s : State) : Res := s.done (s.m.qOp c dst src1 src2 imm false false)
/-- QTAKEW (R404). -/
def execQtakew (c : CoreId) (dst src1 src2 : GReg) (imm : Word) (s : State) : Res := s.done (s.m.qOp c dst src1 src2 imm false true)
/-- QPUT (R404). -/
def execQput (c : CoreId) (dst src1 src2 : GReg) (imm : Word) (s : State) : Res := s.done (s.m.qOp c dst src1 src2 imm true false)
/-- QPUTW (R404). -/
def execQputw (c : CoreId) (dst src1 src2 : GReg) (imm : Word) (s : State) : Res := s.done (s.m.qOp c dst src1 src2 imm true true)

/-- QTAKEW_RESUME (R404, R406): a packet is visible for a core waiting in QTAKEW, the first in its queue's line. -/
def execQtakewResume (c : CoreId) (s : State) : Res :=
  s.done (match (s.m.core c).wait with
    | some (.take _ q _ _) => if (s.m.waiters q false).head? = some c.val then s.m.qAgain c else s.m
    | _ => s.m)

/-- QPUTW_RESUME (R404, R407): space has freed for a core waiting in QPUTW, the first in its queue's line. -/
def execQputwResume (c : CoreId) (s : State) : Res :=
  s.done (match (s.m.core c).wait with
    | some (.put _ q _ _) => if (s.m.waiters q true).head? = some c.val then s.m.qAgain c else s.m
    | _ => s.m)

/-- Counts of an arrival queue as QCOUNT gives them: packets, and words waiting. -/
def Module.arqCounts (m : Module) (q : Nat) : Nat × Nat := (packetCount (m.arq q).words, (m.arq q).words.length)

/-- QCOUNT (R404): IMM[0] 0 an arrival queue's packets and words, 1 a departure queue's packets and free words. -/
def execQcount (c : CoreId) (dst src1 : GReg) (imm : Word) (s : State) : Res :=
  s.done (s.m.fetch c fun m k =>
    if imm.toNat ≥ 2 then m.opInvalid c k
    else
      let q := (k.getG src1).toNat % 64
      let (p, w) := if imm = 0 then m.arqCounts q else (packetCount (m.dpq q).words, queueWords - (m.dpq q).words.length)
      m.retire c (k.setG dst (BitVec.ofNat 64 (p + w * 65536))))

/-- QUEUE_RESERVED_OP (R404): a reserved queue opcode faults with OP_INVALID. -/
def execQueueReservedOp (c : CoreId) (word : DWord) (s : State) : Res := s.done (s.m.reservedWord c word)

end Sys2Proof.Machine
end

