-- ==== Sys2Proof/Machine/RstRuns.lean ====
section
/-! DEFINITION. The commands of the reset blocks in progress (R511, R519): which positions each drives, how they absorb and join one
another, how they end; and what the end of a drain does to a position (R278, R342, R513). -/

namespace Sys2Proof.Machine

/-- Results of R522. -/
def RSt.ok : Nat := 0
def RSt.invalid : Nat := 1
def RSt.fenced : Nat := 2
def RSt.notFenced : Nat := 3
def RSt.factory : Nat := 4
def RSt.notTested : Nat := 5
def RSt.lodgerBusy : Nat := 6
def RSt.dead : Nat := 7
def RSt.notRunning : Nat := 8

/-- The key of a reset block's command: 0 to 575 a core's, 576 + d a die's, 580 the hub's. -/
def rstKey : RstUnit → Nat
  | .core c => c
  | .cluster d => 576 + d
  | .partition => 580

/-- A command in progress. -/
def Module.run (m : Module) (k : Nat) : Option RstRun := Tbl.get none m.rst k
/-- Replaces a command in progress. -/
def Module.setRun (m : Module) (k : Nat) (x : Option RstRun) : Module := { m with rst := Tbl.set none m.rst k x }

/-- BUSY, DONE, CMD_LOST, PENDING and RESULT of a reset block, and the unit that holds them. -/
def rstSts (k : Nat) : RegField × RegField × RegField × RegField × RegField × Nat :=
  if k < 576 then (F.RST_STS_BUSY, F.RST_STS_DONE, F.RST_STS_CMD_LOST, F.RST_STS_PENDING, F.RST_STS_RESULT, k)
  else if k < 580 then
    (F.RST_CL_STS_BUSY, F.RST_CL_STS_DONE, F.RST_CL_STS_CMD_LOST, F.RST_CL_STS_PENDING, F.RST_CL_STS_RESULT, k - 576)
  else (F.RST_PART_STS_BUSY, F.RST_PART_STS_DONE, F.RST_PART_STS_CMD_LOST, F.RST_PART_STS_PENDING, F.RST_PART_STS_RESULT, 4)

/-- The level of a command's reset (R519): 0 core, 1 cluster, 2 partition. -/
def rstLevel (k : Nat) : Nat := if k < 576 then 0 else if k < 580 then 1 else 2

/-- The positions that a command names. -/
def Module.rstCores (m : Module) (k unit : Nat) : List Nat :=
  if k < 576 then [k] else if k < 580 then (List.range 4).map fun p => clusterCore (36 * (k - 576) + unit) p else m.partCores unit

/-- A command ends with a result: DONE, event 8 for every command but a self-test, event 9 for a self-test that ran, and a RESET
record. -/
def Module.rstEnd (m : Module) (k op result unit : Nat) (ran : Bool := false) : Module :=
  let (busy, done, _, pend, res, u) := rstSts k
  let m := ((((m.setRun k none).wr busy u 0).wr done u 1).wr pend u 0).wr res u result
  let m := if op ≠ 5 then m.event 0 8 else if ran then m.event 0 9 else m
  let c := (m.rstCores k unit).headD 0
  if k < 576 then m.record (coreDie k) 8 .core k (op + result * 256 + m.code k * 65536) 0 0
  else if k < 580 then m.record (k - 576) 8 .core c (op + result * 256 + m.code c * 65536) 0 0
  else m.hubRecord 8 6 (op + result * 256) 0 0

/-! ### Joining and absorbing (R519) -/

/-- The command whose reset drives a position now. -/
def Module.owner (m : Module) (c : Nat) : Option (Nat × RstRun) :=
  m.rst.findSome? fun (k, x) => match x with
    | some r => if (r.phase == 1 || r.phase == 2) && r.cores.contains c then some (k, r) else none
    | none => none

/-- A command has nothing left to do of its own: it waits for the resets it joined, or for nothing. -/
def RstRun.rest (r : RstRun) : RstRun :=
  if (r.phase = 1 ∨ r.phase = 2) ∧ r.cores.isEmpty then { r with phase := 4 } else r

/-- A larger reset takes positions over from the resets in progress on them (R519): these drive the others alone, and wait for it, under
its key. A fence in progress keeps its position. They are under the larger reset
from now on, and the smaller one's drain is no longer what absorbs there (R69, R77). -/
def Module.absorbRuns (m : Module) (k : Nat) (take : List Nat) : Module :=
  let taken (c : Nat) : Bool := take.contains c && m.rst.any fun (j, x) => match x with
    | some (q : RstRun) => j != k && q.op == 1 && (q.phase == 1 || q.phase == 2) && q.cores.contains c
    | none => false
  { m with
    resetting := m.resetting.filter fun c => !taken c
    rst := m.rst.map fun ((j, x) : Nat × Option RstRun) => (j, x.map fun (q : RstRun) =>
    if j != k && q.op == 1 && q.cores.any take.contains && (q.phase = 1 ∨ q.phase = 2) then
      RstRun.rest { q with cores := q.cores.filter (fun c => !take.contains c), waits := q.waits ++ [k] }
    else q) }

/-- A reset has ended: the commands that waited for it wait no longer. -/
def Module.endWaits (m : Module) (k : Nat) : Module :=
  { m with rst := m.rst.map fun ((j, x) : Nat × Option RstRun) => (j, x.map fun (r : RstRun) => { r with waits := r.waits.filter (· != k) }) }

/-- Ends every command that waits for nothing any more. -/
def Module.finishRuns (m : Module) : Nat → Module
  | 0 => m
  | fuel + 1 =>
    match m.rst.find? fun (_, x) => match x with | some r => r.phase == 4 && r.waits.isEmpty | none => false with
    | some (k, some r) =>
      ((m.endWaits k).rstEnd k r.op RSt.ok r.unit).finishRuns fuel
    | _ => m

/-! ### The end of a drain -/

/-- Finishes the page steps of the bank operations that a core abandoned; their protection ends (R278). -/
def Module.endSteps (m : Module) (c : Nat) : Module :=
  (List.range 4).foldl (fun (m : Module) p =>
    let t := clusterCore (coreCluster c) p
    match (m.slice t).bop with
    | some b => if b.abandoned && b.issuer == c then (List.range 64).foldl (fun (m : Module) k => m.pageStep t k) m else m
    | none => m) m

/-- The requests that a core's interface had outstanding are forgotten: their answers will be discarded (R513); those not yet injected are
abandoned (R342). -/
def Module.dropAnswers (m : Module) (c : Nat) : Module :=
  { m with
    qos := { m.qos with held := m.qos.held.filter (fun (k, _) => k / 4 != c), starved := NSet.erase m.qos.starved c }
    fabOut := m.fabOut.map fun r => if r.src = c then { r with stale := true } else r
    net := { m.net with
      outst := m.net.outst.map fun o => if o.src = c then { o with stale := true } else o
      mw := m.net.mw.map fun w => if w.src = c then { w with stale := true } else w } }

/-- The drain of a position ends (R511 steps 4 and 5): unsent work is abandoned, and its bank protections end. -/
def Module.drainEnd (m : Module) (c : Nat) : Module := ((m.dropAnswers c).endSteps c).flushReads c

/-- The key under which a load or a STOP, whose step 4 is a reset at partition level (R69), stands among the resets. -/
def loadKey : Nat := 581

end Sys2Proof.Machine
end

