-- ==== Sys2Proof/Machine/Shake.lean ====
section
/-! DEFINITION. SHAKE256, which the manual names for the plat's digest, the staged image's and the measurements (R44, R583, R596) and does not
lay out: the sponge of FIPS 202 with a rate of 136 bytes (PRESUMED, log entry 107). The lanes of its state are 64-bit words, lane x + 5y. -/

namespace Sys2Proof.Machine

/-- A lane of a state. -/
def lane (a : List DWord) (i : Nat) : DWord := a.getD i 0

/-- Distances by which the lanes are rotated, by lane. -/
def keccakTurns : List Nat := [0, 1, 62, 28, 27, 36, 44, 6, 55, 20, 3, 10, 43, 25, 39, 41, 45, 15, 21, 8, 18, 2, 61, 56, 14]

/-- The constants of the 24 rounds. -/
def keccakRounds : List DWord :=
  [0x0000000000000001, 0x0000000000008082, 0x800000000000808A, 0x8000000080008000, 0x000000000000808B, 0x0000000080000001,
   0x8000000080008081, 0x8000000000008009, 0x000000000000008A, 0x0000000000000088, 0x0000000080008009, 0x000000008000000A]
  ++ [0x000000008000808B, 0x800000000000008B, 0x8000000000008089, 0x8000000000008003, 0x8000000000008002, 0x8000000000000080,
   0x000000000000800A, 0x800000008000000A, 0x8000000080008081, 0x8000000000008080, 0x0000000080000001, 0x8000000080008008]

/-- One round: column parities, rotation, the change of places, the rows' non-linear step, and the round's constant. -/
def keccakRound (a : List DWord) (k : DWord) : List DWord :=
  let c := (List.range 5).map fun x => lane a x ^^^ lane a (x + 5) ^^^ lane a (x + 10) ^^^ lane a (x + 15) ^^^ lane a (x + 20)
  let d := (List.range 5).map fun x => lane c ((x + 4) % 5) ^^^ (lane c ((x + 1) % 5)).rotateLeft 1
  let r := (List.range 25).map fun i => (lane a i ^^^ lane d (i % 5)).rotateLeft (keccakTurns.getD i 0)
  -- lane (x, y) comes from lane ((x + 3y) mod 5, x)
  let b := (List.range 25).map fun i => lane r ((i % 5 + 3 * (i / 5)) % 5 + 5 * (i % 5))
  let e := (List.range 25).map fun i =>
    lane b i ^^^ (~~~ (lane b ((i % 5 + 1) % 5 + i / 5 * 5)) &&& lane b ((i % 5 + 2) % 5 + i / 5 * 5))
  e.set 0 (lane e 0 ^^^ k)

/-- The permutation. -/
def keccak (a : List DWord) : List DWord := keccakRounds.foldl keccakRound a

/-- A little-endian lane from up to eight bytes. -/
def laneOf : List Byte → Nat
  | [] => 0
  | b :: t => b.toNat + 256 * laneOf t

/-- Takes whole blocks of 136 bytes into a state; `fuel` is at least their number. -/
def absorb : Nat → List DWord → List Byte → List DWord
  | 0, a, _ => a
  | fuel + 1, a, l =>
    if l.isEmpty then a
    else absorb fuel (keccak ((List.range 25).map fun i =>
      if i < 17 then lane a i ^^^ BitVec.ofNat 64 (laneOf ((l.drop (8 * i)).take 8)) else lane a i)) (l.drop 136)

/-- A message padded to whole blocks, with the suffix of SHAKE. -/
def shakePad (l : List Byte) : List Byte :=
  let z := 135 - l.length % 136
  l ++ (if z = 0 then [0x9F] else [0x1F] ++ List.replicate (z - 1) 0 ++ [0x80])

/-- The first n bytes, at most 136, of SHAKE256 of a message. -/
def shake256 (l : List Byte) (n : Nat) : List Byte :=
  let a := absorb (l.length / 136 + 1) (List.replicate 25 0) (shakePad l)
  (List.range n).map fun i => BitVec.ofNat 8 ((lane a (i / 8)).toNat / 256 ^ (i % 8))

end Sys2Proof.Machine
end

