-- ==== Sys2Proof/Machine/Plat.lean ====
section
/-! DEFINITION. The module loader (R68 to R87): its commands, the steps of a load, and the states of partitions. -/

namespace Sys2Proof.Machine

/-- A partition enters a state; a change is event 1 of the function that serves it (R395). -/
def Module.setPart (m : Module) (p st : Nat) : Module :=
  if m.partState p = st then m else (m.wr F.PLT_PART_STS_STATE 4 st p).event (m.rd F.PLT_PART_STS_FUNCTION 4 p) 1

/-- KIND and FUNCTION of a partition. -/
def Module.setPartKind (m : Module) (p kind fn : Nat) : Module :=
  (m.wr F.PLT_PART_STS_KIND 4 kind p).wr F.PLT_PART_STS_FUNCTION 4 fn p

/-- The messages of a position's station are discarded and counted (R355). -/
def Module.clearStation (m : Module) (c : Nat) : Module :=
  let x := m.station c
  (m.setStation c {}).bumpBy F.CTL_DROP_CNT_COUNT c (x.tx.length + x.late.length + x.rx0.length + x.rx1.length)

/-- Holds cores, clears their stations, and serves the reads that their bank operations kept waiting. -/
def Module.holdCores (m : Module) (l : List Nat) : Module :=
  let m := l.foldl (fun (m : Module) c => (m.holdCore c).clearStation c) m
  l.foldl (fun (m : Module) c => m.flushReads c) m

/-- Positions whose core reset begins or ends (R341). -/
def Module.setResetting (m : Module) (l : List Nat) (b : Bool) : Module :=
  { m with resetting := l.foldl (fun s c => NSet.put s c b) m.resetting }

/-- A partition becomes ABSENT (R78, R411): its queues are emptied and counted, and what it held is free. -/
def Module.removePart (m : Module) (p : Nat) : Module :=
  let e := m.part p
  let m := match e with
    | some e => (m.onQueues e.arqMap Module.discardArq).onQueues e.dpqMap Module.emptyDpq
    | none => m
  let q := m.plat
  let held (c : Nat) : Bool := match e with | some e => Nat.testBit e.clusters (coreCluster c) | none => false
  let m := { m with plat := { q with
    parts := q.parts.filter fun x => x.num != p
    progs := q.progs.filter fun x => !held x.core
    classMaps := q.classMaps.filter fun x => x.part != p
    routes := q.routes.filter fun x => x.part != p
    rules := q.rules.filter fun x => x.part != p
    memmap := q.memmap.filter fun x => x.part != p
    regions := q.regions.filter fun x => x.owner != p
    fares := q.fares.filter fun x => x.part != p
    pools := q.pools.filter fun x => x.part != p } }
  (m.setPart p PSt.absent).setPartKind p 0 0

/-! ### The image -/

/-- One byte of the image at a source. -/
def Module.imgByte (m : Module) (src o : Nat) : Byte :=
  match m.placeFar (src + o) with
  | some (j, f) => m.byte (farKey j f)
  | none => 0

/-- The image reader of a source. -/
def Module.img (m : Module) (src : Nat) : Img := fun o n => leNat ((List.range n).map fun i => m.imgByte src (o + i))

/-- The loader cannot read a word of the image whole (R68): it lies outside far memory, on a lost or unreachable device, or is
poisoned. -/
def Module.imgBad (m : Module) (src i : Nat) : Bool :=
  match m.placeFar (src + 64 * i) with
  | some (j, f) => m.farLost j || !m.hubReaches (farRouter j) || m.wordBad (farKey j f / 64)
  | none => true

/-- SOURCE over the first n bytes of the image (R68); a partition-scope image lies outside every other partition's map. -/
def Module.sourceErr (m : Module) (op part src n : Nat) : Option PlatErr :=
  let foreign (a : Nat) : Bool := op == 2 && m.plat.memmap.any fun r => r.part != part && spansMeet a 64 r.base r.len
  ((List.range ((n + 63) / 64)).find? fun i => m.imgBad src i || foreign (src + 64 * i)).map fun i => (Plt.source, 64 * i, 0)

/-- The loader's reads of the first n bytes count as the codes decide (R295, R296). -/
def Module.noteImage (m : Module) (src n : Nat) : Module :=
  (List.range ((n + 63) / 64)).foldl (fun (m : Module) i =>
    match m.placeFar (src + 64 * i) with
    | some (j, f) => m.noteWord (farKey j f / 64)
    | none => m) m

/-- The digest that the loader computes (R44): over the image with DIGEST taken as zero. -/
def Module.imgDigest (m : Module) (src len : Nat) : List Byte :=
  shake256 ((List.range len).map fun o => if 0x40 ≤ o ∧ o < 0x60 then 0 else m.imgByte src o) 32

/-- The DIGEST field. -/
def Module.imgDigestField (m : Module) (src : Nat) : List Byte := (List.range 32).map fun i => m.imgByte src (0x40 + i)

/-! ### Commands (R73, R74, R78) -/

/-- A plat command ends (R74, R85): DONE, its result and details, LAST_RESULT of a named partition, event 0 and a PLAT record; a
module-scope load that has not installed its plat returns to its stage. With any result, the end of a module-scope load decides whether
every die has 132 good cores (R507, R508). The resets that its step 4 absorbed complete with it (R519;
DESIGN CHOICE, log entry 82: a load's own reset ends when the load does). -/
def Module.pltEnd (m : Module) (result d1 d2 : Nat) (named : Option Nat) : Module :=
  let (step, id) := match m.load with | some l => (l.step, l.id) | none => (0, 0)
  let m := match m.load with
    | some l => if l.op = 1 then { m with met := m.metBuilt && !m.short }.flpNote m .other 0 else m
    | none => m
  let m := { m with load := none }
  let m := ((m.wr F.PLT_STS_BUSY 4 0).wr F.PLT_STS_DONE 4 1).wr F.PLT_STS_STEP 4 0
  let m := ((m.wr F.PLT_STS_RESULT 4 result).wr F.PLT_DETAIL_VALUE 4 d1).wr F.PLT_DETAIL2_VALUE 4 d2
  let m := match named with | some p => m.wr F.PLT_PART_STS_LAST_RESULT 4 result p | none => m
  ((((m.event 0 0).hubRecord 9 0 (step + result * 256 + named.getD 0 * 65536) id d1).evalReady).endWaits loadKey).finishRuns 600

/-- The partition that a command's result names. -/
def LoadRun.named (l : LoadRun) : Option Nat := if l.op = 1 then none else some l.part

/-- A load is rejected before step 4: nothing has changed (R69). -/
def Module.reject' (m : Module) (l : LoadRun) (e : PlatErr) : Module :=
  (if l.op = 1 then m.setStage l.stage else m).pltEnd e.1 e.2.1 e.2.2 l.named

/-- A load enters a step. -/
def Module.loadStep (m : Module) (l : LoadRun) (n : Nat) : Module := { (m.wr F.PLT_STS_STEP 4 n) with load := some { l with step := n } }

/-- A load begins: BUSY, then header and directory are read and checked (R69 step 1). -/
def Module.loadBegin (m : Module) (op part : Nat) : Module :=
  let src := m.rd F.PLT_SRC_LO_ADDR_LO 4 * 64 + m.rd F.PLT_SRC_HI_ADDR_HI 4 * 2 ^ 32
  let len := m.rd F.PLT_SRC_LEN_LEN 4
  let g := m.img src
  let l : LoadRun :=
    { op := op, part := part, step := 1, src := src, len := len, id := g 0x10 8, digest := m.imgDigestField src, stage := m.stage }
  let m := (m.wr F.PLT_STS_BUSY 4 1).loadStep l 1
  let m := (List.range 4).foldl (fun (m : Module) d => m.wr F.PLT_DIE_STS_FAULT d 0) m
  let m := if op = 1 then (m.setStage Stage.loading).evalReady else m
  match (match m.sourceErr op part src 0x60 with
    | some e => some e
    | none => match headerErr g op part len with
      | some e => some e
      | none => match m.sourceErr op part src (min len (dirEnd g)) with
        | some e => some e
        | none => match step1 g op part len with
          | .error e => some e
          | .ok _ => none) with
  | some e => m.reject' l e
  | none => (m.noteImage src (dirEnd g)).loadStep l 2

/-- A RUNNING partition begins its reset at partition level for a load or a STOP (R69 step 4, R511 steps 2 and 3): its cores are HELD, and
the smaller resets on them are absorbed (R519). -/
def Module.quiesce (m : Module) (p : Nat) : Module :=
  let cs := m.partCores p
  ((m.absorbRuns loadKey (cs.filter m.good)).holdCores cs).setPart p PSt.stopping

/-- A write of PLT_CMD (R73, R74, R78). Only the physical function and Ostler reach the loader, which accepts commands from stage
AWAIT_PLAT on (R501). -/
def Module.pltCmd (m : Module) (src op part : Nat) : Module :=
  if !privileged src || decide (m.stage < Stage.awaitPlat) then m
  else if m.rd F.PLT_STS_BUSY 4 = 1 then m.wr F.PLT_STS_CMD_LOST 4 1
  else if op = 0 then m
  else
    let st := m.partState part
    match op with
    | 1 => m.loadBegin 1 part
    | 2 => m.loadBegin 2 part
    | 3 =>
      if st ≠ PSt.running then m.pltEnd Plt.notFound part st (some part)
      else
        ((m.wr F.PLT_STS_BUSY 4 1).quiesce part).loadStep { op := 3, part := part, step := 4, src := 0, len := 0 } 4
    | 4 =>
      if st = PSt.stopped ∨ st = PSt.failed then (m.removePart part).pltEnd 0 0 0 (some part)
      else m.pltEnd Plt.notFound part st (some part)
    | _ => m.pltEnd Plt.badCommand op 0 none

/-- LOAD_MODULE_SCOPE (R69). -/
def execLoadModuleScope (req : Requester) (s : State) : Res := s.done (s.m.pltCmd req.toNat 1 0)
/-- LOAD_PARTITION_SCOPE (R69). -/
def execLoadPartitionScope (req : Requester) (part : PartId) (s : State) : Res := s.done (s.m.pltCmd req.toNat 2 part)
/-- PLT_STOP (R78). -/
def execPltStop (req : Requester) (part : PartId) (s : State) : Res := s.done (s.m.pltCmd req.toNat 3 part)
/-- PLT_REMOVE (R78). -/
def execPltRemove (req : Requester) (part : PartId) (s : State) : Res := s.done (s.m.pltCmd req.toNat 4 part)
/-- A reserved OP of PLT_CMD (R74): 5 to 7. -/
def execPltCmdReserved (req : Requester) (op : Fin 3) (part : PartId) (s : State) : Res := s.done (s.m.pltCmd req.toNat (5 + op) part)

/-! ### Steps 2 to 4 -/

/-- The checks have passed: target partitions are quiesced or enter LOADING (R69 step 4, R78); Ostler publishes the sums (R363). Every
RUNNING partition is a target of a module-scope load: one that the plat does not name shows STOPPING until step 4 ends, of which R78 gives
only the end (DESIGN CHOICE, log entry 82). A partition that was ABSENT has its entry in force from now on. -/
def Module.loadQuiesce (m : Module) (l : LoadRun) : Module :=
  let pl := l.plat
  let m := { ({ m with plat := pl }.publishSums) with plat := m.plat }
  let targets := if l.op = 1 then List.range 16 else [l.part]
  let named := pl.parts.filter fun e => targets.contains e.num
  let fresh := named.filter fun e => m.partState e.num == PSt.absent
  let m := { m with plat := { m.plat with parts := m.plat.parts ++ fresh } }
  let m := targets.foldl (fun (m : Module) p =>
    if m.partState p = PSt.running then m.quiesce p
    else if named.any fun e => e.num == p then m.setPart p PSt.loading
    else m) (fresh.foldl (fun (m : Module) e => m.setPartKind e.num e.kind e.fn) m)
  m.loadStep { l with fresh := fresh.map (·.num) } 4

/-- DIGEST_VERIFIED (R69 steps 2 and 3): the digest, against the DIGEST that step 1 read, and the section checks of R70. An image whose
DIGEST differs by now fails too (R87). -/
def execDigestVerified (s : State) : Res :=
  let m := s.m
  s.done (match m.load with
    | none => m
    | some l =>
      if l.step ≠ 2 then m
      else
        let g := m.img l.src
        match (match m.sourceErr l.op l.part l.src l.len with
          | some e => Except.error e
          | none =>
            if m.imgDigest l.src l.len ≠ l.digest ∨ m.imgDigestField l.src ≠ l.digest then Except.error (Plt.badDigest, 0, 0)
            else match step1 g l.op l.part l.len with
              | .error e => Except.error e
              | .ok secs =>
                match m.sectionsErr g l.op l.part secs with
                | some e => Except.error e
                | none => Except.ok (m.merged l.op l.part (readPlat g secs))) with
        | .error e => m.reject' l e
        | .ok pl => (m.noteImage l.src l.len).loadQuiesce { l with plat := pl })

/-- Partitions of a load: those in LOADING or STOPPING (R78). -/
def Module.targets (m : Module) : List Nat := (List.range 16).filter fun p => m.partState p == PSt.loading || m.partState p == PSt.stopping

/-- Dies with positions of some partitions. -/
def diesOf (l : List Nat) : List Nat := (List.range 4).filter fun d => l.any fun c => coreDie c == d

/-- QUIESCE_DONE (R69 step 4): a STOP completes; a load begins step 5, with the queues and partitions of R411 and R78. -/
def execQuiesceDone (s : State) : Res :=
  let m := s.m
  s.done (match m.load with
    | none => m
    | some l =>
      if l.step ≠ 4 then m
      else if l.op = 3 then
        (((m.partCores l.part).foldl (fun (m : Module) c => m.drainEnd c) m).setPart l.part PSt.stopped).pltEnd 0 0 0 (some l.part)
      else
        let old := ((List.range 16).filter fun p => m.partState p == PSt.stopping).flatMap m.partCores
        let m := old.foldl (fun (m : Module) c => m.drainEnd c) m
        let named := l.plat.parts.filter fun e => if l.op = 1 then true else e.num == l.part
        let gone := if l.op = 1 then (List.range 16).filter fun p => m.partState p != PSt.absent && !named.any fun e => e.num == p else []
        let m := gone.foldl (fun (m : Module) p => m.removePart p) m
        -- step 5 begins
        let m := named.foldl (fun (m : Module) e =>
          let before := (m.part e.num).getD e
          let emptied := if e.kind = 2 then before.dpqMap ||| e.dpqMap else before.dpqMap ^^^ (before.dpqMap &&& e.dpqMap)
          let m := (m.onQueues (before.arqMap ||| e.arqMap) Module.discardArq).onQueues emptied Module.emptyDpq
          (m.setPartKind e.num e.kind e.fn).setPart e.num PSt.loading) m
        let m := { m with plat := { m.plat with parts := l.plat.parts, progs := l.plat.progs } }
        let new := named.flatMap PartEntry.positions
        let m := (diesOf new).foldl (fun (m : Module) d => m.wr F.PLT_DIE_STS_WRITING d 1) m
        m.loadStep l 5)

/-! ### Steps 5 and 6 -/

/-- A configuration with what a plat gives a partition beside its entry: of a partition that a load takes from ABSENT to FAILED, which
keeps it (R78). -/
def Plat.withShare (q pl : Plat) (p : Nat) : Plat :=
  let held (c : Nat) : Bool := pl.parts.any fun e => e.num == p && Nat.testBit e.clusters (coreCluster c)
  { q with
    progs := q.progs ++ pl.progs.filter fun e => held e.core
    classMaps := q.classMaps ++ pl.classMaps.filter fun e => e.part == p
    routes := q.routes ++ pl.routes.filter fun e => e.part == p
    rules := q.rules ++ pl.rules.filter fun e => e.part == p
    memmap := q.memmap ++ pl.memmap.filter fun e => e.part == p
    regions := q.regions ++ pl.regions.filter fun e => e.owner == p
    fares := q.fares ++ pl.fares.filter fun e => e.part == p
    pools := q.pools ++ pl.pools.filter fun e => e.part == p }

/-- A load fails in step 4 or 5 (R75, R76): its partitions enter FAILED. From step 5 on the plat's configuration is in force,
and a changed DATUM_ROLE frees the Datum state (R458). -/
def Module.loadFail (m : Module) (l : LoadRun) (result detail : Nat) : Module :=
  let ts := m.targets
  let cs := ts.flatMap m.partCores
  let oldRole := m.plat.survey.role
  let m := m.holdCores cs
  let m := if l.step = 5 then { m with plat := l.plat }
    else { cs.foldl (fun (m : Module) c => m.drainEnd c) m with plat := l.fresh.foldl (fun q p => q.withShare l.plat p) m.plat }
  let m := (List.range 4).foldl (fun (m : Module) d => m.wr F.PLT_DIE_STS_WRITING d 0) m
  let m := ts.foldl (fun (m : Module) p => m.setPart p PSt.failed) m
  let m := if l.op = 1 then { m with surveyOk := false }.setStage (if m.platLoaded then Stage.notReady else Stage.awaitPlat) else m
  let m := if l.op = 1 ∧ m.plat.survey.role ≠ oldRole then (m.noSource.datMove DSt.free).reselect else m
  m.pltEnd result detail 0 l.named

/-- A fault fences a position during a load (R75): FLOORPLAN_CHANGED rejects it before step 4, and fails it where the position is a
target's, by the plat in force or by the new one. A STOP goes on: R75 speaks of "the load" (DESIGN CHOICE, log entry 82). -/
def Module.loadFloorplan (m : Module) (c : Nat) : Module :=
  match m.load with
  | none => m
  | some l =>
    if l.op = 3 then m
    else if l.step < 4 then m.reject' l (Plt.floorplanChanged, c, 0)
    else if m.loadAbsorbs c then m.loadFail l Plt.floorplanChanged c
    else m

/-- Zeroes a core's scratch and tile registers. -/
def Module.zeroScratch (m : Module) (c : Nat) : Module := m.clearKeys (scrKey c 0) (scrKey (c + 1) 0)

/-- The bytes of an initialised billet table (R212, R213). -/
def poolTable (e : PoolEntry) : List Byte :=
  leBytes 4 0x4C42_5442 ++ leBytes 4 e.count ++ leBytes 4 e.count ++ leBytes 4 0 ++ leBytes 1 e.tokens ++ leBytes 1 e.layout
    ++ leBytes 1 e.part ++ leBytes 1 0 ++ leBytes 4 0 ++ leBytes 40 0
    ++ ((List.range e.count).map fun b => leBytes 4 0 ++ leBytes 4 (if b + 1 = e.count then 0xFFFF_FFFF else b + 1)).flatten

/-- Initialises the tables of the pools that a load does not keep (R80, R82); the die whose station could not write one. -/
def Module.initTables (m : Module) (l : List PoolEntry) : Module × Option Nat :=
  l.foldl (fun (m, bad) e =>
    match bad with
    | some d => (m, some d)
    | none =>
      let t := poolTable e
      let (m', st) := m.writeSpan askNow (fun _ => false) (t.length / 4096 + 3) e.table t
      if st = St.ok then (m', none)
      else (m', some (match m.site e.table with | .ok (.slice c _) => coreDie c | .ok (.far j _) => j / 5 | _ => 0))) (m, none)

/-- What the end of a module-scope load sets beside its partitions (R82, R450, R507, R569). -/
def Module.moduleLoaded (m : Module) (l : LoadRun) (oldRole : Nat) : Module :=
  let m := { m with platLoaded := true, surveyOk := false }
  let m := (m.wr F.PLT_ID_LO_ID 4 (l.id % 2 ^ 32)).wr F.PLT_ID_HI_ID 4 (l.id / 2 ^ 32)
  let m := (m.observeStores m.plat.observe).restartSampler m.plat.observe
  (m.applyRole (m.plat.survey.role != oldRole)).setStage Stage.survey

/-- The hot spot of a core (R527). -/
def spotOf (c : Nat) : Nat := coreCluster c % 36 / 2

/-- The keep-warm duty is 0 at release on the hot spots of hearth partitions among those that enter RUNNING (R546). -/
def Module.coldStart (m : Module) (ts : List Nat) : Module :=
  ((m.plat.parts.filter fun p => p.kind == 2 && ts.contains p.num).flatMap PartEntry.positions).foldl
    (fun (m : Module) c => m.wr F.THM_SPOT_DUTY (coreDie c) 0 (spotOf c)) m

/-- LOAD_WRITE_DONE (R69 steps 5 and 6): a station failed, or scratch is zeroed, images and tables stand written, the plat is in force
and its programs run. Where a word of the image is poisoned or the image is altered, R76 and R85 do not say which die DETAIL names: the
model takes the die of the first program's core, or failing a program the first die of the targets (DESIGN CHOICE, log entry 82). -/
def execLoadWriteDone (failed : Option LogicDie) (s : State) : Res :=
  let m := s.m
  s.done (match m.load with
    | none => m
    | some l =>
      if l.step ≠ 5 then m
      else
        let ts := m.targets
        let cs := ts.flatMap m.partCores
        let progs := l.plat.progs.filter fun p => cs.contains p.core
        let words := (List.range ((l.len + 63) / 64)).any fun i => m.imgBad l.src i
        let firstDie := (diesOf (progs.map (·.core))).headD ((diesOf cs).headD 0)
        match failed with
        | some d => (m.wr F.PLT_DIE_STS_FAULT d 1).loadFail l Plt.writeFault d
        | none =>
          if words || m.imgDigest l.src l.len != l.digest || m.imgDigestField l.src != l.digest then
            (m.wr F.PLT_DIE_STS_FAULT firstDie 1).loadFail l Plt.writeFault firstDie
          else
            let images := progs.map fun p => (p.core, (List.range p.len).map fun i => m.imgByte l.src (p.off + i))
            let oldPools := m.plat.pools
            let oldRole := m.plat.survey.role
            let m := m.noteImage l.src l.len
            let m := (if l.op = 1 then progs.map (·.core) else cs).foldl (fun (m : Module) c => m.zeroScratch c) m
            let m := images.foldl (fun (m : Module) (c, b) => m.put (scrKey c 0) b) m
            let m := { m with plat := l.plat, platLoaded := m.platLoaded || l.op == 1 }
            let init := l.plat.pools.filter fun e => ts.contains e.part && !(e.keep && oldPools.any fun o => o.part == e.part)
            let (m, bad) := m.initTables init
            match bad with
            | some d => ({ m with platLoaded := s.m.platLoaded, plat := s.m.plat }.wr F.PLT_DIE_STS_FAULT d 1).loadFail l Plt.writeFault d
            | none =>
              let m := cs.foldl (fun (m : Module) c => m.setSlice c { m.slice c with slots := [] }) m
              let m := (List.range 4).foldl (fun (m : Module) d => m.wr F.PLT_DIE_STS_WRITING d 0) m
              let m := (progs.filter fun p => m.good p.core).foldl (fun (m : Module) p => m.release p.core) m
              let m := (ts.foldl (fun (m : Module) p => m.setPart p PSt.running) m).coldStart ts
              let m := if l.op = 1 then m.moduleLoaded l oldRole else m
              let ds : Tbl (List Byte) := if l.op = 1 then [(0, m.imgDigestField l.src)]
                else Tbl.set ([] : List Byte) m.platDigests (1 + l.part) (m.imgDigestField l.src)
              let m := { m with platDigests := ds }
              m.pltEnd 0 0 0 l.named)

end Sys2Proof.Machine
end

