-- ==== Sys2Proof/Machine/Ledger.lean ====
section
/-! DEFINITION. The Ledger (R589 to R593), the SPI NOR and its firmware slots (R580, R581), the update journal (R583, R590), boot
verification and the block exchange (R585 to R587). -/

namespace Sys2Proof.Machine

/-! ### Records (R589) -/

/-- One bit of CRC-32C, least significant bit first. -/
def crcBit (c : Nat) : Nat := if c % 2 = 1 then (c / 2) ^^^ 0x82F6_3B78 else c / 2
/-- One byte of CRC-32C. -/
def crcByte (c : Nat) (b : Byte) : Nat := crcBit (crcBit (crcBit (crcBit (crcBit (crcBit (crcBit (crcBit (c ^^^ b.toNat))))))))
/-- CRC-32C of a list of bytes. -/
def crc32c (l : List Byte) : Nat := l.foldl crcByte 0xFFFF_FFFF ^^^ 0xFFFF_FFFF

/-- The 16-byte header of a record with a CRC field. -/
def LedRec.header (r : LedRec) (crc : Nat) : List Byte :=
  leBytes 2 0x4C47 ++ leBytes 1 r.type ++ leBytes 1 0 ++ leBytes 2 r.payload.length ++ leBytes 2 r.key ++ leBytes 4 r.seq ++ leBytes 4 crc

/-- Bytes of a record, with its padding. -/
def LedRec.size (r : LedRec) : Nat := 16 + (r.payload.length + 15) / 16 * 16

/-- A record as the NOR holds it. -/
def LedRec.bytes (r : LedRec) : List Byte :=
  r.header (crc32c (r.header 0 ++ r.payload)) ++ r.payload ++ List.replicate (r.size - 16 - r.payload.length) 0

/-- Bytes that a bank's records take. -/
def bankBytes (l : List LedRec) : Nat := l.foldl (fun n r => n + r.size) 0

/-- The bytes of a bank (R580). -/
def bankSize : Nat := 262144

/-- How many records of a type are kept (R590): 0 for a single record. -/
def ledKeep : Nat → Nat
  | 1 => 256 | 6 => 1024 | 7 => 1024 | 8 => 64 | _ => 0

/-- Sequence number a is newer than b (R591). -/
def seqNewer (a b : Nat) : Bool := decide (0 < (BitVec.ofNat 32 a - BitVec.ofNat 32 b).toInt)

/-- Puts a record among records that are newest first. -/
def ledInsert (r : LedRec) : List LedRec → List LedRec
  | [] => [r]
  | x :: t => if seqNewer x.seq r.seq then x :: ledInsert r t else r :: x :: t

/-- Keeps the first record of each key. -/
def ledFirst : List LedRec → List Nat → List LedRec
  | [], _ => []
  | r :: t, seen => if seen.contains r.key then ledFirst t seen else r :: ledFirst t (r.key :: seen)

/-- The records of a bank that are read: those before the first that is not valid (R591). -/
def readable (bank : List LedRec) : List LedRec := bank.takeWhile (·.ok)

/-- The records of a type, newest first (R591): of each key the newest in either bank, and of a history type as many as it keeps. -/
def Ledger.records (l : Ledger) (type : Nat) : List LedRec :=
  let all := ledFirst (((readable l.a ++ readable l.b).filter fun r => r.type == type).foldl (fun acc r => ledInsert r acc) []) []
  if ledKeep type = 0 then all.take 1 else all.take (ledKeep type)

/-- The newest record of a type. -/
def Ledger.newest (l : Ledger) (type : Nat) : Option LedRec := (l.records type).head?

/-- The records of the current bank. -/
def Ledger.current (l : Ledger) : List LedRec := if l.bankB then l.b else l.a
/-- Replaces the records of the current bank. -/
def Ledger.setCurrent (l : Ledger) (x : List LedRec) : Ledger := if l.bankB then { l with b := x } else { l with a := x }
/-- Replaces the records of the other bank. -/
def Ledger.setOther (l : Ledger) (x : List LedRec) : Ledger := if l.bankB then { l with a := x } else { l with b := x }
/-- Free bytes of the current bank. -/
def Ledger.free (l : Ledger) : Nat := bankSize - bankBytes l.current

/-- The KEY of a new record: 0 for a single one, else the entry's index, in rotation. -/
def Ledger.nextKey (l : Ledger) (type : Nat) : Nat :=
  if ledKeep type = 0 then 0 else match l.newest type with | some r => (r.key + 1) % ledKeep type | none => 0

/-- Appends a record to the current bank, SEQ rising by 1 (R592); none where the bank cannot hold it. A write that fails leaves an invalid record
in its place (R591). -/
def Ledger.append (l : Ledger) (type : Nat) (payload : List Byte) (ok : Bool := true) : Option Ledger :=
  let r : LedRec := ⟨type, l.nextKey type, (l.seq + 1) % 2 ^ 32, payload, ok⟩
  if l.free < r.size then none else some { l.setCurrent (l.current ++ [r]) with seq := (l.seq + 1) % 2 ^ 32 }

/-- Appends a record at once; a record that does not fit, or whose write fails, sets LDG_STS.FAULT. -/
def Module.appendRec (m : Module) (type : Nat) (payload : List Byte) (ok : Bool := true) : Module :=
  match m.ledger.append type payload ok with
  | some l => let m := { m with ledger := l }; if ok then m else m.wr F.LDG_STS_FAULT 4 1
  | none => m.wr F.LDG_STS_FAULT 4 1

/-- The newest OWNER_LOCK record's value (R594). -/
def Ledger.lock (l : Ledger) : Bool := match l.newest 2 with | some r => leNat (r.payload.take 4) % 2 == 1 | none => false

/-- The lock in effect takes the value of the newest valid OWNER_LOCK record (R594). -/
def Module.takeLock (m : Module) : Module := { m with svc := { m.svc with lock := none, locked := m.ledger.lock } }

/-- At bring-up FWU_OWNER.LOCK is loaded from the Ledger, and takes effect (R594, R599). -/
def Module.loadLock (m : Module) : Module := m.takeLock.wr F.FWU_OWNER_LOCK 4 (if m.ledger.lock then 1 else 0)

/-- LEDGER_APPEND (R591 to R593): the oldest record that was issued becomes valid, or its write fails: an invalid record stands there and
LDG_STS.FAULT is set. -/
def execLedgerAppend (ok : Bool) (s : State) : Res :=
  let m := s.m
  s.done (match m.ledger.queue with
    | [] => m
    | (t, p) :: rest =>
      let m := { m with ledger := { m.ledger with queue := rest } }
      m.appendRec t p ok)

/-- LEDGER_COMPACT (R592): with less than 32 KiB free, the other bank is erased and compaction begins. -/
def execLedgerCompact (s : State) : Res :=
  let m := s.m
  let l := m.ledger
  s.done (if l.compacting ∨ 32768 ≤ l.free then m
    else { m with ledger := { l.setOther [] with compacting := true, mark := l.current.length } })

/-- LEDGER_COMPACTION_DONE (R592): the other bank holds the newest record of every single type and the kept records of every history
type, those appended meanwhile, and COMPACT_DONE; it becomes the current one. -/
def execLedgerCompactionDone (s : State) : Res :=
  let m := s.m
  let l := m.ledger
  s.done (if !l.compacting then m
    else
      let old := { l with a := l.current.take l.mark, b := [] }
      let kept := ([1, 2, 3, 4, 5, 6, 7, 8].map fun t => (old.records t).reverse).flatten
      let seq := (l.seq + 1) % 2 ^ 32
      let l' := l.setOther (kept ++ l.current.drop l.mark ++ [⟨9, 0, seq, [], true⟩])
      { m with ledger := { l' with bankB := !l.bankB, compacting := false, mark := 0, seq := seq } })

/-! ### Lifetime counters (R590) -/

/-- The LIFETIME payload. -/
def Life.payload (x : Life) : List Byte :=
  leBytes 4 (x.onNs / 3_600_000_000_000) ++ leBytes 4 x.cold ++ leBytes 4 x.warm ++ leBytes 4 x.trips ++ leBytes 4 x.exc
    ++ leBytes 4 x.updates ++ leBytes 4 x.rollbacks ++ leBytes 4 0

/-- The counters that a LIFETIME payload holds. -/
def Life.of (p : List Byte) : Life :=
  let n (i : Nat) : Nat := leNat ((p.drop (4 * i)).take 4)
  ⟨n 0 * 3_600_000_000_000, n 1, n 2, n 3, n 4, n 5, n 6⟩

/-- The lifetime counters as the Ledger holds them (R547, R551): of its newest LIFETIME record. -/
def Ledger.life (l : Ledger) : Life := match l.newest 4 with | some r => Life.of r.payload | none => {}

/-- Issues a LIFETIME record. -/
def Module.issueLife (m : Module) : Module := m.issueRec 4 m.life.payload

/-- LIFETIME_WRITE (R593). -/
def execLifetimeWrite (s : State) : Res := s.done s.m.issueLife

/-! ### The update journal (R583, R590) -/

/-- States of the staging slot. -/
def Slot.empty : Nat := 0
def Slot.receiving : Nat := 1
def Slot.staged : Nat := 2
def Slot.exchanging : Nat := 3
def Slot.previous : Nat := 4
def Slot.rejected : Nat := 5

/-- The UPDATE_JOURNAL payload. -/
def Journal.payload (j : Journal) : List Byte :=
  leBytes 1 j.state ++ leBytes 1 j.dir ++ leBytes 1 j.phase ++ leBytes 1 0 ++ leBytes 4 j.block ++ leBytes 4 j.bytes ++ leBytes 4 j.ver
    ++ leBytes 4 j.len ++ (List.range 64).map fun i => j.digest.getD i 0

/-- The slot's journal changes and is written to the Ledger before anything else happens. -/
def Module.journal (m : Module) (j : Journal) : Module := { m with jr := j }.appendRec 3 j.payload

/-- A module reset or a trip abandons a transfer (R583). -/
def Module.dropTransfer (m : Module) : Module := if m.jr.state = Slot.receiving then m.journal {} else m

/-! ### Images (R580, R581) -/

/-- NOR offsets of the active slot, the staging slot and the exchange block. -/
def Nor.active : Nat := 0
def Nor.staging : Nat := 0x0200_0000
def Nor.exchange : Nat := 0x0400_0000

/-- A byte of the NOR. -/
def Module.norByte (m : Module) (o : Nat) : Byte := Tbl.get 255 m.nor o
/-- A little-endian number in the NOR. -/
def Module.norNum (m : Module) (o n : Nat) : Nat := leNat ((List.range n).map fun i => m.norByte (o + i))
/-- Bytes of the NOR. -/
def Module.norBytes (m : Module) (o n : Nat) : List Byte := (List.range n).map fun i => m.norByte (o + i)

/-- Writes bytes to the NOR. -/
def norPut (t : Tbl Byte) : Nat → List Byte → Tbl Byte
  | _, [] => t
  | o, b :: l => norPut (Tbl.set 255 t o b) (o + 1) l

/-- Bytes of a block. -/
def norBlock : Nat := 65536

/-- A block is erased and written from another. -/
def norCopy (t : Tbl Byte) (dst src : Nat) : Tbl Byte :=
  let part := (t.filter fun (o, _) => decide (src ≤ o) && decide (o < src + norBlock)).map fun ((o, b) : Nat × Byte) => (o - src + dst, b)
  let rest := t.filter fun (o, _) => decide (o < dst) || decide (dst + norBlock ≤ o)
  part.foldl (fun (t : Tbl Byte) ((o, b) : Nat × Byte) => Tbl.put t o b) rest

/-- LENGTH of the image in a slot. -/
def Module.imgLength (m : Module) (slot : Nat) : Nat := m.norNum (slot + 0x08) 4
/-- FW_VERSION of the image in a slot. -/
def Module.imgVersion (m : Module) (slot : Nat) : Nat := m.norNum (slot + 0x0C) 4
/-- SEC_VERSION of the image in a slot. -/
def Module.imgSec (m : Module) (slot : Nat) : Nat := m.norNum (slot + 0x10) 2
/-- RAISE_FLOOR of the image in a slot. -/
def Module.imgRaise (m : Module) (slot : Nat) : Bool := m.norNum (slot + 6) 2 % 2 == 1

/-- LENGTH lies within R581. -/
def lengthOk (n : Nat) : Bool := decide (65536 ≤ n) && decide (n ≤ 33554432)

/-- MAGIC, FORMAT and LENGTH of a staged header are valid (R583). -/
def Module.imgBasic (m : Module) (slot : Nat) : Bool :=
  m.norNum slot 4 == 0x4D52_4946 && m.norNum (slot + 4) 2 == 1 && lengthOk (m.imgLength slot)

/-- The header rules of R581. -/
def Module.imgHeader (m : Module) (slot : Nat) : Bool :=
  m.imgBasic slot && m.norNum (slot + 6) 2 / 2 == 0 && decide (m.imgSec slot ≤ 64) && m.norNum (slot + 0x12) 14 == 0

/-- The verification of an image: 0 where it passes, else the OUTCOME of R590 that says why (2 header or signature, 3 floor). -/
def Module.imgVerify (m : Module) (slot : Nat) : Nat :=
  if !m.imgHeader slot then 2
  else if m.imgSec slot < m.fuses.floor then 3
  else if Config.sigVerify (m.norBytes slot (m.imgLength slot)) then 0 else 2

/-- Blocks that an exchange covers (R585): a slot whose header gives no length counts whole. -/
def Module.exchangeBlocks (m : Module) : Nat :=
  let len (slot : Nat) := if m.imgBasic slot then m.imgLength slot else 33554432
  (max (len Nor.active) (len Nor.staging) + norBlock - 1) / norBlock

/-! ### Boot (R585 to R587) -/

/-- Conditions of R584 beside the owner lock: the interlock, and the holdup energy (25 J, in 0.1 J), where it has been read. -/
def Svc.low (x : Svc) : Bool := match x.holdup with | some e => decide (e < 250) | none => false

/-- An exchange begins, forward (0) or back (1). -/
def Module.beginExchange (m : Module) (dir : Nat) : Module :=
  let m := m.journal { m.jr with state := Slot.exchanging, dir := dir, phase := 0, block := 0, blocks := m.exchangeBlocks }
  { m with boot := { m.boot with exch := 1 } }

/-- Every block of the journal's exchange has had its phase C. -/
def Journal.complete (j : Journal) : Bool := j.phase == 3 && decide (j.blocks ≤ j.block + 1)

/-- Writes an UPDATE_RESULT record for the active image. -/
def Module.updateResult (m : Module) (outcome : Nat) : Module :=
  m.issueRec 8 (leBytes 4 m.life.cold ++ leBytes 4 (m.imgVersion Nor.active) ++ leBytes 2 (m.imgSec Nor.active) ++ leBytes 1 outcome
    ++ leBytes 21 0)

/-- Recovery (R587): no image can be started. -/
def Module.recover (m : Module) : Module :=
  { ((m.wr F.SVC_STS_RECOVERY 4 1).updateResult 5) with fwOk := false }.evalReady

/-- The active image is started with an outcome; the next step of bring-up follows. -/
def Module.startImage (m : Module) (outcome : Nat) (exchanged : Bool) : Module :=
  let raise := if exchanged && m.imgRaise Nor.active then m.imgSec Nor.active else 0
  let m := { m with fwOk := true, boot := { m.boot with raise := raise, exch := 0, rejected := 0 } }
  ((m.wr F.SVC_STS_RECOVERY 4 0).updateResult outcome).setStage Stage.fuses

/-- Step 5 of R585 and its outcome by R587. -/
def Module.bootActive (m : Module) : Module :=
  let back := m.jr.dir == 1
  let ok := m.imgVerify Nor.active == 0
  if m.boot.exch = 2 then
    if !back then
      if ok then
        let m := m.journal { m.jr with state := Slot.previous, phase := 0, block := 0 }
        { m with life := { m.life with updates := m.life.updates + 1 } }.startImage 1 true
      else m.beginExchange 1
    else
      let m := m.journal { m.jr with state := Slot.rejected, phase := 0, block := 0 }
      if ok then m.startImage 4 true else m.recover
  else if ok then m.startImage m.boot.rejected false
  else if m.jr.state = Slot.previous ∧ m.imgVerify Nor.staging = 0 then m.beginExchange 1
  else m.recover

/-- BOOT_VERIFY (R585): Ostler's ROM resumes an exchange that the journal shows, or verifies a staged image and begins its exchange, or
goes on to the active image. EXCHANGE_PHASE performs an exchange; BOOT_VERIFY then goes on from it. -/
def execBootVerify (s : State) : Res :=
  let m := s.m
  s.done (if m.stage ≠ Stage.firmware ∨ m.boot.exch = 1 ∨ m.rd F.SVC_STS_RECOVERY 4 = 1 then m
    else if m.boot.exch = 0 ∧ m.jr.state = Slot.exchanging then
      let m := { m with boot := { m.boot with exch := if m.jr.complete then 2 else 1 } }
      if m.boot.exch = 2 then m.bootActive else m
    else if m.boot.exch = 0 ∧ m.jr.state = Slot.staged ∧ m.svc.open' = false ∧ m.svc.low = false ∧ m.svc.locked = false then
      let v := m.imgVerify Nor.staging
      if v = 0 then m.beginExchange 0
      else { (m.journal { m.jr with state := Slot.rejected }) with boot := { m.boot with rejected := v } }.bootActive
    else m.bootActive)

/-- EXCHANGE_PHASE (R586): the phase that follows the last one recorded is performed and journalled. A flash fault leaves the journal as
it is, and no image can be started in this boot. -/
def execExchangePhase (flashOk : Bool) (s : State) : Res :=
  let m := s.m
  let j := m.jr
  let i := if j.phase = 3 then j.block + 1 else j.block
  let ph := if j.phase = 3 then 1 else j.phase + 1
  let a := Nor.active + i * norBlock
  let b := Nor.staging + i * norBlock
  s.done (if m.stage ≠ Stage.firmware ∨ m.boot.exch ≠ 1 then m
    else if !flashOk then { m with boot := { m.boot with exch := 0 } }.recover
    else
      let nor := match ph with
        | 1 => norCopy m.nor Nor.exchange a
        | 2 => norCopy m.nor a b
        | _ => norCopy m.nor b Nor.exchange
      let m := { m with nor := nor }.journal { j with block := i, phase := ph }
      if m.jr.complete then { m with boot := { m.boot with exch := 2 } } else m)

end Sys2Proof.Machine
end

