-- ==== Sys2Proof/Machine/D2d.lean ====
section
/-! DEFINITION. Die-to-die links (R467 to R481, R493, R494, R496): lane marks, states, the stop of partitions behind a link that is
down, and the feature level. -/

namespace Sys2Proof.Machine

/-- States of a link (R493). -/
def D2d.down : Nat := 0
def D2d.train : Nat := 1
def D2d.full : Nat := 2
def D2d.narrow : Nat := 3
def D2d.test : Nat := 4
def D2d.retrain : Nat := 5
def D2d.disabled : Nat := 6

/-- The link of a station. -/
def stationLink (st : Nat) : Nat := if st ≥ 8 then st - 6 else if st % 2 = 1 then 2 + st / 2 else st / 4

/-- The die of a station. -/
def stationDie (st : Nat) : Nat := if st ≥ 8 then 4 else st / 2

/-- The state of a link; its stations agree. -/
def Module.d2dState (m : Module) (l : Nat) : Nat := m.rd F.DTD_STS_STATE ((linkStations l).headD 0)

/-! ### Lanes (R471, R472) -/

/-- Lanes of a group marked bad. -/
def Module.badLanes (m : Module) (st g : Nat) : Nat := Tbl.get 0 m.lanes (st * 80 + g)

/-- Lanes in a mask of ten. -/
def laneCount (mask : Nat) : Nat := ((List.range 10).filter (Nat.testBit mask)).length

/-- The code of a group (DTD_GRP): 0 intact, 1 spare in use, 2 lost. -/
def Module.groupCode (m : Module) (st g : Nat) : Nat := min 2 (laneCount (m.badLanes st g))

/-- DTD_GRPn of a station. -/
def Module.grpWord (m : Module) (st n : Nat) : Nat := (List.range 16).foldl (fun a i => a + m.groupCode st (16 * n + i) * 4 ^ i) 0

/-- SPARES_USED of a station. -/
def Module.sparesUsed (m : Module) (st : Nat) : Nat := ((List.range 80).filter fun g => m.groupCode st g == 1).length

/-- Marks lanes of a group bad: DTD_LASTFAIL holds the last one newly marked. -/
def Module.markLanes (m : Module) (st g mask : Nat) : Module :=
  (List.range 10).foldl (fun (m : Module) i =>
    if Nat.testBit mask i && !Nat.testBit (m.badLanes st g) i then
      let m := { m with lanes := Tbl.set 0 m.lanes (st * 80 + g) (m.badLanes st g + 2 ^ i) }
      ((m.wr F.DTD_LASTFAIL_GROUP st g).wr F.DTD_LASTFAIL_LANE st i).wr F.DTD_LASTFAIL_VALID st 1
    else m) m

/-- A half (0: groups 0 to 39, 1: groups 40 to 79) of a link has a lost group, in either direction. -/
def Module.halfLost (m : Module) (l h : Nat) : Bool :=
  (linkStations l).any fun st => (List.range 40).any fun i => m.groupCode st (40 * h + i) == 2

/-- The state that R472 gives, and the half in use where it is NARROW. -/
def Module.d2dOutcome (m : Module) (l : Nat) : Nat × Nat :=
  match m.halfLost l 0, m.halfLost l 1 with
  | false, false => (D2d.full, 0)
  | true, true => (D2d.down, 0)
  | a, _ => (D2d.narrow, if a then 1 else 0)

/-! ### States (R473) -/

/-- Data lanes of a direction of a link in a state (R468): the width of its LINK record. -/
def d2dWidth (st : Nat) : Nat := if st = D2d.full then 720 else if st = D2d.narrow then 360 else 0

/-- A link enters a state: both stations show it and record it, and the floor plan and readiness take note; a response under way over a link
that carries nothing any more is discarded, a request held there is answered LINK-DOWN (R337). -/
def Module.setD2d (m : Module) (l st : Nat) (half : Nat := 0) : Module :=
  let old := m.d2dState l
  if old = st then m
  else
    let carries := decide (D2d.full ≤ st) && decide (st ≤ D2d.retrain)
    let m := if carries then m else { m with net := { m.net with resp := m.net.resp.filter fun r => !(pathCross r.path).contains l } }.loseWaits l
    let m' := (linkStations l).foldl (fun (m : Module) s =>
      ((m.wr F.DTD_STS_STATE s st).wr F.DTD_STS_HALF s half).record (stationDie s) 0x0B .d2d l (old + 16 * st) (d2dWidth st) 0) m
    ({ m' with d2dTest := Tbl.set 0 m'.d2dTest l (if st = D2d.test then Tbl.get 0 m'.d2dTest l else 0) }).settle m .link l

/-- A link that fails to train does so again: in a cold bring-up, up to 3 attempts in all (R502). -/
def Module.trainsAgain (m : Module) (l : Nat) : Bool :=
  m.stage == Stage.localTests && !m.boot.fast && decide (Tbl.get 0 m.boot.attempts l < 2)

/-- A link goes down at the end of TRAIN (R473), and trains again where it may. -/
def Module.trainFails (m : Module) (l : Nat) : Module :=
  let m' := m.setD2d l D2d.down
  if m.trainsAgain l then { m' with boot := { m'.boot with attempts := Tbl.upd 0 m'.boot.attempts l (· + 1) } }.setD2d l D2d.train else m'

/-- A link enters the state that its lanes allow. -/
def Module.d2dSettle (m : Module) (l : Nat) : Module :=
  let (st, h) := m.d2dOutcome l
  if st = D2d.down ∧ m.d2dState l = D2d.train then m.trainFails l else m.setD2d l st h

/-- A link that runs enters RETRAIN; both stations count it. -/
def Module.d2dRetrain (m : Module) (l : Nat) : Module :=
  if m.d2dState l = D2d.full ∨ m.d2dState l = D2d.narrow then
    ((linkStations l).foldl (fun (m : Module) s => m.bump F.DTD_RETRAIN_CNT_COUNT s) m).setD2d l D2d.retrain
  else m

/-- LANE_PARITY_THRESHOLD (R471): a group whose spare is unused crosses the threshold at its receiving station; the link enters TEST for
it. -/
def execLaneParityThreshold (st : Fin 12) (group : Fin 80) (s : State) : Res :=
  let m := s.m
  let l := stationLink st
  s.done (if (m.d2dState l = D2d.full ∨ m.d2dState l = D2d.narrow) ∧ m.groupCode st group = 0 then
      let m := m.bump F.DTD_SWAP_CNT_COUNT st
      { m with d2dTest := Tbl.set 0 m.d2dTest l (1 + st.val * 80 + group.val) }.setD2d l D2d.test
    else m)

/-- LANE_TEST_DONE (R471, R473): the lanes of the group under test that failed are marked, and the link follows R472. -/
def execLaneTestDone (link : Fin 6) (bad : Fin 1024) (s : State) : Res :=
  let m := s.m
  let k := Tbl.get 0 m.d2dTest link
  s.done (if m.d2dState link = D2d.test ∧ k ≠ 0 then (m.markLanes ((k - 1) / 80) ((k - 1) % 80) bad).d2dSettle link else m)

/-- DTD_TRAIN_DONE (R473): the lanes not already marked have been tested in TRAIN or RETRAIN; those of the link that failed are marked,
and the link follows R472. -/
def execDtdTrainDone (link : Fin 6) (bad : List LaneId) (s : State) : Res :=
  let m := s.m
  s.done (if m.d2dState link = D2d.train ∨ m.d2dState link = D2d.retrain then
      (bad.foldl (fun (m : Module) b => if stationLink b.station = link then m.markLanes b.station b.group (2 ^ b.lane.val) else m)
        m).d2dSettle link
    else m)

/-- DTD_TRAIN_TIMEOUT (R473): TRAIN has not completed at 20 ms. -/
def execDtdTrainTimeout (link : Fin 6) (s : State) : Res :=
  s.done (if s.m.d2dState link = D2d.train then s.m.trainFails link else s.m)

/-- DTD_REPLAYS (R473): 8 consecutive flit replays at a station. -/
def execDtdReplays (st : Fin 12) (s : State) : Res := s.done ((s.m.bumpBy F.DTD_REPLAY_CNT_COUNT st 8).d2dRetrain (stationLink st))

/-- A write of DTD_CTL at a station (R473, R496): DISABLE first, then RETRAIN. A link leaves DISABLED when neither station sets it. -/
def Module.dtdCtlWrite (m : Module) (src st : Nat) (v : Word) : Module :=
  if !privileged src then m
  else
    let l := stationLink st
    let m := m.writePlain ⟨.DTD_CTL, st, 0⟩ v
    let off := (linkStations l).any fun s => m.rd F.DTD_CTL_DISABLE s == 1
    let m := if off then m.setD2d l D2d.disabled else if m.d2dState l = D2d.disabled then m.setD2d l D2d.down else m
    if F.DTD_CTL_RETRAIN.of v = 0 then m
    else if m.d2dState l = D2d.down then m.setD2d l D2d.train
    else m.d2dRetrain l

/-- DTD_RETRAIN (R473): a write of 1 to RETRAIN, DISABLE as it stands. -/
def execDtdRetrain (req : Requester) (st : Fin 12) (s : State) : Res :=
  s.done (s.m.dtdCtlWrite req.toNat st (BitVec.ofNat 32 (1 + 2 * s.m.rd F.DTD_CTL_DISABLE st)))
/-- DTD_DISABLE (R473): a write of DISABLE. -/
def execDtdDisable (req : Requester) (st : Fin 12) (on : Bool) (s : State) : Res :=
  s.done (s.m.dtdCtlWrite req.toNat st (if on then 2 else 0))

/-! ### When a link goes down (R476) -/

/-- A partition has a path over a link that no record with the link's COND covers (R476). -/
def Plat.affected (pl : Plat) (p l : Nat) : Bool :=
  let rs := pl.routes.filter fun r => r.part == p
  let paths := rs.flatMap pl.recordPaths ++ pl.defaultPaths p ++ (pl.rules.filter fun r => r.part == p).flatMap pl.rulePaths
  paths.any fun q =>
    let d := q.getLastD hubNode
    crosses l q && !rs.any fun r => r.cond == l + 1 && r.covers (q.headD 0) (if d = hubNode then none else some d)

/-- LINK_DOWN_PARTITION_STOP (R476): while a link is down and no plat command runs, Ostler stops the lowest-numbered affected RUNNING
partition and notes it in DTD_PSTOP. -/
def execLinkDownPartitionStop (link : Fin 6) (s : State) : Res :=
  let m := s.m
  s.done (if m.d2dState link ≠ D2d.down ∨ m.rd F.PLT_STS_BUSY 4 = 1 then m
    else
      match (List.range 16).find? fun p => m.partState p == PSt.running && m.plat.affected p link with
      | none => m
      | some p => ((m.pltCmd reqOstler 3 p).orBits F.DTD_PSTOP_PARTS 4 (2 ^ p)).wr F.DTD_PSTOP_LINK 4 link)

/-! ### The feature level (R479, R480) -/

/-- MAX_LEVEL of a die: as R480 gives it for its revision. -/
def Module.maxLevel (m : Module) (d : Nat) : Nat := if d = 4 then 1 else min 1 (Tbl.get 0 m.fuses.revs d)

/-- Negotiates the feature level: the smallest, and the lowest-numbered die that reports it. -/
def Module.negotiate (m : Module) : Module :=
  let lv := (List.range 5).foldl (fun a d => min a (m.maxLevel d)) 255
  let d := ((List.range 5).find? fun d => m.maxLevel d == lv).getD 0
  ((m.wr F.DTD_LEVEL_LEVEL 4 lv).wr F.DTD_LEVEL_VALID 4 1).wr F.DTD_LEVEL_DIE 4 d

end Sys2Proof.Machine
end

