-- ==== Sys2Proof/Machine/Reset.lean ====
section
/-! DEFINITION. Core, cluster and partition resets, fences and self-tests (R509 to R519, R522, R523, R601): the commands of the reset
blocks, how they meet one another and a plat load, and what each of their steps does. -/

namespace Sys2Proof.Machine

/-! ### Slices and codes -/

/-- A slice holds nothing that was written, and its cache no line; what its bytes then read as is `fill`. -/
def Module.emptySlice (m : Module) (c : Nat) (fill : Option Nat) : Module :=
  let m := m.clearKeys (nearKey c 0) (nearKey (c + 1) 0)
  m.setSlice c { m.slice c with pending := [], cache := [], plru := [], refreshWait := [], fill := some fill }

/-- The contents of a slice are lost (R253): free values stand there, with good codes (DESIGN CHOICE, log entry 89). -/
def Module.wipeSlice (m : Module) (c : Nat) : Module :=
  ({ m with freeCtr := m.freeCtr + 0x8000_0000 }).emptySlice c (some m.freeCtr)

/-- What waits at a slow path of a slice is delivered again. -/
def Module.dropSlow (m : Module) (c : Nat) : Module :=
  let u := 20 + coreDie c
  let (mine, rest) := (m.slowOf u).partition fun x => wordUnit x.word == c
  (m.setSlow u rest).deliverAll (mine.map (·.held)).flatten

/-- A position is fenced with a code: a slice that is not lent loses its contents; its held reads are answered anew. -/
def Module.fencePos (m : Module) (c code : Nat) (cause : FpCause) : Module :=
  let old := m.code c
  let m := m.setCode c code cause
  -- a fault of now forgets what passed; a fence of a position that had its fault already does not (R517)
  let m := if bitsAt code 2 1 = 1 ∧ bitsAt old 2 1 = 0 then { m with passed := Tbl.set 0 m.passed c 0 } else m
  if code % 4 = 2 then m else ((m.wipeSlice c).flushReads c).dropSlow c

/-- A fence of a position that is FENCED, LODGER or DEAD (R515): no step of R511 runs. -/
def Module.refence (m : Module) (c : Nat) (lend : Bool) : Module × Nat :=
  let code := m.code c
  let st := code % 4
  if st = 3 then (m, RSt.dead)
  else if st = (if lend then 2 else 1) then (m, RSt.ok)
  else if !lend then (m.fencePos c (code - st + 1) .fence, RSt.ok)
  else if code / 4 = 0 then ((m.setCode c 2 .fence).wipeSlice c, RSt.ok)
  else (m, RSt.fenced)

/-- An unfence of one position (R517). -/
def Module.unfencePos (m : Module) (c : Nat) : Module × Nat :=
  let code := m.code c
  let p := Tbl.get 0 m.passed c
  if code % 4 = 3 then (m, RSt.dead)
  else if code % 4 = 0 then (m, RSt.notFenced)
  else if bitsAt code 3 1 = 1 then (m, RSt.factory)
  else if bitsAt code 2 1 = 1 && !(bitsAt p 0 1 == 1 && (code % 4 == 2 || bitsAt p 1 1 == 1)) then (m, RSt.notTested)
  else (m.setCode c 0 .unfence, RSt.ok)

/-! ### Joining and absorbing (R519) -/

/-- Begins the reset of positions for a command (R511 steps 2 and 3, R519): positions under a reset of its own level or a larger one, or
under a fence, are left to it, smaller resets are absorbed; the others absorb packets from now on and their cores are held. -/
def Module.rstBegin (m : Module) (k : Nat) (r : RstRun) (cores : List Nat) : Module :=
  let take := cores.filter fun c => match m.owner c with | some (o, q) => decide (rstLevel o < rstLevel k) && q.op == 1 | none => true
  let join := (cores.filterMap fun c => if take.contains c then none else (m.owner c).map Prod.fst).eraseDups
  let m := (m.absorbRuns k take).setRun k (some (RstRun.rest { r with phase := 1, cores := take, waits := join }))
  ((m.setResetting take true).holdCores take).finishRuns 600

/-! ### Performing a command -/

/-- A load names a position (R75, R519): a module-scope load names every one. -/
def Module.loadNames (m : Module) (c : Nat) : Bool :=
  match m.load with
  | none => false
  | some l => l.op == 1 || (match m.partOf c with | some p => p.num == l.part | none => false)
      || (l.plat.parts.any fun e => e.num == l.part && Nat.testBit e.clusters (coreCluster c))

/-- A position's partition is LOADING or STOPPING (R75). -/
def Module.partBusy (m : Module) (p : Nat) : Bool := m.partState p == PSt.loading || m.partState p == PSt.stopping

/-- A self-test runs on a position. -/
def Module.testing (m : Module) (c : Nat) : Bool :=
  m.rst.any fun (_, x) => match x with | some r => r.phase == 3 && r.cores.contains c | none => false

/-- A command must wait (R75, R519): a reset while a load has its partition in LOADING or STOPPING; a fence, unfence or self-test also
while a load names a position or a position is under reset, and while a self-test of a position runs, which would else meet another code than
the one it began under (DESIGN CHOICE, log entry 105). -/
def Module.rstHeld (m : Module) (k op unit : Nat) : Bool :=
  if k = 580 then m.partBusy unit
  else (m.rstCores k unit).any fun c =>
    m.loadAbsorbs c
      || (op != 1 && (m.loadNames c || m.resetting.contains c || (m.owner c).isSome || m.testing c))

/-- A self-test of the positions that a command names (R518, R601). -/
def Module.testBegin (m : Module) (k : Nat) (r : RstRun) (cores : List Nat) : Module :=
  let tc := bitsAt r.bits 3 1 == 1
  let ts := bitsAt r.bits 4 1 == 1
  let fin (m : Module) (res : Nat) : Module := m.rstEnd k 5 res r.unit
  let st (c : Nat) : Nat := m.code c % 4
  let ns := cores.filter fun c => st c == 1 || st c == 2
  let run (l : List Nat) : Module :=
    if l.isEmpty then m.rstEnd k 5 RSt.ok r.unit true
    else (l.foldl (fun (m : Module) c => m.wr F.RST_STS_TEST c 1) m).setRun k (some { r with phase := 3, cores := l })
  if k < 576 then
    (if st k = 3 then fin m RSt.dead
    else if st k = 0 then fin m RSt.notFenced
    else if st k = 2 && ts then fin m RSt.lodgerBusy
    else run [k])
  else if ns.isEmpty then fin m RSt.notFenced
  else if ts && !tc && ns.all fun c => st c == 2 then fin m RSt.lodgerBusy
  else run (if tc || !ts then ns else ns.filter fun c => st c == 1)

/-- Performs a command that is not held (R511, R515, R517, R518, R519, R601). -/
def Module.rstPerform (m : Module) (k op bits unit : Nat) : Module :=
  let (_, _, _, pend, _, u) := rstSts k
  let m := m.wr pend u 0
  let cores := m.rstCores k unit
  let r : RstRun := { op := op, bits := bits, unit := unit, phase := 1 }
  let goods := cores.filter m.good
  match op with
  | 1 =>
    if k = 580 then
      (if m.partState unit ≠ PSt.running then m.rstEnd k op RSt.notRunning unit else m.rstBegin k r goods)
    else if goods.isEmpty then m.rstEnd k op RSt.fenced unit
    else m.rstBegin k r goods
  | 2 | 3 =>
    if cores.all m.dead then m.rstEnd k op RSt.dead unit
    else
      let (m, res) := (cores.filter fun c => !m.good c).foldl (fun (x : Module × Nat) c =>
        let (m', s) := x.1.refence c (op == 3); (m', if k < 576 then s else x.2)) (m, RSt.ok)
      if goods.isEmpty then m.rstEnd k op res unit else m.rstBegin k r goods
  | 4 =>
    let act := if k < 576 then cores else cores.filter fun c => m.code c % 4 == 1 || m.code c % 4 == 2
    if act.isEmpty then m.rstEnd k op RSt.notFenced unit
    else
      let (m, res) := act.foldl (fun (x : Module × Nat) c =>
        let (m', s) := x.1.unfencePos c; (m', if x.2 = RSt.ok then s else x.2)) (m, RSt.ok)
      m.rstEnd k op res unit
  | _ => m.testBegin k r cores

/-- A command is accepted (R511 step 1): BUSY is set, and it is performed or held. -/
def Module.rstAccept (m : Module) (k op bits unit : Nat) : Module :=
  let (busy, _, _, pend, _, u) := rstSts k
  let m := m.wr busy u 1
  if m.rstHeld k op unit then (m.wr pend u 1).setRun k (some { op := op, bits := bits, unit := unit, phase := 0 })
  else m.rstPerform k op bits unit

/-- The write of a command register by the physical function or Ostler (R519, R522, R523): a command meets BUSY and is lost, is INVALID
or is accepted; OP 0 is none. -/
def Module.rstCommand (m : Module) (src k op bits unit : Nat) (bad : Bool) : Module :=
  let (busy, _, lost, _, _, u) := rstSts k
  if !privileged src then m
  else if op = 0 ∧ !bad then m
  else if m.rd busy u = 1 then m.wr lost u 1
  else if bad then m.rstEnd k op RSt.invalid unit
  else m.rstAccept k op bits unit

/-- A write of RST_CMD of a core. -/
def Module.rstCmdWrite (m : Module) (src c : Nat) (v : Word) : Module :=
  let n := v.toNat
  let op := n % 8
  m.rstCommand src c op n c (n ≥ 64 || op ≥ 6 || (op != 5 && bitsAt n 3 3 != 0))

/-- A write of RST_CL_CMD of a die. -/
def Module.rstClCmdWrite (m : Module) (src d : Nat) (v : Word) : Module :=
  let n := v.toNat
  let op := n % 8
  let cl := bitsAt n 8 6
  let bad := decide (n ≥ 16384) || bitsAt n 5 3 != 0 || op == 3 || decide (op ≥ 6) || (op != 5 && bitsAt n 3 2 != 0) || decide (cl ≥ 36)
  let take := privileged src && m.rd F.RST_CL_STS_BUSY d == 0 && (op != 0 || bad)
  (if take then m.wr F.RST_CL_STS_CLUSTER d cl else m).rstCommand src (576 + d) op n cl bad

/-- A write of RST_PART_CMD. -/
def Module.rstPartCmdWrite (m : Module) (src : Nat) (v : Word) : Module :=
  let n := v.toNat
  let op := n % 4
  let p := bitsAt n 8 4
  let bad := decide (n ≥ 4096) || bitsAt n 2 6 != 0 || decide (op ≥ 2)
  let take := privileged src && m.rd F.RST_PART_STS_BUSY 4 == 0 && (op != 0 || bad)
  (if take then m.wr F.RST_PART_STS_PART 4 p else m).rstCommand src 580 op n p bad

/-- CORE_RESET (R511). -/
def execCoreReset (req : Requester) (c : CoreId) (s : State) : Res := s.done (s.m.rstCmdWrite req.toNat c 1)
/-- FENCE (R515). -/
def execFence (req : Requester) (c : CoreId) (s : State) : Res := s.done (s.m.rstCmdWrite req.toNat c 2)
/-- FENCE_LEND (R515). -/
def execFenceLend (req : Requester) (c : CoreId) (s : State) : Res := s.done (s.m.rstCmdWrite req.toNat c 3)
/-- UNFENCE (R517). -/
def execUnfence (req : Requester) (c : CoreId) (s : State) : Res := s.done (s.m.rstCmdWrite req.toNat c 4)
/-- SELFTEST (R518). -/
def execSelftest (req : Requester) (c : CoreId) (tCore tSlice lend : Bool) (s : State) : Res :=
  s.done (s.m.rstCmdWrite req.toNat c
    (BitVec.ofNat 32 (5 + (if tCore then 8 else 0) + (if tSlice then 16 else 0) + (if lend then 32 else 0))))
/-- RST_CMD_RESERVED (R522): any word written to RST_CMD. -/
def execRstCmdReserved (req : Requester) (c : CoreId) (value : Word) (s : State) : Res := s.done (s.m.rstCmdWrite req.toNat c value)
/-- CLUSTER_RESET (R601). -/
def execClusterReset (req : Requester) (d : LogicDie) (cluster : Fin 36) (s : State) : Res :=
  s.done (s.m.rstClCmdWrite req.toNat d (BitVec.ofNat 32 (1 + cluster.val * 256)))
/-- CLUSTER_FENCE (R601). -/
def execClusterFence (req : Requester) (d : LogicDie) (cluster : Fin 36) (s : State) : Res :=
  s.done (s.m.rstClCmdWrite req.toNat d (BitVec.ofNat 32 (2 + cluster.val * 256)))
/-- CLUSTER_UNFENCE (R601). -/
def execClusterUnfence (req : Requester) (d : LogicDie) (cluster : Fin 36) (s : State) : Res :=
  s.done (s.m.rstClCmdWrite req.toNat d (BitVec.ofNat 32 (4 + cluster.val * 256)))
/-- CLUSTER_SELFTEST (R601). -/
def execClusterSelftest (req : Requester) (d : LogicDie) (cluster : Fin 36) (tCore tSlice : Bool) (s : State) : Res :=
  s.done (s.m.rstClCmdWrite req.toNat d
    (BitVec.ofNat 32 (5 + (if tCore then 8 else 0) + (if tSlice then 16 else 0) + cluster.val * 256)))
/-- RST_CL_CMD_RESERVED (R522): any word written to RST_CL_CMD. -/
def execRstClCmdReserved (req : Requester) (d : LogicDie) (value : Word) (s : State) : Res :=
  s.done (s.m.rstClCmdWrite req.toNat d value)
/-- PARTITION_RESET (R511). -/
def execPartitionReset (req : Requester) (part : PartId) (s : State) : Res :=
  s.done (s.m.rstPartCmdWrite req.toNat (BitVec.ofNat 32 (1 + part.val * 256)))
/-- RST_PART_CMD_RESERVED (R522): any word written to RST_PART_CMD. -/
def execRstPartCmdReserved (req : Requester) (value : Word) (s : State) : Res := s.done (s.m.rstPartCmdWrite req.toNat value)

/-- HELD_COMMAND_RESUME (R519): a held command is performed once nothing holds it. -/
def execHeldCommandResume (u : RstUnit) (s : State) : Res :=
  let k := rstKey u
  s.done (match s.m.run k with
    | some r => if r.phase = 0 ∧ !s.m.rstHeld k r.op r.unit then s.m.rstPerform k r.op r.bits r.unit else s.m
    | none => s.m)

/-! ### Steps 4 to 7 -/

/-- RESET_DRAIN_DONE (R511 steps 4 and 5): unsent work is abandoned, bank protections end, and a fence changes the codes. -/
def execResetDrainDone (u : RstUnit) (s : State) : Res :=
  let m := s.m
  let k := rstKey u
  s.done (match m.run k with
    | none => m
    | some r =>
      if r.phase ≠ 1 then m
      else
        let m := r.cores.foldl (fun (m : Module) c => m.drainEnd c) m
        let m := if r.op = 1 then m
          else r.cores.foldl (fun (m : Module) c => m.fencePos c (if r.op = 3 then 2 else 1) .fence) m
        m.setRun k (some { r with phase := 2 }))

/-- A core is released where its partition runs it (R512). -/
def Module.mayRelease (m : Module) (c : Nat) : Bool :=
  m.good c && (m.prog c).isSome && (match m.partOf c with | some p => m.partState p.num == PSt.running | none => false)

/-- RESET_RELEASE (R511 steps 6 and 7): absorbing ends, cores are released at ENTRY (a fenced one stays HELD), and the command ends, with
those that had joined it. -/
def execResetRelease (u : RstUnit) (s : State) : Res :=
  let m := s.m
  let k := rstKey u
  s.done (match m.run k with
    | none => m
    | some r =>
      if r.phase ≠ 2 then m
      else
        let m := m.setResetting r.cores false
        let m := if r.op = 1 then (r.cores.filter m.mayRelease).foldl (fun (m : Module) c => m.release c) m else m
        (m.setRun k (some { r with phase := 4, cores := [] })).finishRuns 600)

/-! ### Self-test outcomes and forced fences -/

/-- The outcome of a position's self-test (R518). -/
def Module.testOutcome (m : Module) (c : Nat) (tc ts lend cf sf : Bool) : Module :=
  let code := m.code c
  let m := if ts then m.emptySlice c none else m
  let m := m.wr F.RST_STS_TEST c (2 + (if cf then 1 else 0) + (if sf then 2 else 0))
  if !cf && !sf then
    { m with passed := Tbl.upd 0 m.passed c fun p => p ||| (if tc then 1 else 0) ||| (if ts then 2 else 0) }
  else
    let fac := code / 8 * 8
    let new := if cf && !sf && lend && code % 4 == 1 then (if ts then 2 else 1) + 4 + fac else code % 4 + 4 + fac
    ({ m with passed := Tbl.set 0 m.passed c 0 }).setCode c new .selftest

/-- SELFTEST_DONE (R518): the tests of one position end; the command ends with its last position. -/
def execSelftestDone (c : CoreId) (coreFails sliceFails : Bool) (s : State) : Res :=
  let m := s.m
  let key := if (match m.run c with | some r => r.phase == 3 && r.cores.contains c.val | none => false) then c.val else 576 + coreDie c
  s.done (match m.run key with
    | none => m
    | some r =>
      if r.phase ≠ 3 ∨ !r.cores.contains c.val then m
      else
        let tc := bitsAt r.bits 3 1 == 1
        let ts := bitsAt r.bits 4 1 == 1 && m.code c % 4 == 1
        let m := m.testOutcome c tc ts (decide (key < 576) && bitsAt r.bits 5 1 == 1) (tc && coreFails) (ts && sliceFails)
        let left := r.cores.filter fun x => x != c.val
        if left.isEmpty then m.rstEnd key 5 RSt.ok r.unit true else m.setRun key (some { r with cores := left }))

/-- SEQ_SCR_UE of a position has risen by 16 or more within 1 s (R516). -/
def Module.ueRose (m : Module) (c : Nat) : Bool :=
  match (Tbl.get [] m.ueAt c)[15]? with
  | some t => decide (m.now < t + 1_000_000_000)
  | none => false

/-- FORCED_FENCE (R516, R519): SEQ_SCR_UE has risen by 16 within 1 s; the position is fenced at once with FAULT 1, any reset goes on
without it, a load that it touches is failed or rejected, and event 10 is set. -/
def execForcedFence (c : CoreId) (s : State) : Res :=
  let m := s.m
  s.done (if !m.good c ∨ m.ueRose c = false then m
    else
      let m := ((m.holdCores [c.val]).drainEnd c).fencePos c 5 .forced
      let m := m.setResetting [c.val] false
      let m := { m with rst := m.rst.map fun ((j, x) : Nat × Option RstRun) => (j, x.map fun (r : RstRun) =>
        if r.phase = 1 ∨ r.phase = 2 then RstRun.rest { r with cores := r.cores.filter (· != c.val) } else r) }
      (((m.finishRuns 600).loadFloorplan c).event 0 10))

/-- Partitions draining on a die now (RST_PDIE_STS): those whose cores drain under a reset, and those that a load quiesces. -/
def Module.drainingOn (m : Module) (d : Nat) : Nat :=
  let cs := m.rst.flatMap fun (_, x) => match x with | some r => if r.phase = 1 then r.cores else [] | none => []
  let quiet := match m.load with
    | some l => if l.step = 4 then ((List.range 16).filter fun p => m.partState p == PSt.stopping).flatMap m.partCores else []
    | none => []
  ((cs ++ quiet).filter fun c => coreDie c == d).foldl (fun a c =>
    match m.partOf c with | some p => a ||| 2 ^ p.num | none => a) 0

end Sys2Proof.Machine
end

