-- ==== Sys2Proof/Machine/Ucp.lean ====
section
/-! DEFINITION. The companion port (R482 to R488, R495, R496) up to its requests, and the test access port (R489 to R492). -/

namespace Sys2Proof.Machine

/-- States of the port (R495). -/
def Ucp.absent : Nat := 0
def Ucp.down : Nat := 1
def Ucp.train : Nat := 2
def Ucp.ident : Nat := 3
def Ucp.up : Nat := 4
def Ucp.disabled : Nat := 5

/-- The state of the port. -/
def Module.ucpState (m : Module) : Nat := m.rd F.UCP_STS_STATE 4

/-- What the port's leaving UP does (R486, R487): the module's requests to the companion, and answers of it that have not reached their requesters,
become ABSENT; the responses to the companion's requests are discarded; ADMIT is no longer held; and the posted packets of the replay buffer
are counted. Nothing is left on the link. -/
def Module.leaveUp (m : Module) : Module :=
  let lost := ((List.range 8).flatMap (m.link ucpPort 0).lostOf).filter FabMsg.posted
  let m := (m.bumpBy F.UCP_LOST_CNT_COUNT 4 lost.length).setLink ucpPort 0 {}
  let absent (r : Resp) : Resp := if r.target = 596 then { r with status := St.absent, data := [], poison := [] } else r
  let gone (e : CompReq) : CompReq := if e.ans.isSome then e else { e with ans := some (St.absent, [], []) }
  let net := { m.net with
    resp := (m.net.resp.filter fun r => r.src != reqCompanion).map absent
    outst := m.net.outst.filter fun o => o.src != reqCompanion }
  let m := { (m.wr F.UCP_CAP_ADMIT 4 0) with net := net, compEng := m.compEng.map gone }
  m.compOut.foldl (fun (m : Module) h => m.answer h St.absent) { m with compOut := [] }

/-- The port enters a state; a state without a link shows no modules and no rate. -/
def Module.setUcp (m : Module) (st : Nat) : Module :=
  let old := m.ucpState
  if old = st then m
  else
    let m := if old = Ucp.up then m.leaveUp else m
    let m := m.wr F.UCP_STS_STATE 4 st
    if st = Ucp.ident ∨ st = Ucp.up then m
    else ((m.wr F.UCP_STS_MODULES 4 0).wr F.UCP_STS_X8 4 0).wr F.UCP_STS_RATE 4 0

/-- UCP_TRAIN_START (R485): bring-up, or 1 s after DOWN. -/
def execUcpTrainStart (s : State) : Res := s.done (if s.m.ucpState = Ucp.down then s.m.setUcp Ucp.train else s.m)

/-- UCP_TRAIN_DONE (R482, R485): the link is up on module 0, module 1 or both, at a rate that the feature level allows; the module
sends its own IDENT (R484). -/
def execUcpTrainDone (modules : Fin 3) (x8 : Bool) (rate : Fin 6) (s : State) : Res :=
  let m := s.m
  s.done (if m.ucpState ≠ Ucp.train ∨ (rate.val ≥ 4 ∧ m.rd F.DTD_LEVEL_LEVEL 4 = 0) then m
    else
      let m := (m.setUcp Ucp.ident).setLink ucpPort 0 {}
      let m := ((m.wr F.UCP_STS_MODULES 4 (modules + 1)).wr F.UCP_STS_X8 4 (if x8 then 1 else 0)).wr F.UCP_STS_RATE 4 (rate + 1)
      m.sendLink ucpPort 0 (identBytes Config.vendorId.toNat 0x0940 (Tbl.get 0 m.fuses.revs 4) 48 0 3))

/-- UCP_TRAIN_TIMEOUT (R485): no link at 100 ms. -/
def execUcpTrainTimeout (s : State) : Res := s.done (if s.m.ucpState = Ucp.train then s.m.setUcp Ucp.down else s.m)

/-- The port's payload rate in units of 100 MB/s (R482): active lanes times GT/s. -/
def Module.ucpRate (m : Module) : Nat :=
  let mods := if m.rd F.UCP_STS_MODULES 4 = 3 then 2 else 1
  let lanes := mods * (if m.rd F.UCP_STS_X8 4 = 1 then 8 else 16)
  lanes * (match m.rd F.UCP_STS_RATE 4 with | 1 => 4 | 2 => 8 | 3 => 12 | 4 => 16 | 5 => 24 | 6 => 32 | _ => 0)

/-- IDENT (R484 to R486): a valid one takes the port to UP with the companion's identity and capacity, an invalid one to DOWN with
IDENT_ERR; outside the IDENT state it changes nothing. -/
def execIdent (vendor product : BitVec 16) (revision windowLog2 : Byte) (capacity : BitVec 16) (flags : Byte) (s : State) : Res :=
  let m := s.m
  let w := windowLog2.toNat
  s.done (if m.ucpState ≠ Ucp.ident then m
    else if w < 20 ∨ 40 < w ∨ capacity = 0 ∨ flags.toNat ≥ 4 then (m.wr F.UCP_STS_IDENT_ERR 4 1).setUcp Ucp.down
    else
      let m := (m.wr F.UCP_ID_VENDOR 4 vendor.toNat).wr F.UCP_ID_PRODUCT 4 product.toNat
      let m := (m.wr F.UCP_CAP_REVISION 4 revision.toNat).wr F.UCP_CAP_WINDOW_LOG2 4 w
      let m := (m.wr F.UCP_CAP_ATOMICS 4 (flags.toNat % 2)).wr F.UCP_CAP_REQUESTS 4 (flags.toNat / 2 % 2)
      (m.wr F.UCP_CAP_ADMIT 4 (min capacity.toNat m.ucpRate)).setUcp Ucp.up)

/-- IDENT_TIMEOUT (R485): no IDENT within 10 ms. -/
def execIdentTimeout (s : State) : Res :=
  s.done (if s.m.ucpState = Ucp.ident then (s.m.wr F.UCP_STS_IDENT_ERR 4 1).setUcp Ucp.down else s.m)

/-- UCP_DOWN (R483, R485, R487): 8 consecutive replays, or the UCIe link down on every module. -/
def execUcpDown (replays : Bool) (s : State) : Res :=
  s.done (if s.m.ucpState = Ucp.up ∧ (!replays ∨ (s.m.link ucpPort 0).run = 8) then s.m.setUcp Ucp.down else s.m)

/-- A write of UCP_CTL (R485, R496): DISABLE first, then RETRAIN. -/
def Module.ucpCtlWrite (m : Module) (src : Nat) (v : Word) : Module :=
  if !privileged src then m
  else
    let m := m.writePlain ⟨.UCP_CTL, 4, 0⟩ v
    let st := m.ucpState
    let m := if st = Ucp.absent then m
      else if F.UCP_CTL_DISABLE.of v = 1 then m.setUcp Ucp.disabled
      else if st = Ucp.disabled then m.setUcp Ucp.down else m
    if F.UCP_CTL_RETRAIN.of v = 1 ∧ (m.ucpState = Ucp.down ∨ m.ucpState = Ucp.up) then m.setUcp Ucp.train else m

/-- UCP_RETRAIN (R485): a write of 1 to RETRAIN, DISABLE as it stands. -/
def execUcpRetrain (req : Requester) (s : State) : Res :=
  s.done (s.m.ucpCtlWrite req.toNat (BitVec.ofNat 32 (1 + 2 * s.m.rd F.UCP_CTL_DISABLE 4)))
/-- UCP_DISABLE (R485): a write of DISABLE. -/
def execUcpDisable (req : Requester) (on : Bool) (s : State) : Res := s.done (s.m.ucpCtlWrite req.toNat (if on then 2 else 0))

/-! ### Test access (R489 to R492) -/

/-- The dies in the order of the chain, from TDI to TDO (R489). -/
def tapChain : List Nat := [4, 0, 1, 2, 3]

/-- A scan of the one chain of five dies (R489): 40 bits shift through its instruction register, in which every die had captured 0b01 and the lock
state, set in every shipped module, and which leaves the code in one die and BYPASS in the others (DESIGN CHOICE, log entry 116); then its
data registers: what the die's instruction selects, and one bit of each die in BYPASS. The die nearest TDO comes out first. -/
def Module.tap (m : Module) (d code dr : Nat) : Module :=
  let ir := tapChain.foldl (fun t e => Tbl.set 1 t e (if e = d then code else 0xFF)) m.tapIr
  let drs := tapChain.foldl (fun t e => Tbl.set 0 t e (if e = d then dr else 0)) m.tapDr
  { m with tapIr := ir, tapDr := drs }.emit (.tdo 0x05_05_05_05_05 (dr * 2 ^ (if d = 4 then 4 else 3 - d)))

/-- IDCODE of a die (R492). -/
def Module.idcode (m : Module) (d : Nat) : Nat :=
  Tbl.get 0 m.fuses.revs d % 16 * 2 ^ 28 + (0x9400 + d) * 2 ^ 12 + Config.jedecId.toNat * 2 + 1

/-- IDCODE (R492). -/
def execIdcode (d : DieId) (s : State) : Res := s.done (s.m.tap d 0x01 (s.m.idcode d))
/-- SAMPLE (R490): captures pin states, which the manual does not list; a free value. -/
def execSample (d : DieId) (s : State) : Res := s.done (let (m, w) := s.m.freshWord; m.tap d 0x02 w.toNat)
/-- PRELOAD under the lock: BYPASS, whose data register captures 0. -/
def execPreload (d : DieId) (s : State) : Res := s.done (s.m.tap d 0x03 0)
/-- EXTEST under the lock: BYPASS. -/
def execExtest (d : DieId) (s : State) : Res := s.done (s.m.tap d 0x04 0)
/-- CLAMP under the lock: BYPASS. -/
def execClamp (d : DieId) (s : State) : Res := s.done (s.m.tap d 0x05 0)
/-- HIGHZ under the lock: BYPASS. -/
def execHighz (d : DieId) (s : State) : Res := s.done (s.m.tap d 0x06 0)
/-- IJTAG_RO (R490): the read-only instruments, whose network the manual does not lay out; a free value. -/
def execIjtagRo (d : DieId) (s : State) : Res := s.done (let (m, w) := s.m.freshWord; m.tap d 0x10 w.toNat)
/-- IJTAG under the lock: BYPASS. -/
def execIjtag (d : DieId) (s : State) : Res := s.done (s.m.tap d 0x11 0)
/-- BYPASS, and every reserved code (R490). -/
def execBypass (d : DieId) (code : Byte) (s : State) : Res := s.done (s.m.tap d code.toNat 0)

end Sys2Proof.Machine
end

