-- ==== Sys2Proof/Machine/Bringup.lean ====
section
/-! DEFINITION. Bring-up, cold and fast (R501 to R506, R524), the floor plan that it builds (R503), module reset (R509, R510, R514) and
loss of power. -/

namespace Sys2Proof.Machine

/-! ### What survives (R504, R506, R509, R514) -/

/-- A byte key lies in far memory. -/
def isFarKey (k : Nat) : Bool := decide (farKey 0 0 ≤ k)

/-- The codes that the fuse map gives positions (R503, R523): fenced, lent or dead with FACTORY. -/
def Fuses.factory (f : Fuses) : Tbl Nat := f.codes.filterMap fun (c, x) => if x % 4 = 0 then none else some (c, x % 4 + 8)

/-- The module with everything lost that a module reset does not keep. The service side and the NOR stand on the standby supply; the
codes are the fused ones (R523), what the floor of R582 may rise to is what the running image gave, and the lifetime counters and the owner lock
are those of the Ledger (R547, R551, R594); far memory, the retained store, spares and lane marks are kept where the caller lets them. -/
def Module.kept (m : Module) (far store : Bool) : Module :=
  let x : Module := {
    fuses := m.fuses, codes := m.fuses.factory, boot := { raise := m.boot.raise },
    ledger := { m.ledger with queue := [], compacting := false, mark := 0 }, nor := m.nor, jr := m.jr, life := m.ledger.life,
    svc := { m.svc with eid := 0, att := none, report := none },
    spares := m.spares, sparesTemp := m.sparesTemp, tapIr := m.tapIr, tapDr := m.tapDr, lockLost := m.lockLost, now := m.now,
    freeCtr := m.freeCtr + 576 * 0x8000_0000, outbox := m.outbox, fwOk := m.fwOk,
    lanes := if store then m.lanes else [], ret := if store then m.ret else {},
    mem := if far then m.mem.filter fun (k, _) => isFarKey k else [],
    poison := if far then m.poison.filter fun w => isFarKey (w * 64) else [],
    wordErr := if far then m.wordErr.filter fun (x, _) => isFarKey (x / 72 * 64) else [],
    ckErr := if far then m.ckErr.filter fun (x, _) => isFarKey (x / 72 * 4096) else [],
    ckOff := if far then m.ckOff.filter fun (x, _) => isFarKey (x / 64 * 4096) else [],
    nearLost := (List.range 4).map fun d => (d, 1 + m.freeCtr) }
  x.loadLock

/-- A bring-up begins at a stage; Ostler loads the owner lock and the lifetime counters. -/
def Module.begin' (m : Module) (stage : Nat) : Module :=
  (({ m with bringAt := m.now, life := m.ledger.life }.loadLock).setStage stage).evalReady

/-! ### Starting units -/

/-- Lock has returned in every domain: the PLLs are locked at bring-up. -/
def Module.lockAll (m : Module) : Module := { m with lockLost := [] }

/-- The dies leave reset: every die-to-die link that is DOWN trains (R473), the dies' Datum receivers track the hub (R454), and a fitted
companion port that was ABSENT waits DOWN (R485). -/
def Module.startDies (m : Module) : Module :=
  let m := (List.range 6).foldl (fun (m : Module) l => if m.d2dState l = D2d.down then m.setD2d l D2d.train else m) m.lockAll
  let m := (List.range 4).foldl (fun (m : Module) d => m.wr F.DAT_DSTS_TRACK d 1) m
  if m.fuses.comp ∧ m.ucpState = Ucp.absent then m.setUcp Ucp.down else m

/-- POWER_GOOD (R501 step 1): Ostler starts from its ROM. -/
def execPowerGood (s : State) : Res :=
  let m := s.m
  s.done (if m.stage ≠ 0 ∨ m.svc.trip.isSome then m else { m with fwOk := false }.begin' Stage.firmware)

/-- FUSES_READ (R501 steps 3 and 4): the fuses are read, the PLLs lock, the local machines start on every logic die, no lane is marked,
and a spare row whose fuse could not be programmed has reverted (R304). -/
def execFusesRead (s : State) : Res :=
  let m := s.m
  s.done (if m.stage ≠ Stage.fuses ∨ m.boot.fast then m
    else
      let m := { m with lanes := [], spares := m.sparesTemp.foldl (fun (t : Tbl Nat) ((k, n) : Nat × Nat) =>
        Tbl.upd 0 t k (· - n)) m.spares, sparesTemp := [] }
      ((List.range 4).foldl (fun (m : Module) d => m.wr F.BRG_LOCAL_STS_MACHINES d 0x555) m.startDies).setStage Stage.localTests)

/-! ### Local machines (R502) -/

/-- Code of a machine in BRG_LOCAL_STS: 0 idle, 1 running, 2 done, 3 done with failures. -/
def Module.machine (m : Module) (d k : Nat) : Nat := m.rd F.BRG_LOCAL_STS_MACHINES d / 4 ^ k % 4

/-- The slices of a die are cleared: every byte reads 0, with good codes (R502). -/
def Module.clearSlices (m : Module) (d : Nat) : Module :=
  let m := (List.range 144).foldl (fun (m : Module) i =>
    let x := m.slice (144 * d + i)
    if x.fill.isNone then m else m.setSlice (144 * d + i) { x with fill := none }) m
  { m.clearKeys (nearKey (144 * d) 0) (nearKey (144 * d + 144) 0) with nearLost := Tbl.set 0 m.nearLost d 0 }

/-- The bank units clear every live slice of the retained plan (R505, R506); what the others hold stays lost. -/
def Module.clearLive (m : Module) : Module :=
  let m' := (List.range 4).foldl Module.clearSlices m
  ((List.range 576).filter fun c => Tbl.get 0 m.ret.codes c % 2 == 1).foldl Module.wipeSlice m'

/-- LOCAL_MACHINE_DONE (R502, R503): the machine of a die ends; `failed` are the positions of the die, or its far devices, whose machine
ended with a failure. Slices, scratch and far devices are left cleared. -/
def execLocalMachineDone (d : LogicDie) (machine : Fin 6) (failed : List Nat) (s : State) : Res :=
  let m := s.m
  let k := machine.val
  let note (bit : Nat) (m : Module) : Module :=
    { m with boot := { m.boot with bist := failed.foldl (fun (t : Tbl Nat) i =>
      if i < 144 then Tbl.upd 0 t (144 * d.val + i) (· ||| bit) else t) m.boot.bist } }
  s.done (if m.stage ≠ Stage.localTests ∨ m.machine d k ≠ 1 then m
    else
      let m := match k with
        | 0 => note 4 (m.clearSlices d)
        | 1 => (m.clearKeys (scrKey (144 * d) 0) (scrKey (144 * d + 144) 0)) |> note 2
        | 2 => note 1 m
        | 3 =>
          let m := m.clearKeys (farKey (5 * d) 0) (farKey (5 * d + 5) 0)
          { m with boot := { m.boot with farFail := failed.foldl (fun t i => if i < 5 then NSet.insert t (5 * d.val + i) else t) m.boot.farFail } }
        | _ => m
      let w := m.rd F.BRG_LOCAL_STS_MACHINES d
      m.wr F.BRG_LOCAL_STS_MACHINES d (w - 4 ^ k + 4 ^ k * (if failed.isEmpty then 2 else 3)))

/-! ### The floor plan (R503) -/

/-- The code of a position after its tests. -/
def Module.builtCode (m : Module) (c : Nat) : Nat :=
  let f := Tbl.get 0 m.fuses.codes c
  let b := Tbl.get 0 m.boot.bist c
  if f % 4 = 3 then 3 + 8
  else if bitsAt b 0 1 = 1 then 3 + 4
  else if f % 4 ≠ 0 then f % 4 + 8
  else if bitsAt b 1 1 = 1 ∧ bitsAt b 2 1 = 0 then 2 + 4
  else if bitsAt b 2 1 = 1 then 1 + 4
  else 0

/-- The record is published, cold or warm, the feature level negotiated (R479), and AWAIT_PLAT entered; there the floor of R582 rises, and
the lifetime counters are written (R593). -/
def Module.publish (m : Module) (codes : Tbl Nat) (warm : Bool) : Module :=
  let m := { m with codes := codes, boot := { m.boot with fast := false, step := 0, bist := [], farFail := [] } }.setStage Stage.floorplan
  let ok := !m.short
  let m := { m with met := ok, metBuilt := ok, flp := { m.flp with warm := warm, valid := true } }.negotiate
  let m := m.flpBump .bringup 0xFFFF 0 0 0
  let m := if warm then m else m.issueRec 5 m.flpRecord
  let m := (m.setStage Stage.awaitPlat).wr F.BRG_MOD_STS_WARM 4 (if warm then 1 else 0)
  let m := { m with
    fuses := { m.fuses with floor := max m.fuses.floor m.boot.raise }
    boot := { m.boot with raise := 0 }
    life := if warm then { m.life with warm := m.life.warm + 1 } else { m.life with cold := m.life.cold + 1 } }
  m.issueLife.evalReady

/-- FLOORPLAN_PUBLISH (R501 steps 5 and 6, R503): every local machine has ended. -/
def execFloorplanPublish (s : State) : Res :=
  let m := s.m
  let ended := (List.range 4).all fun d => (List.range 6).all fun k => decide (m.machine d k ≥ 2)
  s.done (if m.stage ≠ Stage.localTests ∨ m.boot.fast ∨ !ended then m
    else
      let codes := (List.range 576).foldl (fun (t : Tbl Nat) c => Tbl.set 0 t c (m.builtCode c)) []
      let m := m.boot.farFail.foldl (fun (m : Module) j => m.setFar j { m.far j with lost := true }) m
      m.publish codes false)

/-! ### Module reset (R504, R505, R514) -/

/-- The fast path may follow a module reset (R504). -/
def Module.fastOk (m : Module) : Bool :=
  m.ret.valid && m.fwOk && m.jr.state != Slot.staged && m.jr.state != Slot.exchanging &&
    (match m.ledger.newest 6 with | some r => leNat (r.payload.take 4) == m.ret.gen | none => false)

/-- A module reset. Where the fast path does not follow, cold bring-up runs from step 3, or from step 2 where Ostler's ROM has an image to
exchange or verify. -/
def Module.moduleReset (m : Module) (cold : Bool) : Module :=
  let fast := !cold && m.fastOk
  let boots := m.jr.state == Slot.staged || m.jr.state == Slot.exchanging || !m.fwOk
  let m := (m.kept true true).dropTransfer
  if fast then { m with boot := { m.boot with fast := true } }.begin' Stage.firmware
  else (m.wr F.BRG_MOD_STS_FALLBACK 4 1).begin' (if boots then Stage.firmware else Stage.fuses)

/-- A write of RST_MOD_CMD (R514, R523). -/
def Module.rstModWrite (m : Module) (src : Nat) (v : Word) : Module :=
  if !privileged src ∨ F.RST_MOD_CMD_KEY.of v ≠ 0x0940 ∨ F.RST_MOD_CMD_RESET.of v = 0 ∨ m.stage = 0 then m
  else m.moduleReset (F.RST_MOD_CMD_COLD.of v == 1)

/-- MODULE_RESET (R514): a write of RST_MOD_CMD with RESET 1. -/
def execModuleReset (req : Requester) (cold : Bool) (key : BitVec 16) (s : State) : Res :=
  s.done (s.m.rstModWrite req.toNat (BitVec.ofNat 32 (1 + (if cold then 2 else 0) + key.toNat * 65536)))

/-- A step of the fast path fails: cold bring-up goes on from step 3 of R501. -/
def Module.fallBack (m : Module) : Module :=
  ({ m with boot := { m.boot with fast := false, step := 0 } }.wr F.BRG_MOD_STS_FALLBACK 4 1).setStage Stage.fuses

/-- FAST_PATH_STEP_DONE (R505): the next of its steps 1 to 4 completes or fails. Step 3 clears the live slices and needs every
die-to-die link trained with its stored marks; step 4 republishes the retained plan. -/
def execFastPathStepDone (ok : Bool) (s : State) : Res :=
  let m := s.m
  let next (m : Module) (n stage : Nat) : Module := { m with boot := { m.boot with step := n } }.setStage stage
  s.done (if !m.boot.fast then m
    else if !ok then m.fallBack
    else match m.boot.step with
      | 0 => next m 1 Stage.fuses
      | 1 => next m.startDies 2 Stage.localTests
      | 2 => if (List.range 6).all m.d2dUp then next m.clearLive 3 Stage.floorplan else m.fallBack
      | _ => m.publish m.ret.codes true)

/-- POWER_LOSS (R504): everything ends but what the NOR and the fuses hold; a transfer under way resumes from the journal. -/
def execPowerLoss (s : State) : Res :=
  let m := s.m.kept false false
  s.done { m with svc := { m.svc with trip := none, record := none, holdup := none }, fwOk := false, lockLost := [], tapIr := [], tapDr := []
                  jr := if m.jr.state = Slot.receiving then { m.jr with bytes := 0 } else m.jr }

end Sys2Proof.Machine
end

