-- ==== Sys2Proof/Machine/Dma.lean ====
section
/-! DEFINITION. The DMA engine (R220 to R235), billet tables and rolls (R208 to R228), and the Traverse relay (R239). -/

namespace Sys2Proof.Machine

/-! ### The descriptor (R220) -/

/-- OP. -/
def dOp (d : Nat) : Nat := bitsAt d 0 4
/-- FMT. -/
def dFmt (d : Nat) : Nat := bitsAt d 4 4
/-- A. -/
def dA (d : Nat) : Nat := bitsAt d 8 16
/-- REMOTE. -/
def dRemote (d : Nat) : Bool := bitOf d 24
/-- N. -/
def dN (d : Nat) : Nat := bitsAt d 32 32
/-- SRC. -/
def dSrc (d : Nat) : Nat := bitsAt d 64 48
/-- SP. -/
def dSp (d : Nat) : Nat := bitsAt d 112 16
/-- DST. -/
def dDst (d : Nat) : Nat := bitsAt d 128 48
/-- DP. -/
def dDp (d : Nat) : Nat := bitsAt d 176 16
/-- ROLL. -/
def dRoll (d : Nat) : Nat := bitsAt d 192 48
/-- UNIT. -/
def dUnit (d : Nat) : Nat := bitsAt d 240 16

/-- A DMA computation on the module: it ends, or stops with a status and DETAIL of R230, keeping what it did. -/
abbrev DmaM := ExceptT (Nat × Nat) (StateM Module)

/-- Ends with a status of R230. -/
def dmaStop {α : Type} (status detail : Nat) : DmaM α := throw (status, detail)

/-- Applies a change to the module. -/
def dmaDo (f : Module → Module) : DmaM Unit := modify f

/-- Counts poisoned lines (R243). -/
def Module.kvdPoison (m : Module) (c n : Nat) : Module := m.bumpBy F.KVD_POISON_CNT_COUNT c n

/-- The status by which a computation backs off that must wait, and the one of a table request that must (R214, R243); no descriptor ends
with either. -/
def dmaWaits : Nat := 0x1FF
def dmaTableWaits : Nat := 0x1FE

/-- The accesses of a core's DMA engine for a descriptor with a fare tag (R138, R356). -/
def askDma (c tag : Nat) : Asker := { src := c, tag := tag, key := c }
/-- Those of its relay. -/
def askRelay (c : Nat) : Asker := { src := c, key := 8192 + c }
/-- Those of a table request: the bank units' or the far controller's own (R214, R246). -/
def Asker.table (q : Asker) : Asker := { q with via := .bank }

/-- An access that was not done ends the descriptor with REMOTE (R230), or backs off. -/
def dmaFail {α : Type} (q : Asker) (st : Nat) : DmaM α :=
  if st = St.waits then dmaStop (if q.via = .bank then dmaTableWaits else dmaWaits) 0 else dmaStop 0x0C st

/-- Reads local memory: the bytes and the poisoned lines by local address ÷ 64; any status but OK and POISONED ends the descriptor. -/
def dmaRead (q : Asker) (a n : Nat) (reg : RegPort := RegPort.errors) : DmaM (List Byte × List Nat) := do
  let m ← get
  let (m', st, l, bad) := m.readSpanBy q reg (n / 64 + 2) a n
  set (m'.kvdPoison q.src bad.length)
  if st = St.ok ∨ st = St.poisoned then return (l, bad) else dmaFail q st

/-- The multicast rule of a core's partition that a long write to a falls under (R343, R344): the rule and the window offset. -/
def Module.mcRule (m : Module) (c a : Nat) : Option (McRule × Nat) :=
  match m.partOf c, m.site a with
  | some p, .ok s =>
    let (kind, core, off) := match s with
      | .scratch k o => (0, k, o)
      | .slice k o => (1, k, o)
      | _ => (2, 0, 0)
    (m.plat.rules.find? fun r => r.part == p.num && r.endpoint == kind && r.leader == core
      && decide (r.off ≤ off) && decide (off < r.off + r.len)).map fun r => (r, off)
  | _, _ => none

/-- The address of an offset in the scratch or slice window of a position. -/
def windowAddr (endpoint n off : Nat) : Nat :=
  if endpoint = 0 then 0x2000_0000_0000 + n * 0x40_0000 + off else 0x1000_0000_0000 + n * 0x8000_0000 + off

/-- Bytes from a up to the next boundary of a multicast rule or the end (R344 splits packets there). -/
def Module.mcSplit (m : Module) (c a n : Nat) : Nat :=
  match m.mcRule c a with
  | some (r, off) => min n (r.off + r.len - off)
  | none =>
    (m.plat.rules.foldl (fun k r =>
      let b := windowAddr r.endpoint r.leader r.off
      if a < b then min k (b - a) else k) n)

/-- The packets of a long write under a multicast rule, from address a on (R344 to R347, R353, R356, R362): each takes one fare and draws its bucket
once, passes the route to (X0, Y0) and every branch of the box, and is answered by every position. -/
def Module.sendMulti (m : Module) (q : Asker) (r : McRule) (a n : Nat) : Module :=
  let path := m.pathNodes (some q.src) (some (coreAt r.box.x0 r.box.y0))
  (piecesOf (n / 64 + 12) a n).foldl (fun (m : Module) (x, k) =>
    let st := m.stamp q.src x q.tag
    let m := (m.draw (srcIface q.src none) st.vc (flitCharge 4 k r.box.cores.length)).noteFlits path.dropLast st.vc (requestFlits 4 k)
    r.box.cores.foldl (fun (m : Module) t =>
      ((r.box.branches (meshX t) (meshY t)).foldl (fun (m : Module) _ => m.noteFlits [t] st.vc (requestFlits 4 k)) m).noteFlits
        (path ++ r.box.treePath t) st.vc 1) m) m

/-- A copy of the virtual channel is retained or held on a rule's tree or on the way to it: a later packet of it waits (R324, R347). -/
def Module.treeWaits (m : Module) (path : List Nat) (r : McRule) (vc : Nat) : Bool :=
  m.pathWaits path vc || r.box.cores.any fun t => (Tbl.get [] m.net.ret t).any fun x => x.packet.vc.val == vc

/-- A long write under a multicast rule (R344 to R346): MWRITEs over the route to (X0, Y0); the status is that of its lowest-numbered target not
OK. -/
def Module.dmaMulti (m : Module) (q : Asker) (r : McRule) (off a : Nat) (l : List Byte) (tag : Nat → Bool) : Module × Nat :=
  if !m.mapAllows q.src a l.length Right.write then (m, St.outOfMap)
  else if !(m.pathLinks (some q.src) (some (coreAt r.box.x0 r.box.y0))).all m.d2dUp then
    (m.bump F.NOC_LINKDOWN_CNT_COUNT q.src, St.linkDown)
  else if q.waits && m.treeWaits (m.pathNodes (some q.src) (some (coreAt r.box.x0 r.box.y0))) r (m.stamp q.src a q.tag).vc then (m, St.waits)
  else
    let ts := r.box.cores
    ts.foldl (fun (acc : Module × Nat) t =>
      let s : Site := if r.endpoint = 0 then .scratch t off else .slice t off
      let refused := acc.1.siteStatus q.src s l.length
      let (m, st) := if refused ≠ St.ok then (acc.1.noteAbsorb s refused, refused)
        else acc.1.writeAt { q with whole := some a } s (windowAddr r.endpoint t off) l (fun w => tag (a / 64 + (w - (s.key.getD 0) / 64))) 4 none
      (m, if acc.2 = St.waits ∨ st = St.waits then St.waits else if acc.2 = St.ok then st else acc.2))
      (m.sendMulti q r a l.length, St.ok)

/-- The bytes of an access, from a on, that its next part writes: up to a line or a rule's boundary, or the long part under a rule. -/
def dmaPart (a n : Nat) : Nat := if a % 64 ≠ 0 then min n (64 - a % 64) else if n < 64 then n else min (n / 64 * 64) (4096 - a % 4096)

/-- Writes bytes, the long parts in a multicast range to every target (R344 to R346), the short ones to the leader alone; the status is
that of the first part not OK. The bytes of a part count in DMA_WR once it has completed (R553). -/
def Module.dmaPut (m : Module) (q : Asker) (tag : Nat → Bool) (reg : RegPort := RegPort.errors) : Nat → Nat → List Byte → Module × Nat
  | 0, _, _ => (m, St.ok)
  | fuel + 1, a, l =>
    if l.isEmpty then (m, St.ok)
    else
      let room := m.mcSplit q.src a l.length
      let rule := m.mcRule q.src a
      let n := if rule.isSome then dmaPart a room else min room (4096 - a % 4096)
      let part := l.take n
      let (m1, st) := match (if n ≥ 64 then rule else none) with
        | none => m.writeSpanBy q tag reg (n / 64 + 2) a part
        | some (r, off) => m.dmaMulti q r off a part tag
      if st ≠ St.ok then (m1, st) else (m1.count q.src 20 n).dmaPut q tag reg fuel (a + n) (l.drop n)

/-- Writes local memory; `bad` are the lines, by local address ÷ 64, that take the poison tag (R330). -/
def dmaWrite (q : Asker) (a : Nat) (l : List Byte) (bad : List Nat := []) (reg : RegPort := RegPort.errors) : DmaM Unit := do
  let m ← get
  let (m', st) := m.dmaPut q (fun w => bad.contains w) reg (l.length / 64 + 40) a l
  set m'
  if st ≠ St.ok then dmaFail q st

/-- Reads a number of a roll or table: a poisoned word ends the descriptor with ROLL_INVALID, DETAIL 4 (R229). -/
def walkRead (q : Asker) (a n : Nat) : DmaM Nat := do
  let (l, bad) ← dmaRead q a n
  if bad.isEmpty then return leNat l else dmaStop 9 4

/-- Writes a number of a roll or table. -/
def walkWrite (q : Asker) (a n v : Nat) : DmaM Unit := do
  let m ← get
  let (m', st) := m.writeSpan q (fun _ => false) 3 a (leBytes n v)
  set m'
  if st ≠ St.ok then dmaFail q st

/-- A table request that would meet a refusal or a wait at one of the numbers that it writes, given as address and bytes, does nothing (R214). -/
def walkProbe (q : Asker) (l : List (Nat × Nat)) : DmaM Unit := do
  for (a, n) in l do
    let m ← get
    let (m', st) := m.writeProbe q a n
    set m'
    if st ≠ St.ok then dmaFail q st

/-! ### Billets (R64, R65, R208 to R214) -/

/-- A core's partition pool. -/
def Module.poolOf (m : Module) (c : Nat) : Option PoolEntry :=
  match m.partOf c with
  | some p => m.plat.pools.find? fun e => e.part == p.num
  | none => none

/-- Tokens per billet (R64). -/
def PoolEntry.t (p : PoolEntry) : Nat := 16 * 2 ^ p.tokens
/-- Raw form (R209). -/
def PoolEntry.raw (p : PoolEntry) : Bool := p.layout % 4 == 1
/-- Element size e. -/
def PoolEntry.e (p : PoolEntry) : Nat := 2 ^ (p.layout / 4 % 4)
/-- Head dimension D. -/
def PoolEntry.d (p : PoolEntry) : Nat := 64 * 2 ^ (p.layout / 16 % 4)
/-- Heads H (R210). -/
def PoolEntry.h (p : PoolEntry) : Nat := 65536 / (2 * p.t * p.d * p.e)

/-- The slices of a partition in ascending core number (R65). -/
def Module.partSlices (m : Module) (part : Nat) : List Nat :=
  (List.range 576).filter fun n =>
    (match m.partOf n with | some p => p.num == part | none => false) && ((m.prog n).isSome || m.lodger n)

/-- The local address of a billet (R65, R208). -/
def Module.billetAddr (m : Module) (p : PoolEntry) (b : Nat) : Nat :=
  if p.loc = 1 then p.base + b * 65536
  else
    let s := m.partSlices p.part
    let k := s.length
    if k = 0 then p.base else 0x1000_0000_0000 + s.getD (b % k) 0 * 0x8000_0000 + p.base + b / k * 65536

/-- The address of a billet's table entry (R212). -/
def PoolEntry.entry (p : PoolEntry) (b : Nat) : Nat := p.table + 64 + 8 * b

/-- The null billet (R208). -/
def nullBillet : Nat := 0xFFFF_FFFF

/-- Reference count of a billet; a number outside the pool ends with ROLL_INVALID, DETAIL 3. -/
def refcnt (q : Asker) (p : PoolEntry) (b : Nat) : DmaM Nat := do
  if b ≥ p.count then dmaStop 9 3 else walkRead q (p.entry b) 2

/-- A free word, which the spec leaves open. -/
def dmaFresh : DmaM Nat := do
  let m ← get
  let (m', w) := m.freshWord
  set m'
  return w.toNat

/-- The first k billets of a free list from a billet on, and the one after them. -/
def freeChain (q : Asker) (p : PoolEntry) : Nat → Nat → DmaM (List Nat × Nat)
  | 0, b => return ([], b)
  | k + 1, b => do
    if b ≥ p.count then dmaStop 9 3
    let (l, e) ← freeChain q p k (← walkRead q (p.entry b + 4) 4)
    return (b :: l, e)

/-- A table request pops k billets, or none where fewer are free (R214); all that it reads is read before it writes. The NEXT of a popped
entry is a free value: R212 says what it holds only while REFCNT is 0 (log entry 16). -/
def tablePop (q0 : Asker) (p : PoolEntry) (k : Nat) : DmaM (Option (List Nat)) := do
  let q := q0.table
  dmaDo fun m => m.count q.src 36 1
  let free ← walkRead q (p.table + 8) 4
  if free < k then
    let n ← walkRead q (p.table + 0x14) 4
    walkWrite q (p.table + 0x14) 4 (min 0xFFFF_FFFF (n + 1))
    return none
  else
    let (got, head) ← freeChain q p k (← walkRead q (p.table + 0xC) 4)
    walkProbe q ((got.map fun b => (p.entry b, 8)) ++ [(p.table + 8, 8)])
    for b in got do
      walkWrite q (p.entry b) 2 1
      walkWrite q (p.entry b + 4) 4 (← dmaFresh)
    walkWrite q (p.table + 0xC) 4 head
    walkWrite q (p.table + 8) 4 (free - k)
    return some got

/-- The first billet of a list whose count, changed once per mention, would leave its range. -/
def refBreak (q : Asker) (p : PoolEntry) (up : Bool) : List Nat → List Nat → DmaM (Option Nat)
  | [], _ => return none
  | b :: t, before => do
    let n ← refcnt q p b
    let k := (before.filter (· == b)).length
    if (up && decide (n + k ≥ 65535)) || (!up && decide (n ≤ k)) then return some b else refBreak q p up t (b :: before)

/-- The billets of a list with their counts after the request, each once, in the order of their last mention. -/
def refAfter (q : Asker) (p : PoolEntry) (up : Bool) (l : List Nat) : DmaM (List (Nat × Nat)) :=
  l.reverse.eraseDups.reverse.mapM fun b => do
    let n ← refcnt q p b
    let k := (l.filter (· == b)).length
    return (b, if up then n + k else n - k)

/-- A table request adds 1 to a list of counts, or changes none (R214): the first billet that would exceed 65,535. -/
def tableIncref (q0 : Asker) (p : PoolEntry) (l : List Nat) : DmaM (Option Nat) := do
  let q := q0.table
  dmaDo fun m => m.count q.src 36 1
  match ← refBreak q p true l [] with
  | some b => return some b
  | none =>
    let plan ← refAfter q p true l
    walkProbe q (plan.map fun x => (p.entry x.1, 2))
    for (b, n) in plan do walkWrite q (p.entry b) 2 n
    return none

/-- The billets that a table request subtracts from, with their counts after it, or the first whose count is already 0 (R214). It ends where a
number that the request will write cannot be written. -/
def decrefPlan (q0 : Asker) (p : PoolEntry) (l : List Nat) : DmaM (Except Nat (List (Nat × Nat))) := do
  let q := q0.table
  dmaDo fun m => m.count q.src 36 1
  match ← refBreak q p false l [] with
  | some b => return .error b
  | none =>
    let plan ← refAfter q p false l
    let gone := plan.filter fun x => x.2 == 0
    walkProbe q ((plan.map fun x => (p.entry x.1, if x.2 = 0 then 8 else 2)) ++ (if gone.isEmpty then [] else [(p.table + 8, 8)]))
    return .ok plan

/-- A table request writes the counts of a plan and pushes each billet that reached 0 onto the head of the free list (R214). -/
def decrefDo (q0 : Asker) (p : PoolEntry) (plan : List (Nat × Nat)) : DmaM Unit := do
  let q := q0.table
  let gone := (plan.filter fun x => x.2 == 0).map Prod.fst
  let head ← if gone.isEmpty then pure 0 else walkRead q (p.table + 0xC) 4
  let free ← if gone.isEmpty then pure 0 else walkRead q (p.table + 8) 4
  for (b, n) in plan do walkWrite q (p.entry b) 2 n
  for (b, i) in gone.zip (List.range gone.length) do
    walkWrite q (p.entry b + 4) 4 (if i = 0 then head else gone.getD (i - 1) 0)
  if !gone.isEmpty then
    walkWrite q (p.table + 0xC) 4 (gone.getLastD 0)
    walkWrite q (p.table + 8) 4 (free + gone.length)

/-- A table request subtracts 1 from a list of counts and pushes each billet that reaches 0, or changes none of them (R214). -/
def tableDecref (q : Asker) (p : PoolEntry) (l : List Nat) : DmaM (Option Nat) := do
  match ← decrefPlan q p l with
  | .error b => return some b
  | .ok plan =>
    decrefDo q p plan
    return none

/-! ### Rolls (R217, R218) -/

/-- What the walker reads of a roll's header. -/
structure Roll where
  addr : Nat
  cap : Nat
  g : Nat
  deriving DecidableEq, Repr

/-- Address of LEN[g]. -/
def Roll.lenAt (r : Roll) (g : Nat) : Nat := r.addr + 0x40 + 4 * g
/-- Address of entry i. -/
def Roll.entryAt (r : Roll) (i : Nat) : Nat := r.addr + 0x40 + (4 * r.g + 63) / 64 * 64 + 4 * i

/-- Reads a roll header; a field outside its rule ends with ROLL_INVALID, DETAIL 0 (R230). -/
def rollRead (q : Asker) (a part : Nat) : DmaM Roll := do
  let (l, bad) ← dmaRead q a 64
  if !bad.isEmpty then dmaStop 9 4
  else
    let f (o n : Nat) := leNat ((l.drop o).take n)
    if f 0 4 ≠ 0x4C4C4F52 ∨ f 4 4 = 0 ∨ f 4 4 > 131072 ∨ f 8 1 = 0 ∨ f 9 1 ≠ part ∨ f 0xA 6 ≠ 0 ∨ f 0x20 32 ≠ 0 then dmaStop 9 0
    else return ⟨a, f 4 4, f 8 1⟩

/-- LEN[g]; a layer outside the roll ends with ROLL_INVALID, DETAIL 0. -/
def Roll.len (r : Roll) (q : Asker) (g : Nat) : DmaM Nat := if g ≥ r.g then dmaStop 9 0 else walkRead q (r.lenAt g) 4

/-- The billet of block i of layer g: a null entry or a number outside the pool ends with ROLL_INVALID. -/
def Roll.billet (r : Roll) (q : Asker) (p : PoolEntry) (i g : Nat) : DmaM Nat := do
  let b ← walkRead q (r.entryAt (i * r.g + g)) 4
  if b = nullBillet then dmaStop 9 2 else if b ≥ p.count then dmaStop 9 3 else return b

/-- ⌈a ÷ b⌉. -/
def ceilDiv (a b : Nat) : Nat := (a + b - 1) / b

/-! ### Checks (R229) -/

/-- Every 4 KiB of a span of register space lies in a block (R33, R35). -/
def blockSpan (a n : Nat) : Bool :=
  decide (n ≤ 0x100_0000) && (regLoc a).isSome && (regLoc (a + n - 1)).isSome
    && (List.range (n / 4096)).all fun i => (regLoc (a + (i + 1) * 4096)).isSome || decide (n ≤ (i + 1) * 4096)

/-- A span lies wholly in one populated part of R33; the companion's is what the companion reports. -/
def Module.spanPopulated (m : Module) (a n : Nat) : Bool :=
  if a < 0x0780_0000_0000 then decide (a + n ≤ 0x0780_0000_0000)
  else if 0x1000_0000_0000 ≤ a ∧ a < 0x1120_0000_0000 then slicePopulated (a % 0x8000_0000) n
  else if 0x2000_0000_0000 ≤ a ∧ a < 0x2000_9000_0000 then scrPopulated (a % 0x40_0000) n
  else if 0x3000_0000_0000 ≤ a ∧ a < 0x3005_0000_0000 then blockSpan a n
  else if 0x3800_0000_0000 ≤ a ∧ a < 0x3900_0000_0000 then m.companionStatus (a - 0x3800_0000_0000) n == St.ok
  else false

/-- Element size of TCOPY (R223); none for another format. -/
def tcopySize (f : Nat) : Option Nat :=
  match f with
  | 0 => some 4 | 1 | 2 => some 2 | 3 | 4 | 5 => some 1
  | _ => none

/-- TCOPY's source range length, first byte to last. -/
def tcSrcLen (d e : Nat) : Nat := (dN d - 1) * dSp d * 64 + dA d * e
/-- TCOPY's destination range length. -/
def tcDstLen (d e : Nat) : Nat := (dA d - 1) * dDp d * 64 + dN d * e

/-- Fields that an operation must leave 0 (R221): FMT, A, N, SRC, SP, DST, DP, ROLL, UNIT. -/
def dashBad (d : Nat) : Bool :=
  let z (keep : List Nat) :=
    ([(0, dFmt d), (1, dA d), (2, dN d), (3, dSrc d), (4, dSp d), (5, dDst d), (6, dDp d), (7, dRoll d), (8, dUnit d)]).any
      fun (i, v) => !keep.contains i && v != 0
  match dOp d with
  | 0 => z (if dRemote d then [2, 3, 5, 8] else [2, 3, 5])
  | 1 => z [0, 1, 2, 3, 4, 5, 6]
  | 2 => z [0, 1, 2, 3, 5, 7]
  | 3 => z [0, 1, 2, 3, 7] || dA d % 256 != 0
  | 4 => z [2, 3, 7]
  | 5 => z [2, 7]
  | 6 => z [2, 3, 4, 5, 8]
  | 7 => z [2, 3, 4]
  | _ => z [3]

/-- Misaligned addresses, and N or A outside its range (R221). -/
def fieldBad (d : Nat) : Bool :=
  match dOp d with
  | 0 => dSrc d % 64 != 0 || dDst d % 64 != 0 || dN d % 64 != 0 || dN d == 0
  | 1 => dSrc d % 64 != 0 || dDst d % 64 != 0 || dN d == 0 || decide (dN d > 4096) || dA d == 0 || decide (dA d > 4096)
  | 2 => dRoll d % 64 != 0 || dN d == 0 || decide (dN d > 2 ^ 21)
  | 3 => dRoll d % 64 != 0 || dN d == 0 || decide (dN d > 4096)
  | 4 => dSrc d % 64 != 0 || dRoll d % 64 != 0
  | 5 => dRoll d % 64 != 0
  | 6 => dSrc d % 64 != 0 || dDst d % 64 != 0 || dN d % 64 != 0
  | _ => dSrc d % 64 != 0

/-- The ring entry of a core's partition (R231). -/
def Module.ringOf (m : Module) (c : Nat) : Option SurveyRing :=
  match m.partOf c with
  | some p => if p.ring = 255 then none else m.plat.survey.rings.find? fun r => r.index == p.ring
  | none => none

/-- The bytes that GATHER writes and APPEND reads in scratch (R224, R225). -/
def kvBytes (d : Nat) (p : PoolEntry) : Nat :=
  if dOp d = 2 then
    let k := 64 / p.e
    (ceilDiv (dN d) 64 * (p.d / k) + ceilDiv (dN d) k * (p.d / 64)) * 4096
  else 2 * dN d * p.h * p.d * p.e

/-- The status of R229 by which a descriptor is rejected; none where it runs. -/
def Module.dStatus (m : Module) (c d : Nat) : Option Nat :=
  let op := dOp d
  let pool := m.poolOf c
  let kv := op == 2 || op == 3
  let e := (tcopySize (dFmt d)).getD 1
  let kvFmt (p : PoolEntry) : Bool :=
    match Fmt.ofCode (dFmt d) with | some f => f.bits == 8 * p.e && !f.blockScaled | none => false
  if decide (op > 8) || bitsAt d 25 7 != 0 || dashBad d || fieldBad d
      || (op == 6 && !dRemote d) || (op != 0 && op != 6 && dRemote d)
      || (op == 1 && (tcopySize (dFmt d)).isSome && (decide (dA d * e > dSp d * 64) || decide (dN d * e > dDp d * 64)))
      || (op == 0 && !dRemote d && rangesMeet (dSrc d, dSrc d + dN d) (dDst d, dDst d + dN d))
      || (op == 1 && rangesMeet (dSrc d, dSrc d + tcSrcLen d e) (dDst d, dDst d + tcDstLen d e))
      || (kv && (match pool with | some p => p.raw || (op == 2 && decide (dA d % 256 ≥ p.h)) | none => false)) then some 3
  else if (op == 1 && (tcopySize (dFmt d)).isNone) || (kv && (match pool with | some p => !kvFmt p | none => false)) then some 1
  else if (match op with
      | 0 => !m.spanPopulated (dSrc d) (dN d) || (!dRemote d && !m.spanPopulated (dDst d) (dN d))
      | 1 => !m.spanPopulated (dSrc d) (tcSrcLen d e) || !m.spanPopulated (dDst d) (tcDstLen d e)
      | 2 => (match pool with | some p => decide (dDst d + kvBytes d p > 0x18_0000) | none => decide (0x18_0000 ≤ dDst d))
      | 3 => (match pool with | some p => decide (dSrc d + kvBytes d p > 0x18_0000) | none => decide (0x18_0000 ≤ dSrc d))
      | 6 => !m.spanPopulated (dSrc d) (dN d + 64)
      | 7 | 8 => !m.spanPopulated (dSrc d) 64
      | _ => false) then some 5
  else if decide (2 ≤ op) && decide (op ≤ 5) && pool.isNone then some 0x0B
  else if op == 6 && (match m.ringOf c with | some r => r.nextUnit != dUnit d | none => true) then some 0x0D
  else none

/-! ### Operations -/

/-- Reads a span of local memory and writes it, in pieces of at most 4 KiB, each line with its poison (R223, R330). -/
def copyPieces (q : Asker) (src dst : Nat) : Nat → Nat → Nat → DmaM Unit
  | 0, _, _ => return ()
  | fuel + 1, i, n => do
    if n = 0 then return ()
    else
      let k := min n 4096
      let (l, bad) ← dmaRead q (src + i) k
      dmaDo fun m => m.count q.src 19 k
      dmaWrite q (dst + i) l (bad.map fun w => w - (src + i) / 64 + (dst + i) / 64)
      copyPieces q src dst fuel (i + k) (n - k)

/-- COPY within the module (R223). -/
def dmaCopy (q : Asker) (d : Nat) : DmaM Unit := copyPieces q (dSrc d) (dDst d) (dN d / 4096 + 1) 0 (dN d)

/-- TCOPY (R223): one destination row at a time; a destination line is poisoned where an element of it came from a poisoned line. `reg` is how
its packets meet register space (R14). -/
def dmaTcopy (reg : RegPort) (q : Asker) (d : Nat) : DmaM Unit := do
  let e := (tcopySize (dFmt d)).getD 1
  let mut rows : List (List Byte × List Nat) := []
  for i in List.range (dN d) do
    let r ← dmaRead q (dSrc d + i * dSp d * 64) (dA d * e) reg
    rows := rows ++ [r]
  dmaDo fun m => (m.count q.src 19 (dN d * dA d * e)).count q.src 22 (dN d * dA d * e)
  for j in List.range (dA d) do
    let dst := dDst d + j * dDp d * 64
    let line := (rows.map fun r => (r.1.drop (j * e)).take e).flatten
    let bad := (List.range (dN d)).filterMap fun i =>
      if (rows.getD i ([], [])).2.contains ((dSrc d + i * dSp d * 64 + j * e) / 64) then some ((dst + i * e) / 64) else none
    dmaWrite q dst line bad reg

/-- GATHER (R224): of each billet that the tokens meet, the lines that hold a key or a value of one of them are read. -/
def dmaGather (q : Asker) (d : Nat) (p : PoolEntry) (part : Nat) : DmaM Unit := do
  let c := q.src
  let g := dA d / 256
  let head := dA d % 256
  let r ← rollRead q (dRoll d) part
  let len ← r.len q g
  let n := dN d
  if dSrc d + n > len then dmaStop 9 1
  let k := 64 / p.e
  let t := p.t
  let first := dSrc d / t
  let last := (dSrc d + n - 1) / t
  let v0 := ceilDiv n 64 * (p.d / k) * 4096
  let total := kvBytes d p
  let base := dDst d
  dmaDo fun m => m.put (scrKey c base) (List.replicate total 0)
  for blk in (List.range (last - first + 1)).map (first + ·) do
    let b ← r.billet q p blk g
    let m ← get
    let lo := dSrc d - blk * t
    let hi := min t (dSrc d + n - blk * t)
    let addr := m.billetAddr p b
    let ka := addr + head * t * p.d * p.e
    let (keys, bk) ← dmaRead q (ka + lo * p.d * p.e) ((hi - lo) * p.d * p.e)
    let va := addr + 32768 + head * p.d * t * p.e
    -- the bytes of one dimension's tokens that are read: whole lines
    let from' := if t * p.e ≤ 64 then 0 else lo * p.e / 64 * 64
    let upto := if t * p.e ≤ 64 then t * p.e else (hi * p.e + 63) / 64 * 64
    let mut vals : List Byte := []
    let mut bv : List Nat := []
    if t * p.e ≤ 64 then
      let (l, w) ← dmaRead q va (t * p.d * p.e)
      vals := l
      bv := w
    else
      for dim in List.range p.d do
        let (l, w) ← dmaRead q (va + dim * t * p.e + from') (upto - from')
        vals := vals ++ l
        bv := bv ++ w
    let row := upto - from'
    dmaDo fun m => (m.count c 33 1).count c 19 ((hi - lo) * p.d * p.e + p.d * row)
    for slot in (List.range (hi - lo)).map (lo + ·) do
      let i := blk * t + slot - dSrc d
      for ch in List.range (p.d / k) do
        let o := ((slot - lo) * p.d + ch * k) * p.e
        let off := base + (i / 64 * (p.d / k) + ch) * 4096 + i % 64 * 64
        let bad := bk.contains ((ka + lo * p.d * p.e + o) / 64)
        dmaDo fun m => m.storeTag (scrKey c off) ((keys.drop o).take 64) fun _ => bad
      for dim in List.range p.d do
        let off := base + v0 + (i / k * (p.d / 64) + dim / 64) * 4096 + dim % 64 * 64 + i % k * p.e
        let bad := bv.contains ((va + (dim * t + slot) * p.e) / 64)
        -- a tile line that holds one poisoned value stays poisoned
        dmaDo fun m =>
          let old := m.poison.contains (scrKey c off / 64)
          m.storeTag (scrKey c off) ((vals.drop (dim * row + slot * p.e - from')).take p.e) fun _ => bad || old
  dmaDo fun m => m.count c 20 total

/-- Steps 3 to 6 of APPEND (R225), given the roll, LEN[g], the popped billets and whether the first of them replaces the shared last
billet. Where a roll write fails, the entries written before it name their billets no longer (R228; DEDUCED, log entry 90). -/
def appendWrite (q : Asker) (d : Nat) (p : PoolEntry) (r : Roll) (g len : Nat) (cow : Bool) (old : Nat) (popped : List Nat) : DmaM Unit := do
  let c := q.src
  let t := p.t
  let n := dN d
  let m ← get
  let fresh := if cow then popped.drop 1 else popped
  if cow then
    copyPieces q (m.billetAddr p old) (m.billetAddr p (popped.getD 0 0)) 17 0 65536
    dmaDo fun m => m.count c 34 1
  let firstNew := ceilDiv len t
  let src := dSrc d
  let half := n * p.h * p.d * p.e
  for i in List.range n do
    let pos := len + i
    let blk := pos / t
    let slot := pos % t
    let b := if blk < firstNew then (if cow then popped.getD 0 0 else old) else fresh.getD (blk - firstNew) 0
    let addr := m.billetAddr p b
    for h in List.range p.h do
      let m ← get
      let so := src + (i * p.h + h) * p.d * p.e
      let (m1, ks, bk) := m.load' (scrKey c so) (p.d * p.e)
      let (m2, vs, bv) := m1.load' (scrKey c (so + half)) (p.d * p.e)
      set ((m2.kvdPoison c (bk.length + bv.length)).count c 19 (2 * p.d * p.e))
      let ka := addr + ((h * t + slot) * p.d) * p.e
      dmaWrite q ka ks (if bk.isEmpty then [] else
        (List.range (p.d * p.e)).filterMap fun x => if bk.contains ((scrKey c so + x) / 64) then some ((ka + x) / 64) else none)
      for dim in List.range p.d do
        let va := addr + 32768 + ((h * p.d + dim) * t + slot) * p.e
        dmaWrite q va ((vs.drop (dim * p.e)).take p.e)
          (if bv.contains ((scrKey c (so + half) + dim * p.e) / 64) then [va / 64] else [])
  let entries := (if cow then [(len / t, popped.getD 0 0, old)] else [])
    ++ (List.range fresh.length).map fun i => (firstNew + i, fresh.getD i 0, nullBillet)
  tryCatch (do
    for (i, b, _) in entries do walkWrite q (r.entryAt (i * r.g + g)) 4 b
    walkWrite q (r.lenAt g) 4 (len + n)) fun e => do
      if e.1 ≠ dmaWaits then
        for (i, _, b) in entries do
          tryCatch (walkWrite q (r.entryAt (i * r.g + g)) 4 b) fun _ => return ()
      throw e

/-- APPEND (R225, R228). The first popped billet takes the copy, the others the new blocks in order (DEDUCED, log entry 16). -/
def dmaAppend (q : Asker) (d : Nat) (p : PoolEntry) (part : Nat) : DmaM Unit := do
  let c := q.src
  let g := dA d / 256
  let r ← rollRead q (dRoll d) part
  let len ← r.len q g
  let n := dN d
  let t := p.t
  if len + n > 2 ^ 21 then dmaStop 7 len
  if ceilDiv (len + n) t > r.cap then dmaStop 8 r.cap
  let old ← if len % t ≠ 0 then r.billet q p (len / t) g else pure nullBillet
  let cnt ← if len % t ≠ 0 then refcnt q p old else pure 0
  let cow := decide (cnt > 1)
  let k := ceilDiv (len + n) t - ceilDiv len t + (if cow then 1 else 0)
  let got ← if k = 0 then pure (some []) else tablePop q p k
  match got with
  | none =>
    dmaDo fun m => (m.count c 35 1).record (coreDie c) 5 .core c k (dRoll d) g
    dmaStop 6 k
  | some popped =>
    tryCatch (appendWrite q d p r g len cow old popped) fun e => do
      if !popped.isEmpty && e.1 ≠ dmaWaits && e.1 ≠ dmaTableWaits then discard (tableDecref q p popped)
      throw e
    if cow then discard (tableDecref q p [old])

/-- SHARE (R226). Its request goes block by block, layers within (DESIGN CHOICE, log entry 113). -/
def dmaShare (q : Asker) (d : Nat) (p : PoolEntry) (part : Nat) : DmaM Unit := do
  let child ← rollRead q (dRoll d) part
  let parent ← rollRead q (dSrc d) part
  let n := dN d
  if child.g ≠ parent.g then dmaStop 9 5
  let blocks := ceilDiv n p.t
  for g in List.range child.g do
    let lc ← walkRead q (child.lenAt g) 4
    let lp ← walkRead q (parent.lenAt g) 4
    if lc ≠ 0 ∨ lp < n then dmaStop 9 5
  if blocks > child.cap then dmaStop 9 5
  let mut l : List (Nat × Nat) := []
  for i in List.range (blocks * parent.g) do
    let b ← parent.billet q p (i / parent.g) (i % parent.g)
    l := l ++ [(i, b)]
  match ← (if l.isEmpty then pure none else tableIncref q p (l.map (·.2))) with
  | some b => dmaStop 0x0A b
  | none =>
    for (i, b) in l do walkWrite q (child.entryAt i) 4 b
    for g in List.range child.g do walkWrite q (child.lenAt g) 4 n

/-- RELEASE (R227). Its request, once it is known to be granted, takes effect after the entries and lengths are written, so that a count never
falls below the entries that name its billet (R228; DEDUCED, log entry 90). It goes layer by layer, blocks within (DESIGN CHOICE, log entry 113). -/
def dmaRelease (q : Asker) (d : Nat) (p : PoolEntry) (part : Nat) : DmaM Unit := do
  let r ← rollRead q (dRoll d) part
  let n := dN d
  let mut l : List (Nat × Nat) := []
  let mut lens : List (Nat × Nat) := []
  for g in List.range r.g do
    let len ← walkRead q (r.lenAt g) 4
    let len' := min len n
    lens := lens ++ [(g, len')]
    for i in List.range (ceilDiv len p.t - ceilDiv len' p.t) do
      let b ← r.billet q p (ceilDiv len' p.t + i) g
      l := l ++ [((ceilDiv len' p.t + i) * r.g + g, b)]
  match ← (if l.isEmpty then pure (.ok []) else decrefPlan q p (l.map (·.2))) with
  | .error b => dmaStop 0x0A b
  | .ok plan =>
    for (i, _) in l do walkWrite q (r.entryAt i) 4 nullBillet
    for (g, len') in lens do walkWrite q (r.lenAt g) 4 len'
    decrefDo q p plan

/-! ### Descriptors -/

/-- Puts a descriptor in progress. -/
def Module.setDma (m : Module) (c : Nat) (r : DmaRun) : Module := m.setCore c { m.core c with dma := some r }

/-- A descriptor that must wait has done nothing yet (R32, R274, R300 to R304; DESIGN CHOICE, log entry 91); its row is tried again. -/
def Module.dmaWait (m0 m : Module) (c : Nat) (d : Desc) (table : Bool) : Module :=
  (m0.backOff m).setDma c ⟨d, if table then .tableWait else .waiting, 0, 0, 0, 0⟩

/-- A step of a DMA descriptor that takes m to m', if the core's tokens let it go; else the descriptor waits for them (R362, R378). -/
def Module.dmaStep (m : Module) (c : Nat) (d : Desc) (m' : Module) : Module :=
  if m.tokensFor m' c then m'.fed c else (m.dmaWait m c d false).starve c

/-- Takes the DMA descriptor with operation `op` from the head of its queue and checks it (R229), or takes up one that waits. -/
def Module.dmaTake (m : Module) (c op : Nat) (run : Module → Desc → Module) : Module :=
  let k := m.core c
  match k.dma with
  | some r => if dOp r.desc.bits = op ∧ (r.phase = .waiting ∨ r.phase = .tableWait) then m.dmaStep c r.desc (run m r.desc) else m
  | none =>
    match k.dmq with
    | [] => m
    | d :: q =>
      if dOp d.bits ≠ op then m
      else
        match m.dStatus c d.bits with
        | some st =>
          let m := ((m.wr F.KVD_STS_LAST_STS c st).wr F.KVD_STS_LAST_OP c op).wr F.KVD_DETAIL_DETAIL c 0
          m.reject c .dm 2 st d
        | none =>
          let m := m.setCore c { k with dmq := q }
          m.dmaStep c d (run m d)

/-- A descriptor whose accesses are done: DMA_DESC_COMPLETE ends it. -/
def Module.dmaEnd (m : Module) (c : Nat) (d : Desc) (st det : Nat) : Module := (m.forget c).setDma c ⟨d, .done, st, det, 0, 0⟩

/-- Runs an operation that ends within the module. -/
def Module.dmaLocal (m0 : Module) (c op : Nat) (act : Asker → Nat → PoolEntry → Nat → DmaM Unit) : Module :=
  m0.dmaTake c op fun m d =>
    let part := match m.partOf c with | some p => p.num | none => 0
    let pool := (m.poolOf c).getD ⟨0, 0, 0, false, 1, 0, 0, 0⟩
    match (act (askDma c d.fare) d.bits pool part).run m with
    | (.ok _, m') => m'.dmaEnd c d 0 0
    | (.error (st, det), m') =>
      if st = dmaWaits ∨ st = dmaTableWaits then m.dmaWait m' c d (st = dmaTableWaits) else m'.dmaEnd c d st det

/-! ### Fabric requests (R233, R434) -/

/-- The magic of a ring block header (R232). -/
def ringMagic : Nat := 0x53565254

/-- Whose fabric requests they are: the access rights and fare of a DMA engine or its relay, the ring port where they belong to a ring, and
whether their bytes count (a hearth core's do not, R84). -/
structure Sender where
  q : Asker
  relay : Bool := false
  ring : Option Nat := none

/-- A descriptor's requests. -/
def sendDma (c : Nat) (d : Desc) (ring : Option Nat := none) : Sender := ⟨askDma c d.fare, false, ring⟩

/-- Counts bytes of a sender. -/
def Module.countSend (m : Module) (f : Sender) (n k : Nat) : Module := if f.relay then m else m.count f.q.src n k

/-- The tag after the last one given to a fabric request, of 14 bits (R433): the first that no outstanding request holds (R435). -/
def Module.nextFabTag (m : Module) : Nat :=
  (((List.range (m.fabOut.length + 2)).map fun i => (m.fabTag + 1 + i) % 16384).find? fun t => !(m.fabOut.any fun r => r.tag == t)).getD 0

/-- Sends a fabric request of a core or of its relay: the module, and a status other than 0 where it completes at once, or must wait for its way to
the port. It draws its bucket and takes its fare, channel and deadline as every request does (R362, R356, R434); under the address class source
its fare is that of the range of this module's map in which the remote address lies, 0 where none holds it (DESIGN CHOICE, log entry 112). -/
def Module.fabReq (m : Module) (f : Sender) (role : FabRole) (unit addr kind : Nat) (len : Nat)
    (data : List Byte) (bad : List Bool) : Module × Nat :=
  let c := f.q.src
  let st := m.stamp c addr f.q.tag
  let vc := if st.vc = 0 ∧ len ≥ 64 then 1 else st.vc
  let p : Packet := ⟨BitVec.ofNat 12 c, m.fabTag, BitVec.ofNat 8 st.tag, Fin.ofNat 4 vc, st.deadline, addr, len, data, bad, { ndata := data.length / 64 }⟩
  let x : FabMsg := ⟨kind, ⟨BitVec.ofNat 16 unit, BitVec.ofNat 16 m.unit, 31, 0, 0, p⟩⟩
  let (m1, e) := (m.draw c vc (flitCharge (if kind = 0x08 then 0 else 1) len 1)).fabSend x f.ring
  if e = St.waits then (m, e)
  else if e ≠ 0 then (m1, e)
  else ({ m1 with fabOut := m1.fabOut ++ [⟨c, m.fabTag, role, f.relay, false⟩], fabTag := m.nextFabTag }, 0)

/-- Sends bytes to another unit in writes of at most 512 bytes that cross no 512-byte boundary: how many are outstanding, and the first
status other than 0. -/
def Module.fabWrites (m : Module) (f : Sender) (unit : Nat) (bad : Nat → Bool) : Nat → Nat → List Byte → Nat → Module × Nat × Nat
  | 0, _, _, n => (m, n, 0)
  | fuel + 1, a, l, n =>
    if l.isEmpty then (m, n, 0)
    else
      let k := min l.length (512 - a % 512)
      let (m1, st) := m.fabReq f .payload unit a 0x09 k (l.take k) ((List.range (k / 64)).map fun i => bad (a / 64 + i))
      if st ≠ 0 then (m1, n, st) else m1.fabWrites f unit bad fuel (a + k) (l.drop k) (n + 1)

/-- Sends the payload of COPY with REMOTE or of RSEND: n bytes from src to addr in a unit. -/
def Module.sendPayload (m : Module) (f : Sender) (unit src addr n : Nat) : Module × Nat × Nat :=
  let (m1, st, l, bad) := m.readSpan f.q (n / 64 + 2) src n
  let m1 := m1.kvdPoison f.q.src bad.length
  if st ≠ St.ok ∧ st ≠ St.poisoned then (m1, 0, st)
  else
    let m2 := (m1.countSend f 19 n).countSend f 21 n
    m2.fabWrites f unit (fun w => bad.contains (w - addr / 64 + src / 64)) (n / 64 + 2) addr l 0

/-- COPY to another unit begins (R223, R434). -/
def Module.copyRemote (m : Module) (c : Nat) (d : Desc) : Module :=
  let (m1, n, st) := m.sendPayload (sendDma c d) (dUnit d.bits) (dSrc d.bits) (dDst d.bits) (dN d.bits)
  if st = St.waits then m.dmaWait m1 c d false
  else (m1.forget c).setDma c ⟨d, if n = 0 then .done else .payload, if st = 0 then 0 else 0x0C, st, n, 0⟩

/-- Reads the slot header at the next member (R233 step 1). -/
def Module.readHeader (m : Module) (f : Sender) (unit addr : Nat) : Module × Nat := m.fabReq f .header unit addr 0x08 64 [] []

/-- The header that RSEND or the relay writes (R233 step 3): MAGIC, STATE, RING, PAYLOAD and DATUM replaced. -/
def Module.sealHeader (m : Module) (c ring n : Nat) (l : List Byte) : List Byte :=
  leBytes 4 ringMagic ++ [1] ++ (l.drop 5).take 1 ++ [BitVec.ofNat 8 ring] ++ (l.drop 7).take 0x1D ++ leBytes 4 n
    ++ leBytes 8 (m.datumOf (coreDie c)) ++ (l.drop 0x30).take 16

/-- NEXT_PORT of a core's ring. -/
def Module.ringPort (m : Module) (c : Nat) : Option Nat := (m.ringOf c).map (·.nextPort)

/-- RSEND begins (R233): a ring without a usable port ends RING_DOWN; else the slot header is read. -/
def Module.rsendStart (m : Module) (c : Nat) (d : Desc) : Module :=
  match m.ringOf c with
  | none => m.dmaEnd c d 0x0D 0
  | some r =>
    if !m.surveyOk || !m.portUsable r.nextPort then m.dmaEnd c d 0x0E r.nextPort
    else
      let (m1, st) := m.readHeader (sendDma c d (some r.nextPort)) (dUnit d.bits) (dDst d.bits)
      if st = St.waits then m.dmaWait m1 c d false
      else if st = 0 then m1.setDma c ⟨d, .header, 0, 0, 1, 0⟩ else m1.dmaEnd c d 0x0C st

/-- The payload of an RSEND whose slot is not FULL (R233 step 2). One whose source must wait begins again with the header. -/
def Module.rsendPayload (m : Module) (c : Nat) (r : DmaRun) : Module :=
  let d := r.desc.bits
  let (m1, n, st) := if dN d = 0 then (m, 0, 0)
    else m.sendPayload (sendDma c r.desc (m.ringPort c)) (dUnit d) (dSrc d + 64) (dDst d + 64) (dN d)
  if st = St.waits then m.dmaWait m1 c r.desc false
  else if !m.tokensFor m1 c then (m.dmaWait m c r.desc false).starve c
  else (m1.forget c).setDma c { r with phase := if n > 0 then .payload else if st = 0 then .ready else .done, outstanding := n,
                                       status := if st = 0 then 0 else 0x0C, detail := st }

/-- The header of an RSEND whose payload has arrived (R233 step 3). -/
def Module.rsendSeal (m : Module) (c : Nat) (r : DmaRun) : Module :=
  let d := r.desc.bits
  let f := sendDma c r.desc (m.ringPort c)
  let (m1, st, l, bad) := m.readSpan f.q 3 (dSrc d) 64
  if st = St.waits then m.backOff m1
  else
    let m1 := (m1.kvdPoison c bad.length).forget c
    if st ≠ St.ok ∧ st ≠ St.poisoned then m1.setDma c { r with phase := .done, status := 0x0C, detail := st }
    else
      let ring := match m1.ringOf c with | some x => x.index | none => 255
      let (m2, st2) := ((m1.count c 19 64).count c 21 64).fabReq f .seal (dUnit d) (dDst d) 0x09 64 (m1.sealHeader c ring (dN d) l) [!bad.isEmpty]
      if st2 = St.waits then m
      else m2.setDma c (if st2 = 0 then { r with phase := .sealing, outstanding := 1 }
        else { r with phase := .done, status := 0x0C, detail := st2 })

/-! ### The relay (R239) -/

/-- The relay's core: the lowest-numbered good core of a hearth partition with ring membership, EN set, not stopped (RELAY_ERR; DESIGN CHOICE
that software's clearing it lets the relay go on, log entry 92). -/
def Module.relayOk (m : Module) (c : Nat) : Bool :=
  match m.partOf c with
  | some p => p.kind == 2 && (m.ringOf c).isSome && m.rd F.ATN_RELAY_CFG_EN c == 1 && m.rd F.ATN_STS_RELAY_ERR c == 0 &&
      ((List.range 576).find? fun n => m.good n && (match m.partOf n with | some q => q.num == p.num | none => false)) == some c
  | none => false

/-- The relay's requests. -/
def Module.sendRelay (m : Module) (c : Nat) : Sender := ⟨askRelay c, true, m.ringPort c⟩

/-- NEXT_UNIT of a core's ring. -/
def Module.ringUnit (m : Module) (c : Nat) : Nat := match m.ringOf c with | some x => x.nextUnit | none => 0xFFFF

/-- Slot size in bytes, local slot and remote slot of the relay. -/
def Module.relaySlot (m : Module) (c i : Nat) : Nat × Nat × Nat :=
  let n := m.rd F.ATN_RELAY_CFG_SLOT_LINES c * 64
  (n, m.rd F.ATN_RELAY_LAND_LO_ADDR_LO c * 64 + m.rd F.ATN_RELAY_LAND_HI_ADDR_HI c * 2 ^ 32 + i * n,
    m.rd F.ATN_RELAY_NEXT_LO_ADDR_LO c * 64 + m.rd F.ATN_RELAY_NEXT_HI_ADDR_HI c * 2 ^ 32 + i * n)

/-- The relay reads a local block header: the module, the status, the bytes, and whether its line is poisoned. -/
def Module.relayLook (m : Module) (c a : Nat) : Module × Nat × List Byte × Bool :=
  let (m1, st, l, bad) := m.readSpan (askRelay c) 3 a 64
  if st = St.waits then (m.backOff m1, st, [], false) else ((m1.kvdPoison c bad.length).forget (askRelay c).key, st, l, !bad.isEmpty)

/-- A number of a block header. -/
def headNum (l : List Byte) (o n : Nat) : Nat := leNat ((l.drop o).take n)

/-- Replaces the relay's progress. -/
def Module.setRelay (m : Module) (c : Nat) (r : Option RelayRun) : Module := m.setCore c { m.core c with relay := r }

/-- The relay's payload, once the next slot is free. A forward of which a packet fails begins again. -/
def Module.relayPayload (m : Module) (c : Nat) (r : RelayRun) : Module :=
  let (m0, st0, l, _) := m.relayLook c r.land
  if st0 ≠ St.ok ∧ st0 ≠ St.poisoned then m0.setRelay c none
  else
    let n := headNum l 0x24 4
    let (m1, k, st) := if n = 0 then (m0, 0, 0) else m0.sendPayload (m0.sendRelay c) (m0.ringUnit c) (r.land + 64) (r.next + 64) n
    if st = St.waits then (m0.backOff m1).setRelay c none
    else if !m0.tokensFor m1 c then (m0.setRelay c none).starve c
    else (m1.forget (askRelay c).key).setRelay c (if k = 0 ∧ st ≠ 0 then none
      else some { r with phase := if k > 0 then .payload else .ready, outstanding := k, failed := st != 0 })

/-- The relay's header write. -/
def Module.relaySeal (m : Module) (c : Nat) (r : RelayRun) : Module :=
  let (m1, st1, l, bad) := m.relayLook c r.land
  if st1 = St.waits then m1
  else if st1 ≠ St.ok ∧ st1 ≠ St.poisoned then m1.setRelay c none
  else
    let ring := match m.ringOf c with | some x => x.index | none => 255
    let (m2, st) := m1.fabReq (m1.sendRelay c) .seal (m1.ringUnit c) r.next 0x09 64
      (m1.sealHeader c ring (headNum l 0x24 4) l) [bad]
    if st = St.waits then m else m2.setRelay c (if st = 0 then some { r with phase := .sealing, outstanding := 1 } else none)

/-- The relay frees the local slot of a block whose forward has completed. -/
def Module.relayFree (m : Module) (c : Nat) (r : RelayRun) : Module :=
  let (m1, st) := m.writeSpan (askRelay c) (fun _ => false) 2 (r.land + 4) [0]
  if st = St.waits then (m.backOff m1).setRelay c (some { r with phase := .done })
  else if !m.tokensFor m1 c then (m.setRelay c (some { r with phase := .done })).starve c
  else
    let m2 := (m1.forget (askRelay c).key).bump F.ATN_RELAY_CNT_COUNT c
    m2.setCore c { m2.core c with relay := none, relayNext := 1 - r.slot }

/-- The relay looks at slot i: a FULL block there begins to be forwarded. It answers whether it took one, or stopped. A
ring is usable only while the survey check has passed (R231). -/
def Module.relayTry (m : Module) (c i : Nat) : Module × Bool :=
  let (size, land, next) := m.relaySlot c i
  let (m0, st, l, bad) := m.relayLook c land
  if !m.surveyOk then (m, false)
  else if st ≠ St.ok ∨ bad ∨ headNum l 0 4 ≠ ringMagic ∨ headNum l 4 1 ≠ 1 then (m0, false)
  else if headNum l 0x24 4 + 64 > size then (m0.wr F.ATN_STS_RELAY_ERR c 1, true)
  else
    let (m1, st) := m0.readHeader (m0.sendRelay c) (m0.ringUnit c) next
    if st = St.waits then (m, false)
    else (m1.setRelay c (if st = 0 then some ⟨i, land, next, .header, 1, false⟩ else none), true)

/-- RELAY_FORWARD (R239): takes a local slot whose block is FULL, the one after the last forwarded first, and forwards it by the method of
R233; while a forward is under way, rereads a FULL next slot, writes the header, or frees the local slot. -/
def execRelayForward (c : CoreId) (s : State) : Res :=
  let m := s.m
  let k := m.core c
  s.done (m.regulated c (match k.relay with
    | some r =>
      (match r.phase with
      | .full =>
        let (m1, st) := m.readHeader (m.sendRelay c) (m.ringUnit c) r.next
        if st = St.waits then m else m1.setRelay c (if st = 0 then some { r with phase := .header, outstanding := 1 } else none)
      | .ready => m.relaySeal c r
      | .done => m.relayFree c r
      | _ => m)
    | none =>
      if !m.relayOk c then m
      else
        let (m1, took) := m.relayTry c k.relayNext
        if took then m1 else (m1.relayTry c (1 - k.relayNext)).1))

/-- A fabric completion reaches the relay; a completion other than OK leaves the block where it is, to be forwarded again once every packet
of it has completed. `bad` is whether the data of a header read came poisoned, which counts (R243). -/
def Module.relayAnswer (m0 : Module) (c : Nat) (role : FabRole) (status : Nat) (data : List Byte) (bad : Bool) : Module :=
  let m := if role = .header then m0.kvdPoison c (if bad then 1 else 0) else m0
  match (m.core c).relay with
  | none => m
  | some r =>
    match role with
    | .header =>
      if status ≠ St.ok then m.setRelay c none
      else if (data.getD 4 0) = 1 then m.setRelay c (some { r with phase := .full, outstanding := 0 }) else m.relayPayload c r
    | .payload =>
      let failed := r.failed || status != St.ok
      if r.outstanding > 1 then m.setRelay c (some { r with outstanding := r.outstanding - 1, failed := failed })
      else m.setRelay c (if failed then none else some { r with outstanding := 0, phase := .ready })
    | .seal => if status ≠ St.ok then m.setRelay c none else m.relayFree c r

/-- A fabric request of this module completes with a status and data (R434, R435): the DMA descriptor or relay that sent it goes on.
A requester or tag that has none outstanding is a late answer, which is discarded and counted; one of a request issued before a reset is
discarded (R513). `bad` is whether its data came poisoned: a poisoned slot header counts (R243). -/
def Module.fabComplete (m : Module) (src tag status : Nat) (data : List Byte) (bad : Bool := false) : Module :=
  match m.fabOut.find? fun r => r.src == src && r.tag == tag with
  | none => if src < 576 then m.bump F.NOC_LATE_CNT_COUNT src else m
  | some q =>
    let m := { m with fabOut := m.fabOut.filter fun r => !(r.src == src && r.tag == tag) }
    if q.stale then m
    else if q.relay then m.relayAnswer src q.role status data bad
    else
      let m := if q.role = .header then m.kvdPoison src (if bad then 1 else 0) else m
      match (m.core src).dma with
      | none => m
      | some r =>
        match q.role with
        | .header =>
          if status ≠ St.ok then m.setDma src { r with phase := .done, status := 0x0C, detail := status }
          else if (data.getD 4 0) = 1 then m.setDma src { r with phase := .full, seen := 1 }
          else m.rsendPayload src { r with seen := (data.getD 4 0).toNat }
        | .payload =>
          let r := { r with outstanding := r.outstanding - 1 }
          let r := if status ≠ St.ok ∧ r.status = 0 then { r with status := 0x0C, detail := status } else r
          m.setDma src (if r.outstanding > 0 then r
            else { r with phase := if r.status = 0 ∧ dOp r.desc.bits = 6 then .ready else .done })
        | .seal => m.setDma src { r with phase := .done, status := if status = St.ok then 0 else 0x0C, detail := if status = St.ok then 0 else status }

/-! ### The rows of the command table -/

/-- DMA_COPY (R223). -/
def execDmaCopy (c : CoreId) (s : State) : Res :=
  s.done (match (s.m.core c).dmq with
    | d :: _ => if dRemote d.bits then s.m.dmaTake c 0 fun m d => m.copyRemote c d else s.m.dmaLocal c 0 fun q d _ _ => dmaCopy q d
    | [] => s.m)

/-- GATHER (R224). -/
def execGather (c : CoreId) (s : State) : Res := s.done (s.m.dmaLocal c 2 fun q d p part => dmaGather q d p part)
/-- APPEND (R225). -/
def execAppend (c : CoreId) (s : State) : Res := s.done (s.m.dmaLocal c 3 fun q d p part => dmaAppend q d p part)
/-- SHARE (R226). -/
def execShare (c : CoreId) (s : State) : Res := s.done (s.m.dmaLocal c 4 fun q d p part => dmaShare q d p part)
/-- RELEASE (R227). -/
def execRelease (c : CoreId) (s : State) : Res := s.done (s.m.dmaLocal c 5 fun q d p part => dmaRelease q d p part)

/-- RSEND (R233). -/
def execRsend (c : CoreId) (s : State) : Res := s.done (s.m.dmaTake c 6 fun m d => m.rsendStart c d)

/-- RSEND_POLL (R233): rereads the header of a slot found FULL. -/
def execRsendPoll (c : CoreId) (s : State) : Res :=
  s.done (match (s.m.core c).dma with
    | some r =>
      if r.phase ≠ .full then s.m
      else
        let (m1, st) := s.m.readHeader (sendDma c r.desc (s.m.ringPort c)) (dUnit r.desc.bits) (dDst r.desc.bits)
        if st = St.waits then s.m
        else s.m.regulated c <| m1.setDma c (if st = 0 then { r with phase := .header, outstanding := 1 } else { r with phase := .done, status := 0x0C, detail := st })
    | none => s.m)

/-- RSEND_HEADER_WRITE (R233): every payload write has completed. -/
def execRsendHeaderWrite (c : CoreId) (s : State) : Res :=
  s.done (match (s.m.core c).dma with
    | some r => if r.phase = .ready then s.m.regulated c (s.m.rsendSeal c r) else s.m
    | none => s.m)

/-- One look of RWAIT at its slot (R235): a valid header ends it with OK or RING_STEP, anything else leaves it polling. In a
partition that is no ring member the header's RING is held against 255 (DESIGN CHOICE, log entry 114). -/
def Module.rwaitLook (m : Module) (c : Nat) (r : DmaRun) : Module :=
  let d := r.desc.bits
  let (m1, st, l, bad) := m.readSpan (askDma c r.desc.fare) 3 (dSrc d) 64
  if st = St.waits then (m.backOff m1).setDma c r
  else
    let m1 := (m1.kvdPoison c bad.length).forget c
    if st ≠ St.ok ∧ st ≠ St.poisoned then m1.setDma c { r with phase := .done, status := 0x0C, detail := st }
    else
    let f := headNum l
    let ring := match m1.ringOf c with | some x => x.index | none => 255
    if bad.isEmpty ∧ f 0 4 = ringMagic ∧ f 4 1 = 1 ∧ f 6 1 = ring then
      m1.setDma c (if f 8 4 = dN d then { r with phase := .done, seen := 1 }
        else { r with phase := .done, status := 0x10, detail := f 8 4, seen := 1 })
    else m1.setDma c { r with phase := .polling, seen := f 4 1 }

/-- RWAIT (R235). -/
def execRwait (c : CoreId) (s : State) : Res := s.done (s.m.dmaTake c 7 fun m d => m.rwaitLook c ⟨d, .polling, 0, 0, 0, 0⟩)

/-- RWAIT_POLL (R235). -/
def execRwaitPoll (c : CoreId) (s : State) : Res :=
  s.done (match (s.m.core c).dma with
    | some r => if r.phase = .polling then s.m.regulated c (s.m.rwaitLook c r) else s.m
    | none => s.m)

/-- RING_TIMEOUT (R233, R235): an RSEND that finds its slot FULL, or an RWAIT without its block, ends with the STATE found. -/
def execRingTimeout (c : CoreId) (s : State) : Res :=
  s.done (match (s.m.core c).dma with
    | some r =>
      if r.phase = .polling ∨ r.phase = .full then s.m.setDma c { r with phase := .done, status := 0x0F, detail := r.seen } else s.m
    | none => s.m)

/-- RFREE (R235): the slot's STATE becomes EMPTY. -/
def execRfree (c : CoreId) (s : State) : Res :=
  s.done (s.m.dmaTake c 8 fun m d =>
    let (m1, st) := m.writeSpan (askDma c d.fare) (fun _ => false) 2 (dSrc d.bits + 4) [0]
    if st = St.waits then m.dmaWait m1 c d false else m1.dmaEnd c d (if st = St.ok then 0 else 0x0C) st)

/-- DMA_RESERVED_OP (R229): a descriptor with a reserved OP is rejected DESC_INVALID. -/
def execDmaReservedOp (c : CoreId) (s : State) : Res :=
  s.done (match (s.m.core c).dmq with
    | d :: _ => if dOp d.bits > 8 then s.m.dmaTake c (dOp d.bits) fun m _ => m else s.m
    | [] => s.m)

/-- DMA_DESC_COMPLETE (R222): the result word is written and the event counter incremented. -/
def execDmaDescComplete (c : CoreId) (s : State) : Res :=
  s.done (match (s.m.core c).dma with
    | some r =>
      if r.phase ≠ .done then s.m
      else
        let op := dOp r.desc.bits
        let m := s.m.setCore c { s.m.core c with dma := none }
        let m := match r.desc.ev with
          | some e => m.put (scrKey c (0x17_FF80 + 8 * e)) (leBytes 8 (r.status + op * 256 + r.detail % 2 ^ 32 * 2 ^ 32))
          | none => m
        let m := if r.status = 0 then m
          else ((m.wr F.KVD_STS_LAST_STS c r.status).wr F.KVD_STS_LAST_OP c op).wr F.KVD_DETAIL_DETAIL c r.detail
        let m := if r.status = 0 ∧ op = 6 then m.count c 37 1 else if r.status = 0 ∧ op = 7 then m.count c 38 1 else m
        let m := if op = 6 ∨ op = 7 then
            m.record (coreDie c) 6 .core c (op + r.status * 256)
              (if op = 7 then dN r.desc.bits else match m.keyOf (dSrc r.desc.bits + 8) with | some k => m.num k 4 | none => 0)
              (if op = 7 then dSrc r.desc.bits else dDst r.desc.bits)
          else m
        m.descDone c 2 r.status r.desc
    | none => s.m)

/-- Performs a table request on the table of a core's partition (R214); one that must wait is not yet performed. -/
def Module.tableRequest (m : Module) (c : Nat) (act : Asker → PoolEntry → DmaM Unit) : Module :=
  match m.poolOf c with
  | none => m
  | some p =>
    m.regulated c <| match (act (askDma c (m.fareNow c)) p).run m with
    | (.error (st, _), m') => if st = dmaWaits ∨ st = dmaTableWaits then m.backOff m' else m'.forget c
    | (.ok _, m') => m'.forget c

/-- TABLE_POP (R214). -/
def execTablePop (c : CoreId) (k : Nat) (s : State) : Res := s.done (s.m.tableRequest c fun q p => discard (tablePop q p k))
/-- TABLE_INCREF (R214). -/
def execTableIncref (c : CoreId) (billets : List Nat) (s : State) : Res :=
  s.done (s.m.tableRequest c fun q p => discard (tableIncref q p billets))
/-- TABLE_DECREF (R214). -/
def execTableDecref (c : CoreId) (billets : List Nat) (s : State) : Res :=
  s.done (s.m.tableRequest c fun q p => discard (tableDecref q p billets))

end Sys2Proof.Machine
end

