-- ==== Sys2Proof/Machine/Fabric.lean ====
section
/-! DEFINITION. The Twiend fabric below its packets (R418 to R431, R437 to R440, R447 to R459, R461 to R466): link states, frames, the
replay buffer, discovery, routing tables, the survey check and the Datum exchange. -/

namespace Sys2Proof.Machine

/-! ### Answers on the way back (R424, R435, R440) -/

/-- Answers a fabric request toward SUNIT; a posted request and a response get none. -/
def Module.fabReply (m : Module) (x : FabMsg) (status : Nat) (data : List Byte := []) (poison : List Bool := []) : Module :=
  if x.posted || x.response then m
  else
    let p := x.x.p
    if x.x.sunit.toNat = m.unit then m.fabComplete p.src.toNat p.tag status data (poison.any id)
    else
      let r : FabMsg := ⟨if x.kind = 0x08 then 0x0C else 0x0D,
        { dunit := x.x.sunit, sunit := BitVec.ofNat 16 m.unit, hops := 31, op := 0, status := BitVec.ofNat 8 status
          p := { p with data := data, poison := poison } }⟩
      match m.fabRoute x.x.sunit.toNat with
      | .out q => m.assign q r.hop
      | _ => m

/-- A packet that waited on a link of a port finds another link of the port, or another port; where none is usable it is refused. -/
def Module.reassign (m : Module) (p : Nat) (x : FabMsg) : Module :=
  if !(m.carriers p).isEmpty then m.assign p x
  else
    match m.fabRoute x.x.dunit.toNat with
    | .out q => m.assign q x
    | _ => (m.bump F.TWP_NOROUTE_CNT_COUNT p).fabReply x FSt.noRoute

/-! ### Link states (R422 to R424) -/

/-- States of a link (TWL_STS.STATE). -/
def LSt.disabled : Nat := 0
def LSt.down : Nat := 1
def LSt.train : Nat := 2
def LSt.active : Nat := 3
def LSt.retrain : Nat := 4

/-- The port's ACTIVE links. -/
def Module.activeLinks (m : Module) (p : Nat) : List Nat := (List.range 12).filter fun l => m.linkState p l == LSt.active

/-- A port's counts follow its links (R422, R419): event 24 marks a change of the trained count. -/
def Module.portCount (m : Module) (p : Nat) : Module :=
  let old := m.rd F.TWP_STS_HALF_LINKS p
  let new := m.trained p
  let act := m.activeLinks p
  let fec := if act.isEmpty || act.any fun l => m.rd F.TWL_STS_FEC (linkKey p l) == 1 then 1 else 0
  let m := (m.wr F.TWP_STS_HALF_LINKS p new).wr F.TWP_STS_FEC p fec
  if old = new then m else m.event 0 24

/-- A link enters a state with a width: a LINK record, and its port's counts follow. -/
def Module.setLinkState (m : Module) (p l st width : Nat) : Module :=
  let k := linkKey p l
  let old := m.linkState p l
  let m := ((m.wr F.TWL_STS_STATE k st).wr F.TWL_STS_WIDTH k width).wr F.TWL_STS_REPLAY_RUN k 0
  let m := if old = st then m else m.record (p / 2) 0x0B .port p (old + 16 * st) (m.trained p) 0
  m.portCount p

/-- This module wants FEC-L at a port (R421). -/
def Module.wantsL (m : Module) (p : Nat) : Bool := m.platLoaded && bitsAt (m.plat.survey.ports.getD p {}).flags 1 1 == 0

/-- Both ends of a port want FEC-L. -/
def Module.bothWantL (m : Module) (p : Nat) : Bool := m.wantsL p && m.rd F.TWP_NB_VALID p == 1 && m.rd F.TWP_NB_FEC_WANT p == 0

/-- Sends every frame of a link's replay buffer again (R428): all from ACK + 1 on. A link that carries no traffic (R448) and a port whose result is
not OK (R451) send none. -/
def Module.resend (m : Module) (p l : Nat) : Module :=
  if !m.sendsData p l then m
  else (m.link p l).replay.foldl (fun (m : Module) f => m.sendFrame p l Ftype.data f.pair f.seq f.payload) m

/-- The packets assigned to a link of which no unit is sent. -/
def Link.unsent (k : Link) : List FabMsg :=
  (List.range 8).foldl (fun l pair => if Tbl.get 0 k.sent pair = 0 then l else dropPair pair 1 l) k.queue

/-- What becomes of the packets of a link that stops carrying (R424): those not sent are reassigned, the replay buffer is lost. -/
def Module.dropLink (m : Module) (p l : Nat) : Module :=
  let k := m.link p l
  let m := m.setLink p l { k with queue := [], replay := [], sent := [] }
  let m := ((List.range 8).flatMap k.lostOf).foldl (fun (m : Module) x =>
    if x.posted || x.response then m.bump F.TWP_LINKLOST_CNT_COUNT p else m.fabReply x FSt.linkLost) m
  k.unsent.foldl (fun (m : Module) x => m.reassign p x) m

/-- LINK_TRAIN_START (R422): at bring-up, or 1 s after a failed attempt. TRAIN zeroes sequence numbers and credits. -/
def execLinkTrainStart (p : PortId) (l : LinkIdx) (s : State) : Res :=
  let m := s.m
  s.done (if m.linkState p l ≠ LSt.down ∨ m.stage < Stage.localTests ∨ m.rd F.TWL_CTL_DISABLE (linkKey p l) = 1 ∨ m.lockLost.contains (64 + p.val) then m
    else ((m.setLink p l {}).setLinkState p l LSt.train 0).wr F.TWL_STS_FEC (linkKey p l) 1)

/-- LINK_TRAIN_TIMEOUT (R422, R424): no lane has locked. -/
def execLinkTrainTimeout (p : PortId) (l : LinkIdx) (s : State) : Res :=
  let m := s.m
  let st := m.linkState p l
  s.done (if st = LSt.train then m.setLinkState p l LSt.down 0
    else if st = LSt.retrain then (m.setLinkState p l LSt.down 0).dropLink p l
    else m)

/-- An ACTIVE link enters RETRAIN; its frames and state are kept (R423). -/
def Module.retrainLink (m : Module) (p l : Nat) : Module :=
  if m.linkState p l = LSt.active then (m.bump F.TWL_RETRAIN_CNT_COUNT (linkKey p l)).setLinkState p l LSt.retrain 0 else m

/-- A link becomes ACTIVE in a mode of its port, in which every lane of the port runs (R420): one that trains takes the port's, FEC-S where no
other link is ACTIVE; one that retrains brings the mode that both ends want now, and the port's links in the other mode retrain (DEDUCED,
log entry 100). -/
def Module.activate (m : Module) (p l width : Nat) (retrained : Bool) : Module :=
  let others := (m.activeLinks p).filter (· != l)
  let old := m.rd F.TWP_STS_FEC p
  let new := if retrained then (if m.bothWantL p then 0 else 1) else if others.isEmpty then 1 else old
  let m := (m.wr F.TWL_STS_FEC (linkKey p l) new).setLinkState p l LSt.active width
  others.foldl (fun (m : Module) i => if m.rd F.TWL_STS_FEC (linkKey p i) = new then m else m.retrainLink p i) m

/-- LINK_TRAIN_DONE (R420 to R423): lanes have locked (0 lane 0, 1 lane 1, 2 both). A retrained link replays from the last acknowledgement and
goes on. -/
def execLinkTrainDone (p : PortId) (l : LinkIdx) (width : Fin 3) (s : State) : Res :=
  let m := s.m
  let st := m.linkState p l
  s.done (if st = LSt.train then m.activate p l (width + 1) false
    else if st = LSt.retrain then ((m.activate p l (width + 1) true).resend p l).pump p l
    else m)

/-- LINK_RETRAIN (R421, R422): 8 consecutive replays (cause 0), loss of lane lock (1), or a change of FEC mode (2). -/
def execLinkRetrain (p : PortId) (l : LinkIdx) (cause : Fin 3) (s : State) : Res :=
  let m := s.m
  let k := linkKey p l
  let ok := match cause.val with
    | 0 => m.rd F.TWL_STS_REPLAY_RUN k == 8
    | 1 => true
    | _ => m.bothWantL p == (m.rd F.TWL_STS_FEC k == 1)
  s.done (if ok then m.retrainLink p l else m)

/-- A write of TWL_CTL (R422, R463, R466): DISABLE first, then RETRAIN. A disabled link treats its packets as R424 does. -/
def Module.twlCtlWrite (m : Module) (src k : Nat) (v : Word) : Module :=
  if !privileged src then m
  else
    let p := k / 12
    let l := k % 12
    let m := m.writePlain ⟨.TWL_CTL, k, 0⟩ v
    let st := m.linkState p l
    if F.TWL_CTL_DISABLE.of v = 1 then (if st = LSt.disabled then m else (m.setLinkState p l LSt.disabled 0).dropLink p l)
    else
      let m := if st = LSt.disabled then m.setLinkState p l LSt.down 0 else m
      if F.TWL_CTL_RETRAIN.of v = 1 then m.retrainLink p l else m

/-- TWL_RETRAIN (R422): a write of 1 to RETRAIN, DISABLE as it stands. -/
def execTwlRetrain (req : Requester) (p : PortId) (l : LinkIdx) (s : State) : Res :=
  s.done (s.m.twlCtlWrite req.toNat (linkKey p l) (BitVec.ofNat 32 (1 + 2 * s.m.rd F.TWL_CTL_DISABLE (linkKey p l))))
/-- TWL_DISABLE (R422): a write of DISABLE. -/
def execTwlDisable (req : Requester) (p : PortId) (l : LinkIdx) (value : Bool) (s : State) : Res :=
  s.done (s.m.twlCtlWrite req.toNat (linkKey p l) (if value then 2 else 0))

/-- A write of a TWP register (R466). -/
def Module.twpWrite (m : Module) (src : Nat) (r : RegId) (v : Word) : Module :=
  if !privileged src then m
  else if r.reg = .TWP_REG then
    if F.TWP_REG_RATE.of v ≠ 0 ∧ F.TWP_REG_BURST.of v < 10 then m else (m.writePlain r v).wr F.QOS_PUB_STS_STALE 4 1
  else m.writePlain r v

/-! ### Frames that arrive (R419, R425 to R430) -/

/-- An acknowledgement covers what was sent up to it; an advance clears the run of replays. -/
def Module.ackLink (m : Module) (p l ack : Nat) : Module :=
  let k := m.link p l
  let n := (ack + 1 + 1024 - k.base) % 1024
  let sent := (k.next + 1024 - k.base) % 1024
  if n = 0 ∨ sent < n then m
  else
    let keep := k.replay.filter fun f => decide (n ≤ (f.seq + 1024 - k.base) % 1024)
    let m := m.setLink p l { k with base := (ack + 1) % 1024, replay := keep, run := 0 }
    if p = ucpPort then m else m.wr F.TWL_STS_REPLAY_RUN (linkKey p l) 0

/-- A frame's link word returns an acknowledgement and credits (R425, R429); what may now be sent is sent. -/
def Module.linkWord (m : Module) (p l ack cch ccnt : Nat) : Module :=
  let m := m.ackLink p l ack
  let k := m.link p l
  (m.setLink p l { k with spent := Tbl.upd 0 k.spent cch (· - ccnt) }).pump p l

/-- A frame of any type arrives on a link: the module, and whether it passes its CRC. One that fails is discarded and counted; from another
ACK, CCH and CCNT are taken (R426). -/
def Module.frameIn (m : Module) (p l : Nat) (w : BitVec 56) (payload : List Byte) : Module × Bool :=
  if m.linkState p l ≠ LSt.active ∨ m.lockLost.contains (64 + p) then (m, false)
  else if !frameOk w payload then (if p = ucpPort then m.bump F.UCP_CRC_ERR_COUNT 4 else m.bump F.TWL_CRC_ERR_COUNT (linkKey p l), false)
  else (m.linkWord p l (bitsAt w.toNat 15 10) (bitsAt w.toNat 25 3) (bitsAt w.toNat 28 4), true)

/-- Codewords that end on an ACTIVE fabric link, each with its wrong symbols (R419): FEC-L corrects 4, FEC-S 12; one with more does not decode. -/
def Module.fecNote (m : Module) (p l : Nat) (wrong : List Nat) : Module :=
  let k := linkKey p l
  if p = ucpPort ∨ m.linkState p l ≠ LSt.active then m
  else
    let limit := if m.rd F.TWL_STS_FEC k = 0 then 4 else 12
    wrong.foldl (fun (m : Module) n =>
      if n ≤ limit then m.bumpBy F.TWL_FEC_CORR_COUNT k n else m.bump F.TWL_FEC_FAIL_COUNT k) m

/-- A head unit with a reserved kind (R328, R432): it is counted and answered MALFORMED, the answer built from its fields. -/
def Module.reservedKind (m : Module) (p : Nat) (u : List Byte) : Module :=
  let f (o n : Nat) : Nat := leNat ((u.drop o).take n)
  let q : Packet := ⟨BitVec.ofNat 12 (f 2 2), f 4 2, BitVec.ofNat 8 (f 6 1), Fin.ofNat 4 (f 1 1),
    if f 1 1 / 128 = 1 then some (BitVec.ofNat 16 (f 0x0E 2)) else none, f 8 6, f 0x10 2, [], [], {}⟩
  (m.bump F.TWP_MALFORMED_CNT_COUNT p).fabReply
    ⟨f 0 1, ⟨BitVec.ofNat 16 (f 0x18 2), BitVec.ofNat 16 (f 0x1A 2), BitVec.ofNat 8 (f 0x1C 1), BitVec.ofNat 8 (f 0x13 1), 0, q⟩⟩ St.malformed

/-- The units of an accepted frame (R430; `all` where every kind has a row, as at the companion port): data units that the packet under way lacks, pad units, which are discarded, and head units; how many
of them are held, and the head units of reserved kinds, whose packets are discarded. -/
def takeUnits (all : Bool) : List (List Byte) → RxPair → Nat → List (List Byte) → RxPair × Nat × List (List Byte)
  | [], r, n, bad => (r, n, bad)
  | u :: t, r, n, bad =>
    if r.need > 0 then takeUnits all t { r with need := r.need - 1 } (if r.skip then n else n + 1) bad
    else if u.all (· == 0) then takeUnits all t r n bad
    else
      let kind := (u.headD 0).toNat
      let data := (u.getD 0x12 0).toNat
      if all ∨ (0x08 ≤ kind ∧ kind ≤ 0x0D) then takeUnits all t { r with need := data, skip := false } (n + 1) bad
      else takeUnits all t { r with need := data, skip := true } n (bad ++ [u])

/-- An accepted DATA frame of a pair (R427, R429): its units are held for the rows of their packets; a frame of which none is held is free at
once, and its credit goes back. -/
def Module.acceptFrame (m : Module) (p l pair : Nat) (payload : List Byte) : Module :=
  let k := m.link p l
  let units := (List.range 4).map fun i => (payload.drop (64 * i)).take 64
  let (r, n, bad) := takeUnits (p == ucpPort) units (Tbl.get {} k.rx pair) 0 []
  let k := { k with rxNext := (k.rxNext + 1) % 1024, rej := false, rx := Tbl.set {} k.rx pair { r with frames := if n = 0 then r.frames else r.frames ++ [n] }
                    back := if n = 0 then Tbl.upd 0 k.back pair (· + 1) else k.back }
  (bad.foldl (fun (m : Module) u => m.reservedKind p u) (m.setLink p l k)).pump p l

/-- DATA_FRAME (R419, R426, R427, R483): one in sequence is accepted, another is discarded, the first time with a REPLAY. A link that carries no
traffic (R448) and an excluded port (R451) take none. A frame beyond the 32 of its pair is discarded as one out of sequence (DESIGN CHOICE,
log entry 101). Its packets arrive by the rows of their kinds. -/
def execDataFrame (p : FramePort) (l : LinkIdx) (payload : List Byte) (head : BitVec 15) (back : BitVec 17) (crc : BitVec 24)
    (wrong : List Nat) (s : State) : Res :=
  let (m, ok) := (s.m.fecNote p l wrong).frameIn p l (wordOf head back crc) payload
  let pair := bitsAt head.toNat 2 3
  s.done (if !ok ∨ bitsAt head.toNat 0 2 ≠ Ftype.data ∨ !m.linkCarries p l ∨ (p.val ≠ ucpPort ∧ m.rd F.TWP_STS_EXCLUDED p = 1) then m
    else
      let k := m.link p l
      if bitsAt head.toNat 5 10 = k.rxNext ∧ (Tbl.get {} k.rx pair).frames.length < 32 then m.acceptFrame p l pair payload
      else if k.rej then m
      else (m.setLink p l { k with rej := true }).sendLink p l (replayBytes k.rxNext))

/-- IDLE_FRAME (R419, R426). -/
def execIdleFrame (p : FramePort) (l : LinkIdx) (payload : List Byte) (back : BitVec 17) (crc : BitVec 24) (wrong : List Nat) (s : State) : Res :=
  s.done ((s.m.fecNote p l wrong).frameIn p l (wordOf 0 back crc) payload).1

/-- Takes units from the frames held, oldest first: what is left, and how many frames are free. -/
def freeUnits : List Nat → Nat → List Nat × Nat
  | [], _ => ([], 0)
  | f :: t, n => if n < f then ((f - n) :: t, 0) else let (l, j) := freeUnits t (n - f); (l, j + 1)

/-- A packet leaves a port's receive buffer (R429): its units are taken from the lowest-numbered link that holds units of its pair, since the
rows of the packets name no link, and the credits of the frames then free go back (DESIGN CHOICE, log entry 101). -/
def Module.leaveRx (m : Module) (p : Nat) (x : FabMsg) : Module :=
  match (List.range 12).find? fun l => !(Tbl.get {} (m.link p l).rx x.pair).frames.isEmpty with
  | none => m
  | some l =>
    let k := m.link p l
    let r := Tbl.get {} k.rx x.pair
    let (left, j) := freeUnits r.frames x.units
    (m.setLink p l { k with rx := Tbl.set {} k.rx x.pair { r with frames := left }, back := Tbl.upd 0 k.back x.pair (· + j) }).pump p l

/-- A sender that sends DATA frames replays its buffer (R428): the replay and the run of replays are counted. -/
def Module.replayLink (m : Module) (p l : Nat) : Module :=
  let k := linkKey p l
  if !m.sendsData p l then m
  else if p = ucpPort then
    ((m.bump F.UCP_REPLAY_CNT_COUNT 4).setLink p l { m.link p l with run := min 8 ((m.link p l).run + 1) }).resend p l
  else (((m.bump F.TWL_REPLAY_CNT_COUNT k).wr F.TWL_STS_REPLAY_RUN k (min 8 (m.rd F.TWL_STS_REPLAY_RUN k + 1))).resend p l)

/-- REPLAY (R427, R428): every frame from ACK + 1 on is sent again, ACK being the message's own, which covers what comes before FROM. -/
def execReplay (p : FramePort) (l : Arrival) (frm : Fin 1024) (s : State) : Res :=
  let (m, ok) := s.m.frameIn p l.link (arrivalWord l) (replayBytes frm)
  s.done (if ok then m.replayLink p l.link else m)

/-- REPLAY_TIMEOUT (R428): the oldest unacknowledged frame has waited 2 µs. -/
def execReplayTimeout (p : FramePort) (l : LinkIdx) (s : State) : Res :=
  let m := s.m
  s.done (if m.linkState p l ≠ LSt.active ∨ (m.link p l).replay.isEmpty then m else m.replayLink p l)

/-! ### Routing tables (R438, R439, R449) -/

/-- The distance heard through a port to a group (key below 256) or member (256 on), if any; an own survey result other than OK gives
none. -/
def Module.heardDist (m : Module) (p k : Nat) : Option Nat :=
  if m.rd F.TWP_STS_RESULT p ≠ 1 then none
  else match Tbl.get 0 (m.port p).dist k with | 0 => none | n + 1 => some n

/-- PRIMARY, ALTERNATE and DIST of an entry (R439). -/
def Module.tableEntry (m : Module) (k : Nat) : Nat × Nat × Nat :=
  if k = m.unit / 256 then (0xD, 0xF, 0)
  else if k = 256 + m.unit % 256 then (0xE, 0xF, 0)
  else
    let ds := (List.range 8).filterMap fun p => (m.heardDist p k).map fun d => (p, d)
    match ds with
    | [] => (0xF, 0xF, 0x3F)
    | x :: t =>
      let d := t.foldl (fun a y => min a y.2) x.2
      let ps := (ds.filter fun y => y.2 == d).map Prod.fst
      (ps.headD 0xF, (ps.drop 1).headD 0xF, d)

/-- The tables are built anew (R438); the copies of every port are one, held under port 0. Before a module-scope plat there are none. -/
def Module.buildTables (m : Module) : Module :=
  if !m.platLoaded then m
  else
    (List.range 256).foldl (fun (m : Module) i =>
      let (a, b, d) := m.tableEntry i
      let m := m.setWord .TWP_GRP 0 i (BitVec.ofNat 32 (a + b * 16 + d * 256))
      let (a, b, d) := m.tableEntry (256 + i)
      m.setWord .TWP_MBR 0 i (BitVec.ofNat 32 (a + b * 16 + d * 256))) m

/-- VECTOR (R449): the sender's distances are taken through the port, its members only where it is of this module's group. -/
def execVector (p : PortId) (l : Arrival) (src : VectorPart) (dist : List Byte) (s : State) : Res :=
  let unit := src.unit
  let part := src.part
  let (m, ok) := s.m.frameIn p l.link (arrivalWord l) (vectorBytes unit.toNat part dist)
  s.done (if !ok ∨ m.rd F.TWP_STS_RESULT p ≠ 1 ∨ m.rd F.TWP_NB_VALID p = 0 ∨ m.rd F.TWP_NB_UNIT p ≠ unit.toNat
      ∨ (2 ≤ part.val ∧ unit.toNat / 256 ≠ m.unit / 256) then m
    else
      let x := m.port p
      let t := (List.range 128).foldl (fun (t : Tbl Nat) i =>
        let d := (dist.getD i 255).toNat
        Tbl.set 0 t (part.val * 128 + i) (if d < 31 then d + 2 else 0)) x.dist
      (m.setPort p { x with dist := t }).buildTables)

/-- VECTOR_SEND (R449): the four parts of a port whose result is OK, on its lowest-numbered link. -/
def execVectorSend (p : PortId) (s : State) : Res :=
  let m := s.m
  s.done (match m.rd F.TWP_STS_RESULT p == 1, m.carriers p with
    | true, l :: _ =>
      (List.range 4).foldl (fun (m : Module) part =>
        let ds := (List.range 128).map fun i =>
          let k := part * 128 + i
          let (a, d) := if k < 256 then (m.rd F.TWP_GRP_PRIMARY 0 k, m.rd F.TWP_GRP_DIST 0 k)
            else (m.rd F.TWP_MBR_PRIMARY 0 (k - 256), m.rd F.TWP_MBR_DIST 0 (k - 256))
          if a = p.val ∨ d = 0x3F then 0xFF else d
        m.sendLink p l (vectorBytes m.unit part (ds.map (BitVec.ofNat 8)))) m
    | _, _ => m)

/-- DISTANCE_EXPIRY (R449): a distance was not refreshed for 4 ms. -/
def execDistanceExpiry (p : PortId) (idx : Fin 512) (s : State) : Res :=
  let x := s.m.port p
  s.done (s.m.setPort p { x with dist := Tbl.set 0 x.dist idx 0 }).buildTables

/-! ### Neighbours (R447, R448, R457) -/

/-- A master hears another master (R457). -/
def Module.noteMaster (m : Module) (dstate master : Nat) : Module :=
  if m.datState = DSt.master ∧ (dstate = DSt.master ∨ dstate = DSt.locked) ∧ master ≠ m.unit ∧ master ≠ 0xFFFF then
    ((m.wr F.DAT_MM_OTHER 4 master).wr F.DAT_MM_SEEN 4 1).event 0 27
  else m

/-- HELLO (R448): the link counts what it hears; the port's neighbour is what its lowest-numbered ACTIVE link has heard three times in a
row, and reports its Datum state and readiness. -/
def execHello (p : PortId) (l : Arrival) (unit : BitVec 16) (nport : Fin 8) (fecWant : Bool) (dstate : Fin 8) (master : BitVec 16)
    (mhops : Byte) (ready : Bool) (s : State) : Res :=
  let (m, ok) := s.m.frameIn p l.link (arrivalWord l)
    (helloBytes unit.toNat nport l.link (if fecWant then 1 else 0) dstate master.toNat mhops.toNat (if ready then 1 else 0))
  s.done (if !ok then m
    else
      let k := m.link p l.link
      let who := (unit.toNat, nport.val)
      let m := m.setLink p l.link { k with heard := some who, heardN := if k.heard = some who then min 3 (k.heardN + 1) else 1 }
      let m := if (m.activeLinks p).head? = some l.link.val ∧ (m.link p l.link).heardN = 3 then
          (((m.wr F.TWP_NB_UNIT p unit.toNat).wr F.TWP_NB_PORT p nport.val).wr F.TWP_NB_VALID p 1).wr F.TWP_NB_FEC_WANT p (if fecWant then 1 else 0)
        else m
      let m := if m.rd F.TWP_NB_VALID p = 1 ∧ (m.rd F.TWP_NB_UNIT p, m.rd F.TWP_NB_PORT p) = who then
          (m.setPort p { m.port p with dstate := dstate, master := master.toNat, mhops := mhops.toNat, ready := ready }).noteMaster
            dstate master.toNat
        else m
      (m.portCount p).reselect)

/-- HELLO_SEND (R447, R448): HELLO on every ACTIVE link of a port. -/
def execHelloSend (p : PortId) (s : State) : Res :=
  let m := s.m
  s.done ((m.activeLinks p).foldl (fun (m : Module) l =>
    m.sendLink p l (helloBytes m.unit p l (if m.wantsL p then 0 else 1) m.datState (m.rd F.DAT_STS_MASTER 4) (m.rd F.DAT_STS_MHOPS 4)
      (if m.ready then 1 else 0))) m)

/-- NEIGHBOUR_TIMEOUT (R448): a port has heard no HELLO for 4 ms. -/
def execNeighbourTimeout (p : PortId) (s : State) : Res :=
  let m := s.m
  let m := (List.range 12).foldl (fun (m : Module) l => m.setLink p l { m.link p l with heard := none, heardN := 0 }) m
  let m := m.setPort p { m.port p with dstate := 0, master := 65535, mhops := 0, ready := false }
  let m := (((m.wr F.TWP_NB_UNIT p 0xFFFF).wr F.TWP_NB_PORT p 0).wr F.TWP_NB_VALID p 0).wr F.TWP_NB_FEC_WANT p 1
  s.done (m.portCount p).reselect

/-! ### The survey check (R451 to R453) -/

/-- Results of R452. -/
def Sres.ok : Nat := 1
def Sres.unused : Nat := 2
def Sres.exclShort : Nat := 3
def Sres.exclNeighbour : Nat := 4
def Sres.exclFec : Nat := 5
def Sres.exclUnexpected : Nat := 6
def Sres.failShort : Nat := 7
def Sres.failNeighbour : Nat := 8
def Sres.failFec : Nat := 9
def Sres.failRing : Nat := 10
def Sres.failDup : Nat := 11

/-- The result of a port's condition (R451), by the column of an optional port where `opt`. -/
def Module.portCondition (m : Module) (p : Nat) (opt : Bool) : Nat :=
  let e := m.plat.survey.ports.getD p {}
  let valid := m.rd F.TWP_NB_VALID p == 1
  let expected := bitsAt e.flags 2 1 == 1
  if valid ∧ m.rd F.TWP_NB_UNIT p = m.unit then Sres.failDup
  else if !expected then (if valid then Sres.exclUnexpected else Sres.unused)
  else if valid ∧ m.rd F.TWP_NB_FEC_WANT p ≠ bitsAt e.flags 1 1 then (if opt then Sres.exclFec else Sres.failFec)
  else if !valid ∨ m.rd F.TWP_NB_UNIT p ≠ e.nbUnit ∨ m.rd F.TWP_NB_PORT p ≠ e.nbPort then
    (if opt then Sres.exclNeighbour else Sres.failNeighbour)
  else if m.trained p < e.minHalf then (if opt then Sres.exclShort else Sres.failShort)
  else Sres.ok

/-- A port takes a result; a port that is not OK is excluded and runs no Datum exchange (R451, R456). Event 24 marks a change. -/
def Module.setResult (m : Module) (p r : Nat) : Module :=
  if m.rd F.TWP_STS_RESULT p = r then m
  else
    let m := (m.wr F.TWP_STS_RESULT p r).wr F.TWP_STS_EXCLUDED p (if r = Sres.ok then 0 else 1)
    let m := if r = Sres.ok then m
      else ((m.wr F.TWP_DATUM_STATUS p 0).wr F.TWP_DATUM_MISSES p 0).setPort p { m.port p with dreq := none, kept := 0 }
    m.event 0 24

/-- The results after the ring entries are checked: a ring whose next or previous port is not OK with the unit named fails it. -/
def Module.ringResults (m : Module) (rs : List Nat) : List Nat :=
  m.plat.survey.rings.foldl (fun (rs : List Nat) e =>
    let chk (rs : List Nat) (p u : Nat) : List Nat :=
      if rs.getD p 0 = Sres.ok ∧ m.rd F.TWP_NB_UNIT p = u then rs else rs.set p Sres.failRing
    chk (chk rs e.nextPort e.nextUnit) e.prevPort e.prevUnit) rs

/-- SURVEY_CHECK (R450, R451): the check of a loaded plat sets every port's result, and readiness follows. -/
def execSurveyCheck (s : State) : Res :=
  let m := s.m
  s.done (if m.stage ≠ Stage.survey then m
    else
      let rs := m.ringResults ((List.range 8).map fun p => m.portCondition p (bitsAt (m.plat.survey.ports.getD p {}).flags 0 1 == 1))
      let m := (List.range 8).foldl (fun (m : Module) p => m.setResult p (rs.getD p 0)) m
      let pass := !rs.any fun r => decide (Sres.failShort ≤ r)
      let m := ({ m with surveyOk := pass }.event 0 25).buildTables.reselect
      let m := m.evalReady
      if m.ready then m else m.setStage Stage.notReady)

/-- PORT_CONDITION_CHANGE (R453): after the check has passed, a port whose condition is no longer OK takes the EXCL result. -/
def execPortConditionChange (p : PortId) (s : State) : Res :=
  let m := s.m
  let r := m.portCondition p true
  s.done (if !m.surveyOk ∨ r = Sres.ok then m else (m.setResult p r).buildTables.reselect)

/-- PORT_RECOVER (R453): a port's condition has held OK for 100 ms. -/
def execPortRecover (p : PortId) (s : State) : Res :=
  let m := s.m
  s.done (if !m.surveyOk ∨ m.portCondition p true ≠ Sres.ok then m else (m.setResult p Sres.ok).buildTables.reselect)

/-! ### The Datum exchange (R455 to R458) -/

/-- DATUM_EXCHANGE (R455): an OK port sends DREQ on its lowest-numbered link. -/
def execDatumExchange (p : PortId) (s : State) : Res :=
  let m := s.m
  let x := m.port p
  s.done (match m.rd F.TWP_STS_RESULT p == 1, x.dreq, m.carriers p with
    | true, none, l :: _ =>
      let seq := (x.seq + 1) % 65536
      (m.setPort p { x with seq := seq, dreq := some (seq, m.datumOf 4) }).sendLink p l (dreqBytes seq (m.datumOf 4))
    | _, _, _ => m)

/-- DREQ (R455): answered with T2 and T3. -/
def execDreq (p : PortId) (l : Arrival) (seq : BitVec 16) (t1 : DWord) (s : State) : Res :=
  let (m, ok) := s.m.frameIn p l.link (arrivalWord l) (dreqBytes seq.toNat t1.toNat)
  s.done (if ok then m.sendLink p l.link (drspBytes seq.toNat t1.toNat (m.datumOf 4) (m.datumOf 4)) else m)

/-- A sample is discarded (R456): after three in a row the status is LOST. -/
def Module.missSample (m : Module) (p : Nat) : Module :=
  let m := (m.setPort p { m.port p with dreq := none, kept := 0 }).bump F.TWP_DATUM_MISSES p
  (if m.rd F.TWP_DATUM_MISSES p ≥ 3 then m.wr F.TWP_DATUM_STATUS p 2 else m).reselect

/-- A sample is kept (R456): after eight in a row the status is GOOD. -/
def Module.keepSample (m : Module) (p : Nat) (delay : Int) : Module :=
  let n := min 8 ((m.port p).kept + 1)
  let m := (m.setPort p { m.port p with dreq := none, kept := n }).wr F.TWP_DATUM_MISSES p 0
  let m := m.wr F.TWP_DATUM_DELAY p (min 65535 delay.toNat)
  if n = 8 then m.wr F.TWP_DATUM_STATUS p 1 else m

/-- θ as DAT_OFFSET holds it: two's complement, saturating. -/
def thetaWord (t : Int) : Word := BitVec.ofInt 32 (max (-2147483648) (min 2147483647 t))

/-- The module's Datum follows a kept sample of its source (R458). In LOCKED it corrects by rate alone, at most ±100 ppm: towards the source, 12.5 ns
at most within the 125 µs of an exchange, until θ is removed, so that it comes within the ±2 ns of R459 and stays there where its own clock
runs true; the rate within that is a free value (DESIGN CHOICE, log entry 102). -/
def Module.discipline (m : Module) (theta : Int) : Module :=
  let m := m.setWord .DAT_OFFSET 4 0 (thetaWord theta)
  let a := theta.natAbs
  let again : Dat := { m.dat with near := 0, far := 0, first := false, part := 0, todo := 0 }
  if m.datState = DSt.acquire then
    let m := if m.dat.first ∨ 64 < a then
        { (m.stepDatum theta).bump F.DAT_STEP_CNT_COUNT 4 with dat := { m.dat with first := false } } else m
    let near := if a ≤ 2 then m.dat.near + 1 else 0
    let m := { m with dat := { m.dat with near := near, far := 0 } }
    if near ≥ 8 then { m with dat := again }.datMove DSt.locked else m
  else if m.datState = DSt.locked then
    let far := if 64 < a then m.dat.far + 1 else 0
    if far ≥ 2 then { m with dat := again }.datMove DSt.acquire
    else
      let trim := max (-16) (min 16 (Config.datumTrim m.freeCtr).toInt)
      { m with freeCtr := m.freeCtr + 1, dat := { m.dat with far := far, rate := max (-100) (min 100 (8 * theta + trim)), todo := theta } }
  else m

/-- DRSP (R455, R456, R458): the answer to the DREQ under way; θ and the delay follow, and the sample is kept or discarded. -/
def execDrsp (p : PortId) (l : Arrival) (seq : BitVec 16) (t1' : DWord) (turn : Turn) (s : State) : Res :=
  let t2 := turn.t2
  let t3 := turn.t3
  let (m, ok) := s.m.frameIn p l.link (arrivalWord l) (drspBytes seq.toNat t1'.toNat t2.toNat t3.toNat)
  s.done (if m.linkState p l.link ≠ LSt.active then m
    else match (m.port p).dreq with
    | some (n, t1) =>
      if ok ∧ n ≠ seq.toNat then m
      else
        let t4 := m.datumOf 4
        let d (a b : Nat) : Int := (a : Int) - b
        if !ok ∨ d t4 t1 > 1000 then m.missSample p
        else
          let theta := (d t2.toNat t1 - d t4 t3.toNat).tdiv 2
          let delay := (d t4 t1 - d t3.toNat t2.toNat).tdiv 2
          let src := m.rd F.DAT_STS_SRC_VALID 4 == 1 && m.rd F.DAT_STS_SRC_PORT 4 == p.val
          let m := m.keepSample p delay
          (if src then m.discipline theta else m).reselect
    | none => m)

/-- DRSP_TIMEOUT (R456): no matching DRSP within 1 µs. -/
def execDrspTimeout (p : PortId) (s : State) : Res :=
  s.done (if (s.m.port p).dreq.isSome then s.m.missSample p else s.m)

end Sys2Proof.Machine
end

