-- ==== Sys2Proof/Machine/Pcie.lean ====
section
/-! DEFINITION. The PCI Express endpoint's functions (R380 to R383, R389, R393, R394, R412, R416, R417): function pages, MSI-X tables,
resets of the endpoint, configuration requests and the count mirror. -/

namespace Sys2Proof.Machine

/-! ### Function pages -/

/-- The partitions in force that a function serves (R48, R382). -/
def Module.served (m : Module) (f : Nat) : List PartEntry := m.plat.parts.filter fun e => e.fn == f

/-- The lowest number of the partitions that a function serves. -/
def Module.servedLow (m : Module) (f : Nat) : Option Nat :=
  (m.served f).foldl (fun a e => match a with | none => some e.num | some n => some (min n e.num)) none

/-- PCE_FN_STS of a page. -/
def Module.fnSts (m : Module) (f : Nat) : Nat :=
  (match m.servedLow f with | some n => n + 16 | none => 0) + (m.fn f).bar2 * 256

/-- The registers of a function page, with how often each repeats (R416). -/
def pageRegs : List (Reg × Nat) :=
  [(.PCE_RWIN, 1), (.PCE_EVSTS, 1), (.PCE_ERR_STS, 1), (.PCE_ERR_ADDR_LO, 1), (.PCE_ERR_ADDR_HI, 1), (.PCE_PWDROP_CNT, 1),
   (.PCE_MIR_CFG, 1), (.PCE_MIR_ADDR_LO, 1), (.PCE_MIR_ADDR_HI, 1), (.PCE_MIR_SEQ, 1), (.PCE_WIN_LO, 64), (.PCE_WIN_HI, 64)]

/-- Returns a function page to its reset values. -/
def Module.resetPage (m : Module) (f : Nat) : Module :=
  pageRegs.foldl (fun (m : Module) (r, n) => (List.range n).foldl (fun (m : Module) i => m.setWord r f i (r.resetWord i)) m) m

/-- Disables every BAR2 window of a function. -/
def Module.closeWindows (m : Module) (f : Nat) : Module :=
  (List.range 64).foldl (fun (m : Module) w => m.wr F.PCE_WIN_LO_EN f 0 w) m

/-- A function level reset of one function (R389): its page, its configuration and its MSI-X table return to reset, and the staged
packets of the arrival queues it serves are abandoned. The BAR2 size stays. -/
def Module.flrOne (m : Module) (f : Nat) : Module :=
  let m := (m.resetPage f).setFn f { bar2 := (m.fn f).bar2 }
  m.onQueues ((m.served f).foldl (fun a e => a ||| e.arqMap) 0) fun m q => m.setArq q (m.arq q).unstage

/-- A function level reset of every virtual function. -/
def Module.flrVfs (m : Module) : Module := (List.range 8).foldl (fun (m : Module) i => m.flrOne (i + 1)) m

/-- A function level reset (R389): of the physical function, also of every virtual function, and every BAR2 size returns to 16 GiB. -/
def Module.flr (m : Module) (f : Nat) : Module :=
  if f = 0 then (List.range 9).foldl (fun (m : Module) i => m.setFn i { m.fn i with bar2 := 0 }) (m.flrOne 0).flrVfs else m.flrOne f

/-- FUNCTION_LEVEL_RESET (R389). -/
def execFunctionLevelReset (f : FnId) (s : State) : Res := s.done (s.m.flr f)

/-- Clearing VF Enable (R389). -/
def Module.clearVfEnable (m : Module) : Module := (m.setFn 0 { m.fn 0 with vfEn := false }).flrVfs

/-- VF_ENABLE_CLEAR (R389). -/
def execVfEnableClear (s : State) : Res := s.done s.m.clearVfEnable

/-- HOST_LINK_RESET (R389): hot reset, link down, loss of domain P lock or PERST#. -/
def execHostLinkReset (s : State) : Res := s.done (s.m.flr 0)

/-- A write to a Resizable BAR control (R393): the physical function's, or the one that holds every virtual function's size. -/
def Module.resizeBar2 (m : Module) (f k : Nat) : Module :=
  if k > 10 then m
  else (if f = 0 then [0] else [1, 2, 3, 4, 5, 6, 7, 8]).foldl (fun (m : Module) i =>
    (m.setFn i { m.fn i with bar2 := k }).closeWindows i) m

/-- BAR2_RESIZE (R393). -/
def execBar2Resize (f : FnId) (k : Fin 16) (s : State) : Res := s.done (s.m.resizeBar2 f k)

/-! ### MSI-X (R394) -/

/-- Vectors in a function's table. -/
def vectorsOf (f : Nat) : Nat := if f = 0 then 2048 else 64

/-- A word of the MSI-X table as the host reads it: a vector is masked at reset. -/
def Fn.tableWord (x : Fn) (i : Nat) : Word := Tbl.get 0 x.msix i ^^^ (if i % 4 = 3 then 1 else 0)
/-- Writes a word of the MSI-X table; the vector control holds the mask bit alone. -/
def Fn.setTableWord (x : Fn) (i : Nat) (v : Word) : Fn :=
  { x with msix := Tbl.set 0 x.msix i (if i % 4 = 3 then (v &&& 1) ^^^ 1 else if i % 4 = 0 then v &&& 0xFFFF_FFFC else v) }

/-- Pending vectors that may now be sent are sent (the standard's pending bits). -/
def Module.flushPba (m : Module) (f : Nat) : Module :=
  (m.fn f).pba.foldl (fun (m : Module) v =>
    let x := m.fn f
    if x.msixEn && !x.msixMask && m.fnSends f && !x.vecMasked v then
      (m.setFn f { x with pba := NSet.erase x.pba v }).emit (.msix f v)
    else m) m

/-! ### Configuration requests (R380, R501) -/

/-- What a configuration read answers. -/
def Module.configRead (m : Module) (f : Nat) (r : ConfigReg) : Nat :=
  let x := m.fn f
  match r with
  | .vendorId => Config.vendorId.toNat
  | .deviceId => if f = 0 then 0x0940 else 0x0941
  | .classCode => 0x120000
  | .totalVfs => if f = 0 then 8 else 0
  | .busMaster => if x.busMaster then 1 else 0
  | .mps => x.mps
  | .msix => (if x.msixEn then 1 else 0) + (if x.msixMask then 2 else 0)
  | .vfEnable => if x.vfEn then 1 else 0
  | .bar2Size => x.bar2
  | .vfBar2Size => if f = 0 then (m.fn 1).bar2 else 0
  | .vfDeviceId => if f = 0 then 0x0941 else 0
  | .ari => 1
  | .cplRanges => 15
  | .link => if f = 0 then Config.hostLink.1.val + Config.hostLink.2.val * 16 else 0
  | .aer => (if x.aerUr then 2 ^ 20 else 0) + (if x.aerCa then 2 ^ 15 else 0) + (if x.aerEp then 2 ^ 12 else 0)
  | .aerMask => x.aerMask
  | .aerSeverity => x.aerSev
  | .aerCor => x.aerCor
  | .aerCorMask => x.aerCorMask
  | .aerCaps => x.aerFirst - 1
  | .aerHeader i => if x.aerHdr = 0 then 0 else (Config.freeWord (x.aerHdr - 1 + i)).toNat
  | .tags => 3
  | .power => if x.d3 then 3 else 0

/-- What a configuration write does. -/
def Module.configWrite (m : Module) (f : Nat) (r : ConfigReg) (v : Nat) : Module :=
  let x := m.fn f
  match r with
  | .vendorId | .deviceId | .classCode | .totalVfs | .vfDeviceId | .ari | .cplRanges | .link | .tags | .aerCaps | .aerHeader _ => m
  | .busMaster => (m.setFn f { x with busMaster := v % 2 == 1 }).flushPba f
  | .mps => if f = 0 ∧ v ≤ 2 then m.setFn 0 { x with mps := v } else m
  | .msix => (m.setFn f { x with msixEn := v % 2 == 1, msixMask := v / 2 % 2 == 1 }).flushPba f
  | .vfEnable => if f ≠ 0 then m else if v % 2 = 1 then m.setFn 0 { x with vfEn := true } else m.clearVfEnable
  | .bar2Size => if f = 0 then m.resizeBar2 0 v else m
  | .vfBar2Size => if f = 0 then m.resizeBar2 1 v else m
  | .aer =>
    let keep (bit : Nat) : Bool := !Nat.testBit v bit
    let first := x.aerFirst ≠ 0 && Nat.testBit v (x.aerFirst - 1)
    m.setFn f { x with
      aerUr := x.aerUr && keep 20, aerCa := x.aerCa && keep 15, aerEp := x.aerEp && keep 12
      aerFirst := if first then 0 else x.aerFirst, aerHdr := if first then 0 else x.aerHdr }
  | .aerMask => m.setFn f { x with aerMask := v % 2 ^ 32 }
  | .aerSeverity => m.setFn f { x with aerSev := v % 2 ^ 32 }
  | .aerCor => m.setFn f { x with aerCor := x.aerCor &&& (2 ^ 32 - 1 - v % 2 ^ 32) }
  | .aerCorMask => m.setFn f { x with aerCorMask := v % 2 ^ 32 }
  | .power => if v % 4 = 3 then m.setFn f { x with d3 := true } else if v % 4 = 0 then (m.setFn f { x with d3 := false }).flushPba f else m

/-- The endpoint answers requests normally (R501 step 6). -/
def Module.answers (m : Module) : Bool := decide (m.stage ≥ Stage.awaitPlat)

/-- CONFIG_REQUEST (R501): Request Retry Status before AWAIT_PLAT; from then on a read is answered with its value, and a write acts and
is answered. -/
def execConfigRequest (f : FnId) (reg : ConfigReg) (write : Option Nat) (s : State) : Res :=
  let m := s.m
  s.done (if !m.fnOn f then m.emit (.cpl f 1 [] false)
    else if !m.answers then m.emit (.cpl f 3 [] false)
    else match write with
      | some v => (m.configWrite f reg v).emit (.cpl f 0 [] false)
      | none => m.emit (.cpl f 0 (leBytes 4 (m.configRead f reg)) false))

/-! ### Writes of a function page (R416, R417) -/

/-- A write to a register of function page f. -/
def Module.pceWrite (m : Module) (src : Nat) (r : RegId) (v : Word) : Module :=
  let f := r.unit
  if !(privileged src || src == reqHost + f) then m
  else match r.reg with
    | .PCE_RWIN => if f = 0 ∧ bitsAt v.toNat 0 6 < 40 then m.writePlain r v else m
    | .PCE_MIR_CFG =>
      if bitsAt v.toNat 0 1 = 1 ∧ bitsAt v.toNat 16 16 = 0 then m
      else
        let m := if m.rd F.PCE_MIR_CFG_EN f = 0 ∧ bitsAt v.toNat 0 1 = 1 then
            m.setFn f { m.fn f with mirSeq := 0, mirLast := m.datumOf 4 } else m
        m.writePlain r v
    | _ => m.writePlain r v

/-! ### Count mirroring (R412) -/

/-- DPQ_COUNT of a queue (R415). -/
def Module.dpqCount (m : Module) (q : Nat) : Nat :=
  let x := m.dpq q
  packetCount x.words + x.words.length * 2 ^ 16 +
    (match m.dpqPart q with | some e => (if e.compat then 2 ^ 27 else 0) + 2 ^ 28 | none => 0)

/-- ARQ_COUNT of a queue (R414). -/
def Module.arqCount (m : Module) (q : Nat) : Nat :=
  let x := m.arq q
  x.free + packetCount x.words * 2 ^ 16 + (if x.staged.isEmpty then 0 else 2 ^ 27) +
    (match m.arqPart q with | some e => (if e.compat then 2 ^ 28 else 0) + 2 ^ 29 | none => 0)

/-- DPQ_HEAD of a queue (R415). -/
def Module.dpqHead (m : Module) (q : Nat) : Nat :=
  match headPacket (m.dpq q).words with | some (p, _) => p.length - 1 + 2 ^ 31 | none => 0

/-- The departure queues that a function mirrors. -/
def Module.mirrored (m : Module) (f : Nat) : Nat :=
  if f = 0 then 2 ^ 64 - 1 else (m.served f).foldl (fun a e => a ||| e.dpqMap) 0

/-- The record of a sample instant. -/
def Module.mirrorRecord (m : Module) (f seq at' : Nat) : List Byte :=
  leBytes 8 seq ++ leBytes 8 at' ++ leBytes 48 0 ++
  ((List.range 64).map fun q => leBytes 4 (if Nat.testBit (m.mirrored f) q then m.dpqCount q else 0)).flatten ++ leBytes 8 seq ++ leBytes 56 0

/-- MIRROR_SAMPLE (R412): the last sample instant of a mirror, where one has passed since the last: the record is sent, or the instant
is skipped where the previous record has not been wholly sent. Instants passed over count as skipped. -/
def execMirrorSample (f : FnId) (busy : Bool) (s : State) : Res :=
  let m := s.m
  let x := m.fn f
  let p := m.rd F.PCE_MIR_CFG_INTERVAL f * 1000
  let now := m.datumOf 4
  let i := now - now % p
  s.done (if m.rd F.PCE_MIR_CFG_EN f = 0 ∨ p = 0 ∨ !before x.mirLast i then m
    else
      let first := x.mirLast - x.mirLast % p
      let n := (BitVec.ofNat 64 i - BitVec.ofNat 64 first).toNat / p
      let seq := (x.mirSeq + n) % 2 ^ 64
      let m1 := m.setFn f { x with mirSeq := seq, mirLast := i }
      let m2 := if busy || n > 1 then m1.event f 3 else m1
      if busy || !m.fnSends f then m2
      else
        let a := m.rd F.PCE_MIR_ADDR_HI_ADDR f * 2 ^ 32 + m.rd F.PCE_MIR_ADDR_LO_ADDR f * 64
        (m2.wr F.PCE_MIR_SEQ_SEQ f (seq % 2 ^ 32)).emit (.hostWrite f a (m.mirrorRecord f seq i)))

end Sys2Proof.Machine
end

