-- ==== Sys2Proof/Machine/Thermal.lean ====
section
/-! DEFINITION. Housekeeping rounds, throttling, power limits, coolant flow, the trip and hearth mode (R251, R252, R293, R526 to R551). A
temperature is a number of eighths of a degree Celsius. -/

namespace Sys2Proof.Machine

/-! ### Channels and sensors (R527 to R529) -/

/-- The number that a channel's VALUE stands for, two's complement. -/
def chanVal (v : Nat) : Int := (BitVec.ofNat 16 v).toInt

/-- KIND of a channel (R527): 0 temperature, 1 voltage, 2 current, 3 energy, 15 not present. -/
def chanKind (st ch : Nat) : Nat :=
  if st < 4 then (if ch < 62 then 0 else if ch < 66 then 1 else if ch < 70 then 2 else 15)
  else if ch < 8 ∨ (10 ≤ ch ∧ ch < 18) ∨ ch = 24 ∨ ch = 25 ∨ (29 ≤ ch ∧ ch < 37) then 0
  else if ch = 8 ∨ (18 ≤ ch ∧ ch < 21) ∨ ch = 26 then 1
  else if ch = 9 ∨ (21 ≤ ch ∧ ch < 24) ∨ ch = 27 then 2
  else if ch = 28 then 3 else 15

/-- Channels of a station. -/
def chanCount (st : Nat) : Nat := if st < 4 then 70 else 40
/-- Temperature channels of a station. -/
def tempChans (st : Nat) : List Nat := (List.range (chanCount st)).filter fun ch => chanKind st ch == 0

/-- First sensors of the paired points of a station. -/
def pairsOf (st : Nat) : List Nat := if st < 4 then (List.range 31).map (2 * ·) else [0, 2, 4, 6, 24]

/-- The reading of a channel. -/
def Module.chan (m : Module) (st ch : Nat) : Int := chanVal (m.rd F.HSK_CH_VALUE st ch)
/-- A sensor is judged broken. -/
def Module.broken (m : Module) (st ch : Nat) : Bool := m.rd F.HSK_CH_BROKEN st ch != 0
/-- Readings of a sensor since module reset, newest first, at most 65. -/
def Module.history (m : Module) (st ch : Nat) : List Int := (Tbl.get [] m.hsk.hist (st * 128 + ch)).map chanVal

/-- The largest and the smallest of a list. -/
def spanOf (l : List Int) : Int := l.foldl max (l.headD 0) - l.foldl min (l.headD 0)

/-- Neighbours of a sensor (R529). -/
def neighbours (st ch : Nat) : List Nat :=
  if st < 4 then
    let near (u v : Nat) : Bool :=
      if u < 18 then v < 18 && ((u / 3 == v / 3 && (u + 1 == v || v + 1 == u)) || u + 3 == v || v + 3 == u)
      else if u < 26 then 18 ≤ v && v < 26 && (u + 1 == v || v + 1 == u)
      else 26 ≤ v
    (List.range 62).filter fun c => c != ch && (c / 2 == ch / 2 || near (ch / 2) (c / 2))
  else
    let group := if ch < 4 then [0, 1, 2, 3] else if ch < 8 then [4, 5, 6, 7]
      else if ch < 18 then [10, 11, 12, 13, 14, 15, 16, 17] else if ch < 26 then [24, 25] else [29, 30, 31, 32, 33, 34, 35, 36]
    group.filter (· != ch)

/-- A sensor's readings did not change over 64 rounds while an unbroken neighbour's varied by more than 3 °C. -/
def Module.stuck (m : Module) (st ch : Nat) : Bool :=
  let h := m.history st ch
  decide (64 ≤ h.length) && decide (spanOf (h.take 64) = 0) &&
    (neighbours st ch).any fun c => !m.broken st c && decide (spanOf ((m.history st c).take 64) > 24)

/-- The cause for which a sensor is judged broken in this round; 0 none. -/
def Module.judge (m : Module) (shorts : List (DieId × Fin 70)) (st ch : Nat) : Nat :=
  let v := m.chan st ch
  if v < -320 ∨ 1200 < v then 1
  else if shorts.any fun (d, c) => d.val == st && c.val == ch then 2
  else if m.stuck st ch then 3 else 0

/-! ### Units (R531) -/

/-- A throttled unit of a logic die: 0 to 17 hot spots, 18 to 25 layers, 26 to 30 far devices; its register and index. -/
def unitReg (u : Nat) : Reg × Nat := if u < 18 then (.THM_SPOT, u) else if u < 26 then (.THM_LAYER, u - 18) else (.THM_FAR, u - 26)
/-- A field of a unit's register; the three registers have one layout (R550). -/
def Module.unitRd (m : Module) (f : RegField) (d u : Nat) : Nat := m.rd { f with reg := (unitReg u).1 } d (unitReg u).2
/-- Writes a field of a unit's register. -/
def Module.unitWr (m : Module) (f : RegField) (d u v : Nat) : Module := m.wr { f with reg := (unitReg u).1 } d v (unitReg u).2

/-- Class of a unit: 0 logic, 1 DRAM, 2 far. -/
def unitClass (u : Nat) : Nat := if u < 18 then 0 else if u < 26 then 1 else 2
/-- Throttle point. -/
def throttleAt (u : Nat) : Int := if unitClass u = 2 then 720 else 800
/-- Critical limit. -/
def criticalAt (u : Nat) : Int := if unitClass u = 0 then 920 else 840
/-- Floor: the highest level. -/
def floorOf (u : Nat) : Nat := match unitClass u with | 0 => 14 | 1 => 4 | _ => 12

/-- A sensor's reading, the limit where it is broken (R529). -/
def Module.sensor (m : Module) (st ch : Nat) (crit : Int) : Int := if m.broken st ch then crit else m.chan st ch
/-- The reading of a paired point (R528). -/
def Module.pointOf (m : Module) (st a : Nat) (crit : Int) : Int := max (m.sensor st a crit) (m.sensor st (a + 1) crit)
/-- The reading of a unit. -/
def Module.unitTemp (m : Module) (d u : Nat) : Int := m.pointOf d (2 * u) (criticalAt u)
/-- The level of a unit. -/
def Module.level (m : Module) (d u : Nat) : Nat := m.unitRd F.THM_SPOT_LEVEL d u
/-- A unit is held at its floor. -/
def Module.heldUnit (m : Module) (d u : Nat) : Bool := m.unitRd F.THM_SPOT_HELD d u == 1

/-- G (R535). -/
def Module.gLevel (m : Module) : Nat := m.rd F.THM_STS_G 4

/-- A unit takes a level: a THERMAL record, and event 14 where it leaves or reaches 0. -/
def Module.setLevel (m : Module) (d u n : Nat) : Module :=
  let old := m.level d u
  if old = n then m
  else
    let m := m.unitWr F.THM_SPOT_LEVEL d u n
    let m := m.record d 0x0A .hsk d (unitClass u + (unitReg u).2 * 4 + n * 256) (BitVec.ofInt 64 (m.unitTemp d u)).toNat m.gLevel
    if old = 0 ∨ n = 0 then m.event 0 14 else m

/-- The clock skip applied to a core (R533). -/
def Module.skip (m : Module) (c : Nat) : Nat := max (m.level (coreDie c) (spotOf c)) m.gLevel
/-- The level applied to a far device (R533, R536). -/
def Module.farLevel (m : Module) (j : Nat) : Nat := max (m.level (j / 5) (26 + j % 5)) (if m.hsk.capped then 8 else 0)

/-! ### The steps of a round -/

/-- Every channel of a station takes its reading. -/
def Module.sampleStation (m : Module) (l : List (BitVec 16)) (st round : Nat) : Module :=
  (List.range (chanCount st)).foldl (fun (m : Module) ch =>
    if chanKind st ch = 15 then m
    else
      let v := (l.getD ch 0).toNat
      let m := (m.wr F.HSK_CH_VALUE st v ch).wr F.HSK_CH_ROUND st round ch
      let k := st * 128 + ch
      if chanKind st ch = 0 then
        { m with hsk := { m.hsk with hist := Tbl.upd [] m.hsk.hist k fun h => (v :: h).take 65 } }
      else m) m

/-- Every channel takes its reading. -/
def Module.sample (m : Module) (logic : List (List (BitVec 16))) (hub : List (BitVec 16)) (round : Nat) : Module :=
  (List.range 5).foldl (fun (m : Module) st => m.sampleStation (if st < 4 then logic.getD st [] else hub) st round) m

/-- Sensors are judged (R529): a broken sensor's unit is held at its floor. -/
def Module.judgeAll (m : Module) (shorts : List (DieId × Fin 70)) : Module :=
  let found := (List.range 5).flatMap fun st => (tempChans st).filterMap fun ch =>
    let c := m.judge shorts st ch
    if !m.broken st ch && c != 0 then some (st, ch, c) else none
  found.foldl (fun (m : Module) ((st, ch, c) : Nat × Nat × Nat) =>
    let m := (m.wr F.HSK_CH_BROKEN st c ch).event 0 13
    if st < 4 then (m.unitWr F.THM_SPOT_HELD st (ch / 2) 1).setLevel st (ch / 2) (floorOf (ch / 2)) else m) m

/-- Pairs that disagree (R528). -/
def Module.comparePairs (m : Module) : Module :=
  (List.range 5).foldl (fun (m : Module) st => (pairsOf st).foldl (fun (m : Module) a =>
    let k := st * 128 + a
    let put (m : Module) (x y : Nat) : Module :=
      { m with hsk := { m.hsk with apart := Tbl.set 0 m.hsk.apart k x, close := Tbl.set 0 m.hsk.close k y } }
    let mark (m : Module) (b : Nat) : Module := (m.wr F.HSK_CH_DISAGREE st b a).wr F.HSK_CH_DISAGREE st b (a + 1)
    if m.broken st a || m.broken st (a + 1) then put m 0 0
    else if (m.chan st a - m.chan st (a + 1)).natAbs > 48 then
      let n := min 4 (Tbl.get 0 m.hsk.apart k + 1)
      let m := put m n 0
      if n = 4 ∧ m.rd F.HSK_CH_DISAGREE st a = 0 then (mark m 1).event 0 12 else m
    else
      let n := min 4 (Tbl.get 0 m.hsk.close k + 1)
      let m := put m 0 n
      if n = 4 then mark m 0 else m) m) m

/-- Sensors of a class of R541, as station and channel. -/
def rorSensors (c : Nat) : List (Nat × Nat) :=
  let logic (a n : Nat) : List (Nat × Nat) := (List.range 4).flatMap fun d => (List.range n).map fun i => (d, a + i)
  match c with
  | 0 => logic 0 36 ++ [(4, 0), (4, 1), (4, 2), (4, 3)]
  | 1 => logic 36 16
  | 2 => logic 52 10
  | 3 => [(4, 6), (4, 7)]
  | _ => [(4, 24), (4, 25)]

/-- The class of R541 of a sensor; 0xFF where it has none. -/
def rorClass (st ch : Nat) : Nat := ((List.range 5).find? fun c => (rorSensors c).contains (st, ch)).getD 0xFF

/-- A rate over a window of n rounds is met by an unbroken sensor (R541). -/
def Module.rorMet (m : Module) (rate n : Nat) (x : Nat × Nat) : Bool :=
  let h := m.history x.1 x.2
  !m.broken x.1 x.2 && decide (n < h.length) && decide ((h.getD 0 0 - h.getD n 0) * 125 ≥ 2 * rate * n)

/-- Rate-of-rise alarms (R541). -/
def Module.rorAlarms (m : Module) (round : Nat) : Module :=
  (List.range 5).foldl (fun (m : Module) c =>
    let rate := m.rd F.THM_ROR_A_RATE 4 c
    let n := m.rd F.THM_ROR_A_WIN 4 c + 1
    if rate = 0 then m
    else ((rorSensors c).filter (m.rorMet rate n)).foldl (fun (m : Module) ((st, ch) : Nat × Nat) =>
      let m := ((m.wr F.THM_STS_ROR_ALARM 4 1).wr F.THM_LAST_ROR_DIE 4 st).wr F.THM_LAST_ROR_CLASS 4 c
      ((m.wr F.THM_LAST_ROR_CHANNEL 4 ch).wr F.THM_LAST_ROR_ROUND 4 round).event 0 15) m) m

/-! ### Power (R535, R536) -/

/-- The variant's input power limit in W (R2). -/
def Module.pLim (m : Module) : Nat := match m.fuses.variant with | 0 => 2000 | 1 => 1400 | _ => 1000
/-- The limit in force: half of it while both sensors of a coolant point are broken (R530). -/
def Module.pLimNow (m : Module) : Nat := if m.rd F.THM_STS_HALF_LIMIT 4 = 1 then m.pLim / 2 else m.pLim

/-- The sum and the number of the last rounds' P_in that a mean takes, in 0.1 mW. -/
def Module.pSum (m : Module) (n : Nat) : Nat × Nat := let l := m.hsk.pin.take n; (l.foldl (· + ·) 0, max 1 l.length)

/-- P_avg exceeds the limit. -/
def Module.overPower (m : Module) : Bool := let (s, n) := m.pSum 4; decide (s > m.pLimNow * 10000 * n)
/-- P_avg lies below 0.95 of the limit. -/
def Module.underPower (m : Module) : Bool := let (s, n) := m.pSum 4; decide (s * 100 < 95 * m.pLimNow * 10000 * n)

/-- P_in of the round joins its mean, with the rounds that POWER_UNHELD and the trip count (R536). -/
def Module.readPower (m : Module) : Module :=
  let p := m.rd F.HSK_CH_VALUE 4 8 * m.rd F.HSK_CH_VALUE 4 9
  let m := { m with hsk := { m.hsk with pin := (p :: m.hsk.pin).take 16 } }
  let (s, n) := m.pSum 4
  let high := if m.overPower && m.gLevel == 12 then m.hsk.powHigh + 1 else 0
  { m with hsk := { m.hsk with powHigh := high } }.wr F.HSK_PIN_P_AVG 4 (min 65535 (s / (n * 10000)))

/-- P_avg exceeds the limit at level g (R535, R536). -/
def Module.raiseG (m : Module) (g : Nat) : Module :=
  let x := { m with hsk := { m.hsk with powLow := 0 } }
  let x := if g < 12 then x.wr F.THM_STS_G 4 (g + 1) else x
  let x := if g = 0 then x.event 0 17 else x
  if m.hsk.powHigh < 50 ∨ m.rd F.THM_STS_POWER_UNHELD 4 = 1 then x
  else ({ x with hsk := { x.hsk with capped := true } }.wr F.THM_STS_POWER_UNHELD 4 1).event 0 17

/-- P_avg has stayed below 0.95 of the limit at level g: after 8 rounds G falls, and the cap of R536 is lifted. -/
def Module.lowerG (m : Module) (g n : Nat) : Module :=
  if n < 8 ∨ g = 0 then { m with hsk := { m.hsk with powLow := n } }
  else
    let x := { m with hsk := { m.hsk with powLow := 0, capped := false } }
    let x := (x.wr F.THM_STS_G 4 (g - 1)).wr F.THM_STS_POWER_UNHELD 4 0
    if g = 1 then x.event 0 17 else x

/-- The global level follows P_avg (R535, R536). -/
def Module.limitPower (m : Module) : Module :=
  if m.overPower then m.raiseG m.gLevel
  else if m.underPower then m.lowerG m.gLevel (m.hsk.powLow + 1)
  else { m with hsk := { m.hsk with powLow := 0 } }

/-! ### Coolant (R537 to R539) -/

/-- Readings of the unbroken sensors of a coolant point. -/
def Module.coolant (m : Module) (a : Nat) : List Int := ([a, a + 1].filter fun c => !m.broken 4 c).map (m.chan 4)
/-- The inlet or outlet reading: the higher of its unbroken sensors; its first sensor's where both are broken. -/
def Module.coolantTemp (m : Module) (a : Nat) : Int :=
  match m.coolant a with | x :: t => t.foldl max x | [] => m.chan 4 a
/-- Both sensors of the inlet or of the outlet are broken. -/
def Module.coolantBlind (m : Module) : Bool := (m.coolant 4).isEmpty || (m.coolant 6).isEmpty

/-- The outlet rise of the round joins its mean. -/
def Module.readRise (m : Module) : Module :=
  let low := match m.coolant 4 with | x :: t => t.foldl min x | [] => m.chan 4 4
  { m with hsk := { m.hsk with rise := ((m.coolantTemp 6 - low) :: m.hsk.rise).take 16 } }

/-- The sum and the number of the outlet rises that RISE takes. -/
def Module.riseSum (m : Module) : Int × Nat := (m.hsk.rise.foldl (· + ·) 0, max 1 m.hsk.rise.length)

/-- Q as a fraction of 0.01 L/min; none while it reads invalid (R537, R530). -/
def Module.flowFrac (m : Module) : Option (Nat × Nat) :=
  let (p, n) := m.pSum 16
  let (r, k) := m.riseSum
  if m.coolantBlind ∨ p < 1500000 * n ∨ r < 8 * k then none
  else some (p * 480 * k, n * 10000 * m.rd F.THM_FLOW_CFG_CV 4 * r.toNat)

/-- The flow estimate and alarm, the inlet range and the half limit (R530, R537, R538). -/
def Module.judgeFlow (m : Module) : Module :=
  let nom := m.rd F.THM_FLOW_CFG_NOMINAL 4
  let (r, k) := m.riseSum
  let m := m.wr F.THM_FLOW_RISE 4 (BitVec.ofInt 16 (r / k)).toNat
  let t := m.coolantTemp 4
  let inl := if t < 120 ∨ 360 < t then min 4 (m.hsk.inlet + 1) else 0
  let m := { m with hsk := { m.hsk with inlet := inl } }
  let m := if inl = 4 ∧ m.rd F.THM_STS_INLET_RANGE 4 = 0 then (m.wr F.THM_STS_INLET_RANGE 4 1).event 0 16 else m
  let alarm (m : Module) : Module := if m.rd F.THM_STS_FLOW_ALARM 4 = 0 then (m.wr F.THM_STS_FLOW_ALARM 4 1).event 0 16 else m
  match m.flowFrac with
  | none =>
    let m := { m with hsk := { m.hsk with flowLow := 0, flowHigh := 0 } }.wr F.THM_FLOW_ESTIMATE 4 0xFFFF
    if m.coolantBlind then alarm (m.wr F.THM_STS_HALF_LIMIT 4 1) else m
  | some (a, b) =>
    let low := if a * 100 < 70 * nom * b then min 4 (m.hsk.flowLow + 1) else 0
    let high := if 75 * nom * b ≤ a * 100 then min 64 (m.hsk.flowHigh + 1) else 0
    let m := { m with hsk := { m.hsk with flowLow := low, flowHigh := high } }.wr F.THM_FLOW_ESTIMATE 4 (min 0xFFFE (a / b))
    if low = 4 then alarm m else if high = 64 then m.wr F.THM_STS_FLOW_ALARM 4 0 else m

/-- The rise hold (R539), of no die whose hub link is down; `risen` are the units that have risen in this round (R533). -/
def Module.riseHold (m : Module) (risen : List Nat) : Module :=
  let lim : Int := 8 * (m.rd F.THM_FLOW_CFG_RISE_MAX 4 : Int)
  let (r, k) := m.riseSum
  let acting := m.rd F.THM_STS_FLOW_ALARM 4 == 1 && decide (r > lim * k)
  let cool := if r < (lim - 8) * k then m.hsk.holdCool + 1 else 0
  let m := { m with hsk := { m.hsk with holdCool := cool } }
  let m := if !acting then m
    else
      let spots := ((List.range 4).filter fun d => m.d2dUp (2 + d)).flatMap fun d => (List.range 18).map fun j => (d, j)
      match spots.foldl (fun (best : Option (Nat × Nat)) x =>
          match best with
          | none => some x
          | some b => if m.unitTemp b.1 b.2 < m.unitTemp x.1 x.2 then some x else best) none with
      | some (d, j) =>
        if risen.contains (d * 32 + j) ∨ m.level d j ≥ 14 then m
        else { (m.setLevel d j (m.level d j + 1)) with hsk := { m.hsk with raised := (d * 32 + j) :: m.hsk.raised } }
      | none => m
  let m := if cool < 8 then m
    else match m.hsk.raised.find? fun x => m.d2dUp (2 + x / 32) with
      | none => m
      | some x =>
        let m := { m with hsk := { m.hsk with raised := m.hsk.raised.erase x, holdCool := 0 } }
        if m.heldUnit (x / 32) (x % 32) then m else m.setLevel (x / 32) (x % 32) (m.level (x / 32) (x % 32) - 1)
  m.wr F.THM_STS_RISE_HOLD 4 (if acting || !m.hsk.raised.isEmpty then 1 else 0)

/-! ### Units at the end of a round (R532, R251, R252, R546, R547) -/

/-- A die's station throttles its units (R532): the module, and the unit that rose. -/
def Module.throttle (m : Module) (d : Nat) : Module × List Nat :=
  let us := List.range 31
  let m := us.foldl (fun (m : Module) u =>
    let k := d * 32 + u
    let n := if m.unitTemp d u < throttleAt u - 24 then min 8 (Tbl.get 0 m.hsk.cool k + 1) else 0
    { m with hsk := { m.hsk with cool := Tbl.set 0 m.hsk.cool k n } }) m
  let m' := us.foldl (fun (m : Module) u =>
    if Tbl.get 0 m.hsk.cool (d * 32 + u) = 8 ∧ m.level d u > 0 ∧ !m.heldUnit d u then
      { m with hsk := { m.hsk with cool := Tbl.set 0 m.hsk.cool (d * 32 + u) 0 } }.setLevel d u (m.level d u - 1)
    else m) m
  match (us.filter fun u => decide (throttleAt u ≤ m.unitTemp d u)).foldl (fun (best : Option Nat) u =>
      match best with
      | none => some u
      | some b => if m.unitTemp d b - throttleAt b < m.unitTemp d u - throttleAt u then some u else best) none with
  | some u => if m.level d u < floorOf u ∧ !m.heldUnit d u then (m'.setLevel d u (m.level d u + 1), [d * 32 + u]) else (m', [])
  | none => (m', [])

/-- The refresh band of a temperature (R251). -/
def bandOf (t : Int) : Nat := if t < 680 then 0 else if t < 760 then 1 else 2

/-- The refresh state of a die's layers and far devices (R252, R293). -/
def Module.refreshBands (m : Module) (d : Nat) : Module :=
  ((List.range 13).map (· + 18)).foldl (fun (m : Module) u =>
    let k := d * 32 + u
    let t := m.unitTemp d u
    let st := m.unitRd F.THM_SPOT_REFRESH d u
    let note (m : Module) (n : Nat) : Module := { m with hsk := { m.hsk with band := Tbl.set 0 m.hsk.band k n } }
    if bandOf t > st then (note m 0).unitWr F.THM_SPOT_REFRESH d u (bandOf t)
    else if st > 0 ∧ t ≤ (if st = 1 then 680 else 760) - 24 then
      let n := Tbl.get 0 m.hsk.band k + 1
      if n ≥ 16 then (note m 0).unitWr F.THM_SPOT_REFRESH d u (st - 1) else note m n
    else note m 0) m

/-- Keep-warm duty of a die's hot spots (R546). -/
def Module.hearth (m : Module) (d : Nat) : Module :=
  let floor : Int := 8 * (m.rd F.THM_HEARTH_FLOOR 4 : Int)
  let warm := (List.range 144).filterMap fun i => match m.partOf (144 * d + i) with
    | some p => if p.kind = 2 then some (spotOf (144 * d + i)) else none
    | none => none
  (List.range 18).foldl (fun (m : Module) j =>
    let u := m.rd F.THM_SPOT_DUTY d j
    let t := m.unitTemp d j
    if !warm.contains j then m.wr F.THM_SPOT_DUTY d 0 j
    else if t < floor then m.wr F.THM_SPOT_DUTY d (min 16 (u + 1)) j
    else if t ≥ floor + 16 then m.wr F.THM_SPOT_DUTY d (u - 1) j
    else m) m

/-- A die's highest hot-spot reading. -/
def Module.hottestSpot (m : Module) (d : Nat) : Int := ((List.range 18).map (m.unitTemp d)).foldl max (m.unitTemp d 0)

/-- Excursions (R547): the reference is the first round's reading after bring-up. -/
def Module.excursion (m : Module) (d : Nat) : Module :=
  let t := m.hottestSpot d
  let set (m : Module) : Module := { m with hsk := { m.hsk with ref := Tbl.set 0 m.hsk.ref d (t + 32769).toNat } }
  if m.stage < Stage.awaitPlat then m
  else
    let r := Tbl.get 0 m.hsk.ref d
    if r = 0 then set m
    else if (t + 32769 - r).natAbs > 240 then set { m with life := { m.life with exc := min (2 ^ 32 - 1) (m.life.exc + 1) } }
    else m

/-- What a die's registers show of the round. -/
def Module.publishUnits (m : Module) (d : Nat) : Module :=
  let m := (List.range 31).foldl (fun (m : Module) u => m.unitWr F.THM_SPOT_TEMP d u (BitVec.ofInt 16 (m.unitTemp d u)).toNat) m
  let cs := tempChans d
  let m := m.wr F.HSK_STS_BROKEN d (cs.filter (m.broken d)).length
  let m := m.wr F.HSK_STS_DISAGREE d (cs.filter fun c => m.rd F.HSK_CH_DISAGREE d c == 1).length
  if (List.range 31).any fun u => decide (m.level d u > 0) then m.bump F.THM_THR_CNT_COUNT d else m

/-! ### The trip (R540 to R545) -/

/-- The companion die reads its trip temperature (R540): an unbroken sensor of it does, for a broken one never causes a trip (R530). -/
def Module.compHot (m : Module) (crit : Int) : Bool := [24, 25].any fun c => !m.broken 4 c && decide (crit ≤ m.chan 4 c)

/-- What trips the module: CAUSE, DIE, CHANNEL, CLASS, READING and RATE of R545. -/
structure TripCause where
  cause : Nat
  die : Nat
  channel : Nat
  cls : Nat
  reading : Int
  rate : Nat
  deriving DecidableEq, Repr

/-- The first trip condition that holds at the end of a round, by cause and then by class, station and channel. -/
def Module.tripCause (m : Module) : Option TripCause :=
  let twice (st ch : Nat) (lim : Int) : Bool :=
    let h := m.history st ch
    !m.broken st ch && decide (2 ≤ h.length) && decide (lim ≤ h.getD 0 0)
  let ror := (List.range 5).findSome? fun c =>
    let n := m.rd F.THM_ROR_T_WIN 4 c + 1
    ((rorSensors c).find? (m.rorMet (m.rd F.THM_ROR_T_RATE 4 c) n)).map fun (st, ch) =>
      let h := m.history st ch
      (⟨1, st, ch, c, h.getD 0 0, ((h.getD 0 0 - h.getD n 0) * 125 / (2 * n)).toNat⟩ : TripCause)
  let far := (List.range 20).findSome? fun j =>
    let d := j / 5
    let a := 52 + 2 * (j % 5)
    let prev := [a, a + 1].any fun c => !m.broken d c && decide (840 ≤ (m.history d c).getD 1 0)
    if prev then ([a, a + 1].find? fun c => twice d c 840).map fun c => (⟨3, d, c, 2, m.chan d c, 0⟩ : TripCause) else none
  let stage := ((List.range 8).find? fun i => twice 4 (10 + i) 1000 && decide (1000 ≤ (m.history 4 (10 + i)).getD 1 0)).map fun i =>
    (⟨4, 4, 10 + i, 0xFF, m.chan 4 (10 + i), 0⟩ : TripCause)
  let power := if m.hsk.powHigh ≥ 100 then some (⟨5, 0xFF, 0xFF, 0xFF, 0, 0⟩ : TripCause) else none
  let comp := if m.hsk.comp ≥ 2 then
      let c := if m.broken 4 24 || (!m.broken 4 25 && decide (m.chan 4 24 < m.chan 4 25)) then 25 else 24
      some (⟨6, 4, c, 4, m.chan 4 c, 0⟩ : TripCause)
    else none
  ror <|> far <|> stage <|> power <|> comp

/-- The thermal record (R545). -/
def Module.thermalRecord (m : Module) (t : TripCause) : List Byte :=
  let b2 (x : Int) : List Byte := leBytes 2 (BitVec.ofInt 16 x).toNat
  let hot (st : Nat) : Int := if st < 4 then ((List.range 31).map (m.unitTemp st)).foldl max (m.unitTemp st 0)
    else max (m.pointOf 4 0 920) (m.pointOf 4 2 920)
  leBytes 1 t.cause ++ leBytes 1 t.die ++ leBytes 1 t.channel ++ leBytes 1 t.cls ++ leBytes 4 (m.rd F.HSK_ROUND_ROUND 4)
    ++ leBytes 8 (m.datumOf 4) ++ b2 t.reading ++ leBytes 2 t.rate ++ leBytes 2 (m.rd F.HSK_PIN_P_AVG 4) ++ b2 (m.coolantTemp 4)
    ++ b2 (m.coolantTemp 6) ++ leBytes 2 (m.rd F.THM_FLOW_ESTIMATE 4) ++ leBytes 1 m.gLevel ++ leBytes 3 0
    ++ ((List.range 5).map fun st => b2 (hot st)).flatten ++ leBytes 22 0

/-- A trip (R543, R544): the module loses everything but what stands on the standby supply, whose registers and Ledger go on; a transfer
is abandoned (R583), and the thermal record and the lifetime counters are to be written. -/
def Module.trip (m : Module) (t : TripCause) : Module :=
  let rec' := m.thermalRecord t
  let x := m.kept false true
  let x := { x with
    ledger := m.ledger
    svc := { m.svc with att := none, trip := some m.now, record := some rec' }
    life := { m.life with trips := m.life.trips + 1 } }
  let x := ((x.setWord .SVC_STS 4 0 (m.word .SVC_STS 4)).setWord .FWU_OWNER 4 0 (m.word .FWU_OWNER 4)).setWord .LDG_STS 4 0 (m.word .LDG_STS 4)
  x.dropTransfer.issueLife

/-- COMPARATOR_TRIP (R542): the comparator of a logic-die, DRAM-layer or hub temperature sensor crosses its threshold. -/
def execComparatorTrip (station : DieId) (channel : Fin 70) (s : State) : Res :=
  let m := s.m
  s.done (if m.stage = 0 ∨ chanKind station channel ≠ 0 ∨ (station.val < 4 ∧ channel.val ≥ 52) then m
    else m.trip ⟨2, station, channel, rorClass station channel, m.chan station channel, 0⟩)

/-- THERMAL_RECORD_WRITTEN (R543 step 5): the trip's record becomes valid in the Ledger. -/
def execThermalRecordWritten (s : State) : Res :=
  s.done (match s.m.svc.record with
    | some r => { s.m with svc := { s.m.svc with record := none } }.appendRec 1 r
    | none => s.m)

/-- What the hub judges of the readings of a round. -/
def Module.judgeRound (m : Module) (shorts : List (DieId × Fin 70)) (round : Nat) : Module :=
  let m := ((m.judgeAll shorts).comparePairs).rorAlarms round
  let m := { m with svc := { m.svc with holdup := some (m.rd F.HSK_CH_VALUE 4 28) } }
  let crit : Int := 8 * (m.rd F.THM_COMP_CRIT_CRIT 4 : Int)
  let m := { m with hsk := { m.hsk with comp := if m.compHot crit then m.hsk.comp + 1 else 0 } }
  (m.readPower.readRise.judgeFlow).wr F.HSK_ROUND_ROUND 4 (round + 1)

/-- What the stations and the hub read and judge in a round, before they act on it. -/
def Module.roundRead (m : Module) (logic : List (List (BitVec 16))) (hub : List (BitVec 16)) (shorts : List (DieId × Fin 70)) : Module :=
  (m.sample logic hub (m.rd F.HSK_ROUND_ROUND 4)).judgeRound shorts (m.rd F.HSK_ROUND_ROUND 4)

/-- HOUSEKEEPING_ROUND (R526 to R547): every station samples its channels and acts at the end of the round; where a trip condition
holds, the trip is performed and the throttle step is not (R543). -/
def execHousekeepingRound (logic : List (List (BitVec 16))) (hub : List (BitVec 16)) (shorts : List (DieId × Fin 70)) (s : State) : Res :=
  s.done (if s.m.stage = 0 then s.m
    else
      let m := s.m.roundRead logic hub shorts
      match m.tripCause with
      | some t => m.trip t
      | none =>
        let (m, risen) := (List.range 4).foldl (fun ((m, r) : Module × List Nat) d => let (m, x) := m.throttle d; (m, r ++ x)) (m, [])
        let m := m.limitPower.riseHold risen
        (List.range 4).foldl (fun (m : Module) d => (((m.refreshBands d).hearth d).excursion d).publishUnits d) m)

/-! ### Writes (R551) -/

/-- A write of a THM register of the hub. -/
def Module.thmWrite (m : Module) (src : Nat) (r : RegId) (v : Word) : Module :=
  if !privileged src then m
  else match r.reg with
    | .THM_ROR => if F.THM_ROR_T_RATE.of v = 0 then m else m.writePlain r v
    | .THM_FLOW_CFG =>
      let rise := F.THM_FLOW_CFG_RISE_MAX.of v
      if F.THM_FLOW_CFG_NOMINAL.of v = 0 ∨ F.THM_FLOW_CFG_CV.of v = 0 ∨ rise < 2 ∨ 40 < rise then m else m.writePlain r v
    | .THM_HEARTH => let f := F.THM_HEARTH_FLOOR.of v; if f < 30 ∨ 60 < f then m else m.writePlain r v
    | .THM_COMP_CRIT => let c := F.THM_COMP_CRIT_CRIT.of v; if c < 60 ∨ 125 < c then m else m.writePlain r v
    | _ => m.writePlain r v

end Sys2Proof.Machine
end

