-- ==== Sys2Proof/Machine/Clock.lean ====
section
/-! DEFINITION. Loss and return of lock in the clock domains (R29, R32, R548, R549). -/

namespace Sys2Proof.Machine

/-- The number under which a domain's loss of lock is held. -/
def domainId : Domain → Nat
  | .a d => 4 * d
  | .n d => 4 * d + 1
  | .m d => 4 * d + 2
  | .f j => 32 + j
  | .l p => 64 + p
  | .p => 80
  | .s => 81
  | .d d => 88 + d
  | .u => 96
  | .k st => 104 + st

/-- Housekeeping raises the clock-loss event and names the domain (R548); domain S names none. -/
def Module.noteClock (m : Module) (d : Domain) : Module :=
  let m := match d with
    | .a d => m.orBits F.HSK_CLKLOSS_DOM_A 4 (2 ^ d.val)
    | .n d => m.orBits F.HSK_CLKLOSS_DOM_N 4 (2 ^ d.val)
    | .m d => m.orBits F.HSK_CLKLOSS_DOM_M 4 (2 ^ d.val)
    | .f j => m.orBits F.HSK_CLKLOSS_F_DOM_F 4 (2 ^ j.val)
    | .l p => m.orBits F.HSK_CLKLOSS_DOM_L 4 (2 ^ p.val)
    | .p => m.orBits F.HSK_CLKLOSS_DOM_P 4 1
    | .s => m
    | .d _ => m.orBits F.HSK_CLKLOSS_DOM_D 4 1
    | .u => m.orBits F.HSK_CLKLOSS_DOM_U 4 1
    | .k st => m.orBits F.HSK_CLKLOSS_DOM_K 4 (2 ^ stationLink st)
  m.event 0 11

/-- Every core of a die stops with the clock-loss fault. No instruction caused it: SEQ_PC holds that of the one last executed (DESIGN CHOICE, log
entry 94). -/
def Module.stopDie (m : Module) (d : Nat) : Module :=
  (List.range 144).foldl (fun (m : Module) i =>
    m.coreFault (144 * d + i) Flt.clockLoss 0 0 (m.core (144 * d + i)).lastPc) m

/-- What the loss of a domain's lock does beside the event (R32). -/
def Module.loseClock (m : Module) (d : Domain) : Module :=
  let x := { m with lockLost := NSet.insert m.lockLost (domainId d) }
  match d with
  | .a d | .m d => (x.stopDie d).settle m .other d
  | .n d => (if d.val < 4 then x.stopDie d else x).settle m .other d
  | .f _ => x
  | .l p => (x.portCount p).reselect
  | .p => x.flr 0
  | .s => x
  | .d d => if d.val = 4 then x.noSource.datMove DSt.free else x.wr F.DAT_DSTS_TRACK d 0
  | .u => if x.ucpState = Ucp.absent ∨ x.ucpState = Ucp.disabled then x else x.setUcp Ucp.down
  | .k st => x.d2dRetrain (stationLink st)

/-- CLOCK_LOSS (R32). Loss of domain S makes the hub's watchdog reset the module. A module without power has no clock to lose. -/
def execClockLoss (d : Domain) (s : State) : Res :=
  let m := s.m
  s.done (if m.stage = 0 ∨ m.lockLost.contains (domainId d) then m
    else if d = .s then m.moduleReset true
    else (m.noteClock d).loseClock d)

/-- A domain of a logic die is in lock again: what waited for it goes on, and reads that a slice held. -/
def Module.lockBack (m : Module) (d : Nat) : Module :=
  (List.range 144).foldl (fun (m : Module) i => m.flushReads (144 * d + i)) m.flushClock

/-- CLOCK_LOCK_RETURN (R32): held requests of a far device go on; Datum tracks and aligns again. -/
def execClockLockReturn (d : Domain) (s : State) : Res :=
  let m := s.m
  let x := { m with lockLost := NSet.erase m.lockLost (domainId d) }
  s.done (if !m.lockLost.contains (domainId d) then m
    else match d with
      | .a d | .m d => (x.settle m .other d).lockBack d
      | .n d => if d.val < 4 then (x.settle m .other d).lockBack d else (x.settle m .other d).flushClock
      | .f j => x.flushFar j
      | .l p => (x.portCount p).reselect
      | .d d => if d.val = 4 then x.applyRole false else { x.wr F.DAT_DSTS_TRACK d 1 with datum := Tbl.set 0 x.datum d (x.datumOf 4) }
      | .p | .s | .u | .k _ => x)

/-- FAR_LOCK_TIMEOUT (R32): the lock of a far device's domain has not returned within 2 ms; the device is lost. -/
def execFarLockTimeout (f : FarId) (s : State) : Res :=
  s.done (if s.m.lockLost.contains (32 + f.val) && !(s.m.far f).lost then s.m.loseFar f else s.m)

end Sys2Proof.Machine
end

