-- ==== Sys2Proof/Machine/Packets.lean ====
section
/-! DEFINITION. The form of a mesh packet (R325, R327) and of the accesses of the host (R386), which WellFormed and the meanings share. -/

namespace Sys2Proof.Machine

/-! ### Packets (R325, R327) -/

/-- A short size: 4, 8, 16 or 32 bytes, naturally aligned. -/
def shortSize (a n : Nat) : Bool := (n == 4 || n == 8 || n == 16 || n == 32) && a % n == 0
/-- A long size: 1 to 8 units of 64 bytes, aligned, within a 4 KiB page. -/
def longSize (a n : Nat) : Bool := n % 64 == 0 && decide (64 ≤ n) && decide (n ≤ 512) && a % 64 == 0 && decide (a % 4096 + n ≤ 4096)

/-- A packet as R325 and R327 have it, by operation: 0 READ, 1 WRITE, 2 PWRITE, 3 and more ATOMIC. -/
def packetWf (p : Packet) (op : Nat) : Bool :=
  decide (p.tag < 16384) && decide (p.addr < 2 ^ 48) &&
  (if op = 0 then (shortSize p.addr p.len || longSize p.addr p.len) && p.data.isEmpty && p.poison.isEmpty
   else if op ≤ 2 then
    (shortSize p.addr p.len || longSize p.addr p.len) && p.data.length == p.len
      && p.poison.length == (if p.len < 64 then 1 else p.len / 64)
   else (p.len == 4 || p.len == 8) && p.addr % p.len == 0 && p.data.length == 16 && p.poison.length == 1)

/-- Data flits of a packet (R325): what a long write carries, and none of a READ's, an atomic's or a short write's. -/
def flitsOf (op len : Nat) : Nat := if op = 1 ∨ op = 2 then len / 64 else 0

/-- What R325 asks of the rest of a request's head flit: STATUS 0, NDATA its data flits, every reserved bit 0. -/
def headOk (h : Head) (op len : Nat) : Bool := h.status == 0 && h.ndata == flitsOf op len && !h.rsvd

end Sys2Proof.Machine
end

