-- ==== Sys2Proof/Machine/Service.lean ====
section
/-! DEFINITION. The service port (R575 to R579), its commands on firmware, the Ledger and the module (R577, R583, R584, R588), the owner
lock (R594) and attestation (R596 to R598). -/

namespace Sys2Proof.Machine

/-! ### Registers read from the service side (R524, R599) -/

/-- BRG_DIEID of a die (R40). -/
def Module.dieId (m : Module) (d : Nat) : Nat :=
  d + (if d = 4 then 8 else 0) + Tbl.get 0 m.fuses.revs d % 256 * 256 + m.fuses.variant % 4 * 65536
    + (if d = 4 && m.fuses.comp then 262144 else 0)

/-- SVC_STS: the inputs and the trip are read as they stand. -/
def Module.svcSts (m : Module) : Nat :=
  let w := m.rd F.SVC_STS_DYN_ADDR 4 + m.rd F.SVC_STS_RECOVERY 4 * 2048 + m.rd F.SVC_STS_LAST_CMD 4 * 65536
    + m.rd F.SVC_STS_LAST_STATUS 4 * 16777216
  w + (if m.svc.open' then 256 else 0) + (if m.svc.low then 512 else 0) + (if m.svc.trip.isSome then 1024 else 0)

/-- FWU_STS. -/
def Module.fwuSts (m : Module) : Nat :=
  m.jr.state + m.fuses.floor % 128 * 16 + m.imgSec Nor.active % 128 * 4096
    + (match m.ledger.newest 8 with | some r => (r.payload.getD 10 0).toNat | none => 0) * 16777216

/-- FWU_VER_STG: 0 while the slot is EMPTY or RECEIVING. -/
def Module.stagedVersion (m : Module) : Nat := if m.jr.state ≤ Slot.receiving then 0 else m.imgVersion Nor.staging

/-- LDG_STS. -/
def Module.ldgSts (m : Module) : Nat :=
  (if m.ledger.bankB then 1 else 0) + (if m.ledger.compacting then 2 else 0) + m.rd F.LDG_STS_FAULT 4 * 4 + m.ledger.free / 1024 * 65536

/-! ### I3C and MCTP control (R575) -/

/-- The port has a dynamic address: messages reach it. -/
def Module.reachable (m : Module) : Bool := m.rd F.SVC_STS_DYN_ADDR 4 != 0

/-- The provisional identifier (R575): the part 0x0940 in its bits 31 to 16, with bit 32 0 for a fixed identifier (PRESUMED, log entry 75). -/
def i3cPid : Nat := Config.i3cPid.toNat / 2 ^ 33 * 2 ^ 33 + 0x0940 * 2 ^ 16 + Config.i3cPid.toNat % 2 ^ 16

/-- A message of the port is ready: an in-band interrupt, then the message (R575). -/
def Module.sendReady (m : Module) (o : Out) : Module := (m.emit (.ibi Config.ibiByte)).emit o

/-- ENTDAA (R575): a port without a dynamic address takes the one assigned, and shows its provisional identifier. -/
def execEntdaa (addr : BitVec 7) (s : State) : Res :=
  s.done (if s.m.reachable then s.m else (s.m.wr F.SVC_STS_DYN_ADDR 4 addr.toNat).emit (.control 0x07 0 (leBytes 6 i3cPid)))

/-- SETDASA (R575): a port without a dynamic address takes one by its static address 0x4A. -/
def execSetdasa (static : BitVec 7) (addr : BitVec 7) (s : State) : Res :=
  s.done (if s.m.reachable ∨ static.toNat ≠ 0x4A then s.m else s.m.wr F.SVC_STS_DYN_ADDR 4 addr.toNat)

/-- Answers an MCTP control message with a completion code and data; a port without an address receives none. -/
def Module.control (m : Module) (cmd code : Nat) (data : List Byte) : Module :=
  if m.reachable then m.sendReady (.control cmd code data) else m

/-- SET_ENDPOINT_ID (R575): operation 0 or 1 sets the identifier; reset and discovery are not supported by a target with a dynamic one. -/
def execSetEndpointId (op : Fin 4) (eid : Byte) (s : State) : Res :=
  let m := s.m
  s.done (if op.val ≥ 2 ∨ eid = 0 ∨ eid = 255 ∨ !m.reachable then m.control 1 2 []
    else { m with svc := { m.svc with eid := eid.toNat } }.control 1 0 [0, eid, 0])

/-- GET_ENDPOINT_ID (R575). -/
def execGetEndpointId (s : State) : Res := s.done (s.m.control 2 0 [BitVec.ofNat 8 s.m.svc.eid, 0, 0])

/-- GET_MCTP_VERSION_SUPPORT (R575): the manual gives no version numbers; one entry of free bytes. -/
def execGetMctpVersionSupport (msgType : Byte) (s : State) : Res :=
  s.done (if msgType.toNat = 0xFF ∨ msgType = 0 ∨ msgType.toNat = 0x7E then
      let (m, v) := s.m.freshBytes 4
      m.control 4 0 (1 :: v)
    else s.m.control 4 0x80 [])

/-- GET_MESSAGE_TYPE_SUPPORT (R575): vendor-defined PCI messages, beside control. -/
def execGetMessageTypeSupport (s : State) : Res := s.done (s.m.control 5 0 [1, 0x7E])

/-- GET_VENDOR_DEFINED_SUPPORT (R575): Lemelox's PCI-SIG identifier, big-endian, as the only set; its version is free. -/
def execGetVendorDefinedSupport (selector : Byte) (s : State) : Res :=
  s.done (if selector ≠ 0 then s.m.control 6 2 []
    else
      let (m, v) := s.m.freshBytes 2
      m.control 6 0 ([0xFF, 0, BitVec.ofNat 8 (Config.vendorId.toNat / 256), BitVec.ofNat 8 Config.vendorId.toNat] ++ v))

/-! ### Service requests (R576 to R579, R584) -/

/-- Status codes of R578. -/
def Sv.ok : Nat := 0
def Sv.invalid : Nat := 1
def Sv.busy : Nat := 2
def Sv.interlockOpen : Nat := 3
def Sv.holdupLow : Nat := 4
def Sv.ownerLocked : Nat := 5
def Sv.sequence : Nat := 6
def Sv.range : Nat := 7
def Sv.digestMismatch : Nat := 8
def Sv.notFound : Nat := 9
def Sv.tooEarly : Nat := 10
def Sv.flashFault : Nat := 11

/-- Answers a service request. -/
def Module.svcAnswer (m : Module) (cmd : Nat) (inst : Byte) (st : Nat) (payload : List Byte := []) : Module :=
  ((m.wr F.SVC_STS_LAST_CMD 4 cmd).wr F.SVC_STS_LAST_STATUS 4 st).sendReady (.service cmd inst.toNat st payload)

/-- A service request is in progress that keeps others out (R579): an ATTEST that builds, or a boot exchange. -/
def Module.svcBusy (m : Module) : Bool := m.boot.exch == 1 || (match m.svc.att with | some a => !a.host | none => false)

/-- Handles a request: nothing arrives at a port without an address, and a busy one says so. -/
def Module.service (m : Module) (cmd : Nat) (inst : Byte) (f : Module → Module) : Module :=
  if !m.reachable then m else if m.svcBusy then m.svcAnswer cmd inst Sv.busy else f m

/-- The refusal of R584, if any. -/
def Module.refusal (m : Module) : Option Nat :=
  if m.svc.open' then some Sv.interlockOpen
  else if m.svc.low then some Sv.holdupLow
  else if m.svc.locked ∧ m.rd F.SVC_STS_RECOVERY 4 = 0 then some Sv.ownerLocked
  else none

/-- GET_INFO (R577). -/
def execGetInfo (inst : Byte) (s : State) : Res :=
  s.done (s.m.service 1 inst fun m =>
    m.svcAnswer 1 inst Sv.ok (leBytes 4 (m.word .BRG_MOD_STS 4).toNat ++ leBytes 4 m.fwuSts ++ leBytes 4 (m.imgVersion Nor.active)
      ++ leBytes 4 m.stagedVersion ++ leBytes 4 m.svcSts ++ leBytes 4 m.ldgSts ++ ((List.range 5).map fun d => leBytes 4 (m.dieId d)).flatten
      ++ leBytes 4 0))

/-- STAGE_BEGIN (R583, R584). -/
def execStageBegin (inst : Byte) (length version : Word) (s : State) : Res :=
  s.done (s.m.service 2 inst fun m =>
    match m.refusal with
    | some r => m.svcAnswer 2 inst r
    | none =>
      if m.jr.state = Slot.receiving ∨ m.jr.state = Slot.exchanging then m.svcAnswer 2 inst Sv.sequence
      else if !lengthOk length.toNat then m.svcAnswer 2 inst Sv.range
      else (m.journal { state := Slot.receiving, ver := version.toNat, len := length.toNat }).svcAnswer 2 inst Sv.ok)

/-- Data reach the staging slot: a block is erased as its first byte arrives. -/
def Module.stage' (m : Module) (off : Nat) (data : List Byte) : Module :=
  let first := (off + norBlock - 1) / norBlock
  let last := (off + data.length - 1) / norBlock
  let erased := (List.range (last + 1 - first)).foldl (fun (t : Tbl Byte) i =>
    let b := Nor.staging + (first + i) * norBlock
    t.filter fun (o, _) => decide (o < b) || decide (b + norBlock ≤ o)) m.nor
  { m with nor := norPut erased (Nor.staging + off) data }

/-- A refusal of STAGE_DATA or STAGE_END abandons the transfer (R584). -/
def Module.refuseTransfer (m : Module) (cmd : Nat) (inst : Byte) (r : Nat) : Module := m.dropTransfer.svcAnswer cmd inst r

/-- STAGE_DATA (R583, R584). -/
def execStageData (inst : Byte) (offset : Word) (data : List Byte) (flashOk : Bool) (s : State) : Res :=
  let o := offset.toNat
  let n := data.length
  s.done (s.m.service 3 inst fun m =>
    let j := m.jr
    if n < 64 ∨ 4096 < n ∨ (n % 64 ≠ 0 ∧ o + n ≠ j.len) then m.svcAnswer 3 inst Sv.invalid
    else
      match m.refusal with
      | some r => m.refuseTransfer 3 inst r
      | none =>
        if j.state ≠ Slot.receiving then m.svcAnswer 3 inst Sv.sequence
        else if o + n ≤ j.bytes then m.svcAnswer 3 inst Sv.ok
        else if o ≠ j.bytes then m.svcAnswer 3 inst Sv.sequence
        else if j.len < o + n then m.svcAnswer 3 inst Sv.range
        else if !flashOk then m.svcAnswer 3 inst Sv.flashFault
        else { (m.stage' o data) with jr := { j with bytes := o + n } }.svcAnswer 3 inst Sv.ok)

/-- What STAGE_END requires (R583). -/
def Module.stagedOk (m : Module) (digest : List Byte) : Bool :=
  let j := m.jr
  j.bytes == j.len && shake256 (m.norBytes Nor.staging j.len) 64 == digest && m.imgBasic Nor.staging
    && m.imgLength Nor.staging == j.len && m.imgVersion Nor.staging == j.ver

/-- STAGE_END (R583, R584). -/
def execStageEnd (inst : Byte) (digest : List Byte) (s : State) : Res :=
  s.done (s.m.service 4 inst fun m =>
    if digest.length ≠ 64 then m.svcAnswer 4 inst Sv.invalid
    else
      match m.refusal with
      | some r => m.refuseTransfer 4 inst r
      | none =>
        if m.jr.state ≠ Slot.receiving then m.svcAnswer 4 inst Sv.sequence
        else if m.stagedOk digest then (m.journal { m.jr with state := Slot.staged, digest := digest }).svcAnswer 4 inst Sv.ok
        else m.svcAnswer 4 inst Sv.digestMismatch)

/-- STAGE_CANCEL (R583). -/
def execStageCancel (inst : Byte) (s : State) : Res :=
  s.done (s.m.service 5 inst fun m =>
    if m.jr.state = Slot.receiving ∨ m.jr.state = Slot.staged then (m.journal {}).svcAnswer 5 inst Sv.ok
    else m.svcAnswer 5 inst Sv.sequence)

/-- ROLLBACK (R584, R588). -/
def execRollback (inst : Byte) (s : State) : Res :=
  s.done (s.m.service 6 inst fun m =>
    match m.refusal with
    | some r => m.svcAnswer 6 inst r
    | none =>
      if m.jr.state ≠ Slot.previous then m.svcAnswer 6 inst Sv.notFound
      else
        let m := m.journal { m.jr with state := Slot.staged, dir := 0, phase := 0, block := 0
                                       ver := m.imgVersion Nor.staging, len := m.imgLength Nor.staging }
        { m with life := { m.life with rollbacks := m.life.rollbacks + 1 } }.svcAnswer 6 inst Sv.ok)

/-- READ_LEDGER (R577, R591): the record at an index from the newest of its type. -/
def execReadLedger (inst : Byte) (type rsvd : Byte) (index : BitVec 16) (s : State) : Res :=
  let t := type.toNat
  let i := index.toNat
  s.done (s.m.service 7 inst fun m =>
    if rsvd ≠ 0 ∨ t = 0 ∨ 9 < t then m.svcAnswer 7 inst Sv.invalid
    else if max 1 (ledKeep t) ≤ i then m.svcAnswer 7 inst Sv.range
    else match (m.ledger.records t)[i]? with
      | some r => m.svcAnswer 7 inst Sv.ok r.bytes
      | none => m.svcAnswer 7 inst Sv.notFound)

/-- READ_OBJECT (R577, R598). -/
def execReadObject (inst : Byte) (object : Byte) (rsvd : BitVec 24) (offset length : Word) (s : State) : Res :=
  let n := length.toNat
  s.done (s.m.service 8 inst fun m =>
    if 1 < object.toNat ∨ rsvd ≠ 0 then m.svcAnswer 8 inst Sv.invalid
    else
      match (if object = 0 then some Config.certChain else m.svc.report) with
      | none => m.svcAnswer 8 inst Sv.notFound
      | some o =>
        if n = 0 ∨ 4096 < n ∨ o.length ≤ offset.toNat then m.svcAnswer 8 inst Sv.range
        else m.svcAnswer 8 inst Sv.ok ((o.drop offset.toNat).take n))

/-- RESTART (R588, R544): answered, then a module reset, in every state: from a trip, cold bring-up from its first step; a module without power
waits for POWER_GOOD as it did. -/
def execRestart (inst : Byte) (mode : Byte) (rsvd : BitVec 24) (s : State) : Res :=
  let m := s.m
  s.done (if !m.reachable then m
    else if 1 < mode.toNat ∨ rsvd ≠ 0 then m.svcAnswer 0x0A inst Sv.invalid
    else
      match m.svc.trip with
      | some t =>
        if m.now < t + 30_000_000_000 then m.svcAnswer 0x0A inst Sv.tooEarly
        else
          let x := ((m.svcAnswer 0x0A inst Sv.ok).kept false true).dropTransfer
          ({ x with svc := { x.svc with trip := none }, fwOk := false }.wr F.BRG_MOD_STS_FALLBACK 4 1).begin' Stage.firmware
      | none =>
        let m := m.svcAnswer 0x0A inst Sv.ok
        if m.stage = 0 then (m.kept true true).dropTransfer else m.moduleReset (mode == 1))

/-- SERVICE_RESERVED_COMMAND (R576, R577): a reserved command or a malformed message. -/
def execServiceReservedCommand (inst : Byte) (cmd : Fin 128) (s : State) : Res :=
  s.done (s.m.service cmd inst fun m => m.svcAnswer cmd inst Sv.invalid)

/-- SEATING_INTERLOCK_CHANGE (R599). -/
def execSeatingInterlockChange (isOpen : Bool) (s : State) : Res := s.done { s.m with svc := { s.m.svc with open' := isOpen } }

/-! ### The owner lock (R594) -/

/-- A write of FWU_OWNER: the physical function's alone. LOCK reads what was written (R12); the lock takes effect when the record is valid. -/
def Module.ownerWrite (m : Module) (src : Nat) (v : Word) : Module :=
  if src ≠ reqHost then m
  else { ((m.writePlain ⟨.FWU_OWNER, 4, 0⟩ v).issueRec 2 (leBytes 4 (v.toNat % 2))) with svc := { m.svc with lock := some (v.toNat % 2 == 1) } }

/-- FWU_OWNER_WRITE (R594). -/
def execFwuOwnerWrite (req : Requester) (value : Word) (s : State) : Res := s.done (s.m.ownerWrite req.toNat value)

/-- OWNER_LOCK_VALID (R594): no OWNER_LOCK record is waiting to be written; the lock takes the newest valid one. -/
def execOwnerLockValid (s : State) : Res :=
  let m := s.m
  s.done (if m.svc.lock.isNone ∨ (m.ledger.queue.any fun r => r.1 == 2) then m else m.takeLock)

/-! ### Attestation (R596 to R598) -/

/-- A list of n bytes, cut or filled with zeros. -/
def fixLen (n : Nat) (l : List Byte) : List Byte := (List.range n).map fun i => l.getD i 0

/-- The bytes of a report before its signature, as the snapshot takes them (R597). -/
def Module.attBody (m : Module) (nonce : List Byte) : List Byte :=
  let st := m.rd F.DAT_STS_STATE 4
  let flags := (if m.ready then 1 else 0) + (if m.svc.locked then 2 else 0) + (if m.load.any fun l => l.op != 3 then 4 else 0)
    + (if st != 2 && st != 4 then 8 else 0)
  let plat := ((List.range 17).map fun i => fixLen 32 (Tbl.get [] m.platDigests i)).flatten
  leBytes 4 0x5454_4154 ++ leBytes 2 1 ++ leBytes 2 flags ++ leBytes 4 50240 ++ leBytes 2 m.unit ++ leBytes 2 0 ++ fixLen 32 nonce
    ++ leBytes 8 (m.datumOf 4) ++ leBytes 4 (m.imgVersion Nor.active) ++ leBytes 2 (m.imgSec Nor.active) ++ leBytes 2 m.fuses.floor
    ++ leBytes 4 m.flp.gen ++ leBytes 12 0 ++ leBytes 64 Config.romMeasure.toNat
    ++ shake256 (m.norBytes Nor.active (m.imgLength Nor.active)) 64 ++ shake256 plat 64 ++ shake256 m.flpRecord 64 ++ ((List.range 5).map fun d => leBytes 4 (m.dieId d)).flatten ++ leBytes 28 0

/-- A report begins to be built. -/
def Module.startReport (m : Module) (a : AttRun) : Module := { m with svc := { m.svc with att := some a } }.wr F.ATT_STS_BUSY 4 1

/-- ATTEST (R577, R598): answered when the report is complete. -/
def execAttest (inst : Byte) (nonce : List Byte) (s : State) : Res :=
  s.done (s.m.service 9 inst fun m =>
    if nonce.length ≠ 32 then m.svcAnswer 9 inst Sv.invalid
    else if m.svc.att.isSome then m.svcAnswer 9 inst Sv.busy
    else m.startReport ⟨false, inst.toNat, 0, m.attBody nonce⟩)

/-- A host-requested report ends with a result. -/
def Module.attEnd (m : Module) (r : Nat) : Module := (m.wr F.ATT_STS_DONE 4 1).wr F.ATT_STS_RESULT 4 r

/-- ATT_DST. -/
def Module.attDst (m : Module) : Nat := m.rd F.ATT_DST_HI_ADDR 4 * 2 ^ 32 + m.rd F.ATT_DST_LO_ADDR 4 * 64

/-- A destination of n bytes lies in far memory or in the slice of a good core (R598). -/
def Module.attPlace (m : Module) (a n : Nat) : Bool :=
  if a + n ≤ 0x0780_0000_0000 then true
  else
    let c := (a - 0x1000_0000_0000) / 0x8000_0000
    decide (0x1000_0000_0000 ≤ a) && decide (a + n ≤ 0x1120_0000_0000) && m.good c && slicePopulated (a % 0x8000_0000) n

/-- A write of ATT_CMD with GO 1 (R598). -/
def Module.attGo (m : Module) (src : Nat) : Module :=
  if !privileged src then m
  else if m.svc.att.isSome then m.wr F.ATT_STS_CMD_LOST 4 1
  else if !m.attPlace m.attDst 50240 then m.attEnd 1
  else
    let (m', st, nonce, _) := m.readSpan askNow 2 m.attDst 32
    if st ≠ St.ok then m'.attEnd 2 else m'.startReport ⟨true, 0, m.attDst, m.attBody nonce⟩

/-- ATT_GO (R598). -/
def execAttGo (req : Requester) (s : State) : Res := s.done (s.m.attGo req.toNat)

/-- ATTEST_DONE (R598): the report is complete: written to its destination, or held as OBJECT 1 and answered. -/
def execAttestDone (s : State) : Res :=
  s.done (match s.m.svc.att with
    | none => s.m
    | some a =>
      let report := a.body ++ fixLen 49856 (Config.sign a.body)
      let m := { s.m with svc := { s.m.svc with att := none } }.wr F.ATT_STS_BUSY 4 0
      let keep (m : Module) : Module := { m with svc := { m.svc with report := some report } }
      if a.host then
        let (m', st) := m.writeSpan askOstler (fun _ => false) 14 a.dst report
        if st = St.waits then s.m.backOff m'
        else s.m.regulated ostlerIface (if st ≠ St.ok then (m'.forget reqOstler).attEnd 2 else (keep (m'.forget reqOstler)).attEnd 0)
      else (keep m).svcAnswer 9 (BitVec.ofNat 8 a.inst) Sv.ok)

end Sys2Proof.Machine
end

