-- ==== Sys2Proof/Machine/RegWrite.lean ====
section
/-! DEFINITION. Reading and writing one register (R11 to R16): what every register reads as, what an aligned 32-bit write does by the
fields' access types, and the commands, clears and rules that single registers attach to a write. -/

namespace Sys2Proof.Machine

/-! ### Reads -/

/-- The number of an engine's phase flag. -/
def flag (b : Bool) (bit : Nat) : Nat := if b then 2 ^ bit else 0

/-- ENDPOINT_STATE of a position (R341, R353): 0 served, 1 resetting, 2 fenced, 3 unassigned. -/
def Module.endpointState (m : Module) (c : Nat) : Nat :=
  if !m.good c then 2 else if m.absorbs c then 1 else if (m.partOf c).isNone then 3 else 0

/-- REFRESH of a die's layers, two bits each (R283). -/
def Module.layerRefresh (m : Module) (d : Nat) : Nat :=
  (List.range 8).foldl (fun a j => a + m.rd F.THM_LAYER_REFRESH d j * 4 ^ j) 0

/-- The far device's bus is trained and serves (FMC_STS.UP). -/
def Module.farUp (m : Module) (j : Nat) : Bool := m.flp.valid && !m.farLost j && !m.farWaits j

/-- Flits now in retention at a router (R347). -/
def Module.retained (m : Module) (c : Nat) : Nat := (Tbl.get [] m.net.ret c).foldl (fun a x => a + x.flits) 0

/-- A remote slot is being read (KVD_STS.RING_WAIT). -/
def DmaPhase.reads : DmaPhase → Bool
  | .header | .full | .polling => true
  | .done | .waiting | .tableWait | .payload | .ready | .sealing => false

/-- The bits of a core-side register that the state of its engines shows. -/
def Module.coreView (m : Module) (r : Reg) (c : Nat) : Nat :=
  let k := m.core c
  match r with
  | .SEQ_STS => k.st.num + k.mxq.length * 2 ^ 8 + k.vxq.length * 2 ^ 12 + k.dmq.length * 2 ^ 16 + k.bkq.length * 2 ^ 20
  | .SEQ_PC => bitsAt k.lastPc.toNat 3 18 * 8
  | .MXA_STS => flag k.pass.isSome 0 + (match k.tile with | some t => 2 + t.fmt.code * 16 | none => 0) + flag (m.stallRing c) 17
  | .VEC_STS => flag k.vec.isSome 0 + (match k.vec with | some v => flag v.waiting 1 | none => 0)
  | .ATN_STS => flag (match k.vec with | some v => v.desc.kind == .atn | none => false) 0 + flag k.relay.isSome 1
  | .KVD_STS => (match k.dma with | some d => 1 + flag (d.phase == .tableWait) 1 + flag d.phase.reads 2 | none => 0)
  | .SLC_STS =>
    (match (m.slice c).bop with | some b => flag b.cleaning 0 | none => 0) + flag (m.lodger c) 1 + flag (m.flp.valid && m.sliceLive c) 2
      + m.layerRefresh (coreDie c) * 256
  | .SLC_PENDING => (m.slice c).pending.length
  | .BNK_STS => (if (m.slice c).bop.isSome then 3 else 0)
      + (List.range 4).foldl (fun a t => a + flag (!(Tbl.get [] (m.slice c).slots t).isEmpty) (20 + t)) 0
  | .NOC_STS => m.endpointState c + flag (m.lodger c) 2
      + flag (m.loadDrains c || m.rst.any fun (_, x) => match x with | some r => r.phase == 1 && r.cores.contains c | none => false) 3
  | .NOC_RET_STS => m.retained c
  | .CTL_STS => let s := m.station c; s.rx0.length + s.rx1.length * 2 ^ 8 + s.tx.length * 2 ^ 16
  | .RST_STS => m.code c * 2 ^ 20
  | _ => 0

/-- Bytes of the floor-plan record read as the word at index i (R498). -/
def Module.flpWord (m : Module) (i : Nat) : Nat := if m.flp.valid then leNat ((m.flpRecord.drop (4 * i)).take 4) else 0

/-- The admitted load of a die's target j (R62, R377). -/
def Module.tgtLoad (m : Module) (d j : Nat) : Nat := m.targetLoad m.plat (if j < 144 then 144 * d + j else 576 + 5 * d + (j - 144))

/-- The bits of a die-level or hub register that the state shows. -/
def Module.dieView (m : Module) (r : Reg) (u i : Nat) : Nat :=
  match r with
  | .BRG_DIEID => m.dieId u
  | .BRG_REVCAP => m.maxLevel u
  | .FMC_STS => flag (m.farUp u) 0 + flag (m.rd F.FMC_CTL_ISOLATE u == 1) 1 + flag (m.far u).retraining 2 + flag (m.far u).lost 3
      + m.rd F.THM_FAR_REFRESH (u / 5) (u % 5) * 16 + (m.slowOf u).length * 256
  | .ECC_STS => (m.slowOf (20 + u)).length + ((m.slowOf (20 + u)).filter (·.begun)).length * 256
  | .ECC_PENDING => (List.range 144).foldl (fun a j => a + (m.slice (144 * u + j)).pending.length) 0
  | .DAT_NOW_LO => m.datumOf u % 2 ^ 32
  | .DAT_NOW_HI => m.datumOf u / 2 ^ 32
  | .QOS_TGT_LOAD => m.tgtLoad u i
  | .QOS_COMP_LOAD => m.targetLoad m.plat 0x260
  | .PLT_DIE_STS => (m.plat.parts.filter fun e => bitsAt e.clusters (36 * u) 36 != 0).length * 256
  | .ARQ_COUNT => m.arqCount u
  | .ARQ_DEFFARE => m.defFare u
  | .DPQ_COUNT => m.dpqCount u
  | .DPQ_HEAD => m.dpqHead u
  | .PCE_FN_STS => m.fnSts u
  | .DTD_STS => stationLink u * 2 ^ 8 + m.sparesUsed u * 2 ^ 16
  | .DTD_GRP => m.grpWord u i
  | .RST_PDIE_STS => m.drainingOn u
  | .FLP_MOD_STS =>
    if m.flp.valid then (List.range 4).foldl (fun a d => a + m.goodOn d) 0 + flag m.short 16 + 2 ^ 17 else 0
  | .FLP_RECORD => m.flpWord i
  | .FLP_DIE_STS =>
    if m.flp.valid then m.goodOn u + m.lodgersOn u * 2 ^ 8 + m.deadOn u * 2 ^ 16 + flag (decide (m.goodOn u < 132)) 24 else 0
  | .SVC_STS => m.svcSts
  | .FWU_STS => m.fwuSts
  | .FWU_VER_ACT => m.imgVersion Nor.active
  | .FWU_VER_STG => m.stagedVersion
  | .FWU_OWNER => flag m.svc.lock.isSome 1
  | .LDG_STS => m.ldgSts
  | .HSK_CH => chanKind u i * 2 ^ 16
  | .HSK_PIN => m.pLim * 2 ^ 16
  | .THM_EXCURSIONS => m.life.exc
  | .NOC_FLIT_CNT => Tbl.get 0 m.flits (u * 4 + i)
  | .CTR_N_LO => (m.counter u i).toNat % 2 ^ 32
  | .CTR_N_HI => (m.counter u i).toNat / 2 ^ 32
  | .QOS_SRC_REG => let (rate, burst) := m.coreReg u i; rate + burst * 2 ^ 16
  | _ => m.coreView r u

/-- The stored word that a read starts from: some registers have one home for several units (the group and member tables), and
PCE_RWIN lies on the physical function's page alone (R416). A write-only field reads 0 (R12), and the model never stores one. -/
def Module.storedWord (m : Module) (r : RegId) : Word :=
  match r.reg with
  | .TWP_GRP | .TWP_MBR => m.word r.reg 0 r.idx
  | .PCE_RWIN => if r.unit = 0 then m.word r.reg 0 0 else 0
  | .SEQ_CFG => match m.prog r.unit with | some p => p.cfg | none => 0
  | .ARQ_COUNT | .NOC_STS | .SVC_STS | .LDG_STS => 0
  | _ => m.word r.reg r.unit r.idx

/-- What a register reads as. -/
def Module.readWord (m : Module) (r : RegId) : Word := m.storedWord r ||| BitVec.ofNat 32 (m.dieView r.reg r.unit r.idx)

/-- A 32-bit read of a register. -/
def Module.readReg (m : Module) (r : RegId) : Module × Word := (m, m.readWord r)

/-- An aligned 32-bit read of register space: an offset that holds no register reads 0 (R15). -/
def Module.readRegAt (m : Module) (a : Nat) : Module × Word :=
  match regAt a with
  | some r => m.readReg r
  | none => (m, 0)

/-! ### Writes -/

/-- A write of SCB_CMD (R305, R308): OP 0 has no effect, but is lost, like every command, while one runs. -/
def Module.scbWrite (m : Module) (src d : Nat) (v : Word) : Module :=
  match F.SCB_CMD_OP.of v with
  | 1 => m.scrubStart src d false (F.SCB_CMD_KIND.of v) (F.SCB_CMD_UNIT.of v) (F.SCB_CMD_FARE.of v)
  | 2 => m.scrubStart src d true (F.SCB_CMD_KIND.of v) (F.SCB_CMD_UNIT.of v) (F.SCB_CMD_FARE.of v)
  | 3 => m.scrubAbort src d
  | _ => if m.rd F.SCB_STS_BUSY d = 1 then m.wr F.SCB_STS_CMD_LOST d 1 else m

/-- A write by the physical function or Ostler. -/
def Module.writePriv (m : Module) (src : Nat) (r : RegId) (v : Word) : Module :=
  match r.reg with
  | .PLT_CMD => m.pltCmd src (F.PLT_CMD_OP.of v) (F.PLT_CMD_PART.of v)
  | .VEC_TFSUM => m.clearTileFlags r.unit r.idx (v.toNat % 32)
  | .VEC_MON_CLR => (List.range 16).foldl (fun m s => if Nat.testBit v.toNat s then m.clearSlot r.unit s else m) m
  | .SCB_CMD => m.scbWrite src r.unit v
  | .SCB_RPR_CMD =>
    if F.SCB_RPR_CMD_GO.of v = 1 then m.fieldRepair src r.unit (F.SCB_RPR_CMD_KIND.of v) (F.SCB_RPR_CMD_UNIT.of v) else m
  | .FMC_CTL => if F.FMC_CTL_ISOLATE.of v = 1 then m.isolate r.unit else m
  | .QOS_HUBSRC_CFG => m.hubsrcWrite src r.idx true v
  | .QOS_HUBSRC_REG => m.hubsrcWrite src r.idx false v
  | .QOS_MOD_WEIGHT => if F.QOS_MOD_WEIGHT_WEIGHT.of v = 0 then m else m.writePlain r v
  | .TWP_REG | .TWP_ADM_CFG | .TWP_ADM_BASE_LO | .TWP_ADM_BASE_HI | .TWP_ADM_LEN => m.twpWrite src r v
  | .TWL_CTL => m.twlCtlWrite src r.unit v
  | .DTD_CTL => m.dtdCtlWrite src r.unit v
  | .UCP_CTL => m.ucpCtlWrite src v
  | .RST_CMD => m.rstCmdWrite src r.unit v
  | .RST_CL_CMD => m.rstClCmdWrite src r.unit v
  | .RST_PART_CMD => m.rstPartCmdWrite src v
  | .RST_MOD_CMD => m.rstModWrite src v
  | .RST_PFAULT_A =>
    let m := m.writePlain r v
    if F.RST_PFAULT_A_VALID.of v = 1 then m.wr F.RST_PFAULT_B_COUNT 4 0 r.idx else m
  | .THM_ROR | .THM_FLOW_CFG | .THM_HEARTH | .THM_COMP_CRIT => m.thmWrite src r v
  | .CTR_FRZ_CMD => m.frzCmd src (F.CTR_FRZ_CMD_OP.of v)
  | .FBK_CMD => m.fbkCmd src (F.FBK_CMD_OP.of v) (F.FBK_CMD_STORE.of v)
  | .FBK_MARK => m.mark src v.toNat
  | .FWU_OWNER => m.ownerWrite src v
  | .ATT_CMD => if F.ATT_CMD_GO.of v = 1 then m.attGo src else m
  | _ => m.writePlain r v

/-- A 32-bit write of a register by a requester: a function page, and an arrival or departure queue's block, by the rule of R417;
every other register by the physical function and Ostler alone (R167, R197, R242, R284, R305, R379, R466, R496, R523, R551,
R573, R599; DEDUCED for the rest from R56, R57 and R391, since no other requester's write reaches them). -/
def Module.writeReg (m : Module) (src : Nat) (r : RegId) (v : Word) : Module :=
  match r.reg with
  | .ARQ_ABORT => m.arqAbort src r.unit v.toNat
  | .DPQ_POP => m.dpqPop src r.unit v.toNat
  | .ARQ_ERR => if queueWriter src (m.arqPart r.unit) then m.writePlain r v else m
  | .PCE_RWIN | .PCE_EVSTS | .PCE_ERR_STS | .PCE_MIR_CFG | .PCE_MIR_ADDR_LO | .PCE_MIR_ADDR_HI | .PCE_WIN_LO | .PCE_WIN_HI =>
    m.pceWrite src r v
  | _ => if privileged src then m.writePriv src r v else m

/-- An aligned 32-bit write of register space: an offset that holds no register discards it (R15). -/
def Module.writeRegAt (m : Module) (src a : Nat) (v : Word) : Module :=
  match regAt a with
  | some r => m.writeReg src r v
  | none => m

/-- An access of register space by its size: aligned and of four bytes, or an error (R14). -/
def aligned4 (a n : Nat) : Bool := n == 4 && a % 4 == 0

/-- The window of a queue block that an address lies in (R414, R415): of a departure queue or not, the queue, 1 for APPEND or READ and 2 for
COMMIT, and the offset in the window. -/
def queueWindow (a : Nat) : Option (Bool × Nat × Nat × Nat) :=
  let o := a - 0x3004_0000_0000
  let r := o % 0x1_0000 / 0x4000
  if 0x3004_0400_0000 ≤ a ∧ a < 0x3004_0440_0000 ∧ 1 ≤ r ∧ r ≤ 2 then some (false, (o - 0x0400_0000) / 0x1_0000, r, o % 0x4000)
  else if 0x3004_0800_0000 ≤ a ∧ a < 0x3004_0840_0000 ∧ r = 1 then some (true, (o - 0x0800_0000) / 0x1_0000, 1, o % 0x4000)
  else none

/-- A read of register space: bytes, and the poison tags of the words read (R14, R409). -/
def Module.readSpace (m : Module) (src a n : Nat) : Module × List Byte × List Bool :=
  match queueWindow a with
  | some (true, q, _, o) => m.dpqRead q o n
  | some (false, _, _, _) => (m, List.replicate n 0, [])
  | none =>
    if aligned4 a n then let (m, w) := m.readRegAt a; (m, leBytes 4 w.toNat, [])
    else (m.raErr src a n false, List.replicate n 0, [])

/-- A write of register space (R14, R399, R403, R417). -/
def Module.writeSpace (m : Module) (src a : Nat) (l : List Byte) : Module :=
  match queueWindow a with
  | some (false, q, r, o) => if queueWriter src (m.arqPart q) then m.arqWrite q (r == 2) o l else m
  | some (true, _, _, _) => m
  | none =>
    if aligned4 a l.length then m.writeRegAt src a (BitVec.ofNat 32 (leNat l)) else m.raErr src a l.length true

/-- REGISTER_WRITE (R12, R14): a write of register space. An address outside register space is none of its targets. -/
def execRegisterWrite (req : Requester) (addr size : Nat) (value : DWord) (s : State) : Res :=
  s.done (if (regDie addr).isNone then s.m else s.m.writeSpace req.toNat addr (leBytes size value.toNat))

end Sys2Proof.Machine
end

