-- ==== Sys2Proof/Machine/Mesh.lean ====
section
/-! DEFINITION. The mesh's packets (R323 to R347): what a requester interface injects and where it is stopped, the endpoints that do
not hold memory, answers and timeouts, multicast with its retention buffers, the end of a drain, and the COND records that sources
apply. One command is a packet's way from its injection to its endpoint; its answer waits on the mesh until RDATA or WACK takes it. -/

namespace Sys2Proof.Machine

/-- The right that an operation needs (R55). -/
def opRight (op : Nat) : Nat := if op = 0 then Right.read else if op ≤ 2 then Right.write else Right.atomic

/-! ### Requester interfaces (R323, R339, R513) -/

/-- An interface holds the tag of a request issued before a reset (R513). -/
def Net.staleTag (n : Net) (src tag : Nat) : Bool := n.outst.any fun o => o.src == src && o.tag == tag && o.stale

/-- The interface's outstanding request with a tag ends. -/
def Module.dropOutst (m : Module) (src tag : Nat) : Module :=
  { m with net := { m.net with outst := m.net.outst.filter fun o => !(o.src == src && o.tag == tag) } }

/-- The answer to a request of the companion leaves by its port (R483, R487), as RDATA or WACK with DEST, SRC and PATH 0. -/
def Module.ucpReturn (m : Module) (read : Bool) (tag status : Nat) (data : List Byte) (poison : List Bool) (vc : Fin 4) : Module :=
  let p : Packet := ⟨BitVec.ofNat 12 reqCompanion, tag, 0, vc, none, 0, data.length, data, poison, { ndata := data.length / 64 }⟩
  m.assign ucpPort ⟨if read then 6 else 7, { dunit := 0, sunit := 0, hops := 0, op := 0, status := BitVec.ofNat 8 status, p := p }⟩

/-- A request completes at its requester; the companion's is answered at its port. -/
def Module.completeAt (m : Module) (src tag status : Nat) (data : List Byte) (read : Bool := false) (poison : List Bool := [])
    (vc : Fin 4 := 0) : Module :=
  let m := (m.dropOutst src tag).emit (.complete src tag status data)
  if src = reqCompanion then m.ucpReturn read tag status data poison vc else m

/-- A request that its source does not inject, or that has no endpoint: it completes there; a posted write is discarded. One not injected for
a link that is down is counted (R337, R353). -/
def Module.stopAtSource (m : Module) (op : Nat) (p : Packet) (status : Nat) : Module :=
  let m := if status = St.linkDown ∧ p.src.toNat < 576 then m.bump F.NOC_LINKDOWN_CNT_COUNT p.src.toNat else m
  if op = 2 then m else m.completeAt p.src.toNat p.tag status [] (op == 0) [] p.vc

/-- A count at a position's interfaces. -/
def Module.bumpAt (m : Module) (f : RegField) (src : Nat) : Module := if src < 576 then m.bump f src else m

/-! ### Endpoints without memory of their own -/

/-- A request that reaches register space (R14, R327, R329). -/
def Module.serveReg (m : Module) (h : HeldReq) : Module :=
  let p := h.packet
  match h.op with
  | 0 =>
    let (m, l, bad) := m.readSpace p.src.toNat h.addr p.len
    m.answer h (if bad.any id then St.poisoned else St.ok) l (if bad.isEmpty then List.replicate (max 1 (p.len / 64)) false else bad)
  | 1 | 2 => (m.writeSpace h.by h.addr p.data).answer h St.ok
  | _ => m.answer h St.unsupported

/-- The kind of an operation's packet (R327). -/
def opKind (op : Nat) : Nat := if op = 0 then 1 else if op = 1 then 2 else if op = 2 then 3 else 4

/-- ATOP of an atomic operation of n bytes (R325). -/
def opAtop (op n : Nat) : Nat := if op < 3 then 0 else op - 3 + (if n = 8 then 16 else 0)

/-- A request leaves by the companion port for an offset of its window, with DEST, SRC and PATH 0 and a TAG of 14 bits (R325, R483, R487). -/
def Module.compSend (m : Module) (op : Nat) (p : Packet) (o : Nat) : Module :=
  m.assign ucpPort ⟨opKind op, { dunit := 0, sunit := 0, hops := 0, op := BitVec.ofNat 8 (opAtop op p.len), status := 0
                                 p := { p with tag := p.tag % 16384, addr := o, head := { ndata := flitsOf op p.len } } }⟩

/-- A request that reaches the companion window (R481, R487, R488): it goes to the companion, which answers a non-posted one. -/
def Module.serveCompanion (m : Module) (h : HeldReq) (o : Nat) : Module :=
  let p := h.packet
  let m := m.beginAlone 596 (m.want h)
  let st := m.companionStatus o p.len
  if st ≠ St.ok then m.answer h st
  else if 3 ≤ h.op ∧ m.rd F.UCP_CAP_ATOMICS 4 = 0 then m.answer h St.unsupported
  else
    let m := m.compSend h.op p o
    if h.op = 2 then m.answer h St.ok else { m with compOut := m.compOut ++ [h] }

/-- The packets of engines for the companion that have not been sent leave (R487). -/
def Module.compPump (m : Module) : Module :=
  (m.compEng.filter fun e => !e.sent && e.ans.isNone).foldl (fun (m : Module) e =>
    let st := m.stamp e.src (0x3800_0000_0000 + e.addr) 0
    let p : Packet := ⟨BitVec.ofNat 12 e.src, e.tag, BitVec.ofNat 8 st.tag, Fin.ofNat 4 st.vc, none, e.addr, e.size, e.write.getD [],
      List.replicate (if e.write.isSome then max 1 (e.size / 64) else 0) false, {}⟩
    let sent (x : CompReq) : CompReq := if x.key = e.key ∧ x.tag = e.tag then { x with sent := true } else x
    { m with compEng := m.compEng.map sent }.compSend (if e.write.isSome then 1 else 0) p e.addr) m

/-- The answer that an engine's packet waits for comes (R487). -/
def Module.compEngAnswer (m : Module) (src tag status : Nat) (data : List Byte) (poison : List Bool) : Module :=
  let take (e : CompReq) : CompReq :=
    if e.src = src ∧ e.tag = tag ∧ e.sent ∧ e.ans.isNone then { e with ans := some (status, data, poison) } else e
  { m with compEng := m.compEng.map take }

/-- A request reaches its endpoint (R326) along a path; `part` is of one that entered at a fabric port. -/
def Module.arrive (m : Module) (op : Nat) (p : Packet) (s : Site) (path : List Nat) (part : Option Nat := none) : Module :=
  match s with
  | .scratch c _ | .slice c _ => m.deliver ⟨p, op, p.addr, c, path, [], part⟩
  | .far j _ => m.deliver ⟨p, op, p.addr, 576 + j, path, [], part⟩
  | .reg => m.serveReg ⟨p, op, p.addr, 0, path, [], part⟩
  | .companion o => m.serveCompanion ⟨p, op, p.addr, 596, path, [], part⟩ o

/-! ### What a source interface writes into the head flit (R325, R326) -/

/-- The endpoint code of a site (R326). -/
def Site.endpoint (a : Nat) : Site → Nat
  | .scratch _ _ => 0
  | .slice _ _ => 1
  | .far _ _ => 2
  | .companion _ => 4
  | .reg =>
    if (a - 0x3000_0000_0000) / 0x1_0000_0000 = 4 then 4 else if a % 0x1_0000_0000 < 0x0900_0000 then 0 else 3

/-- The router of a requester; none for one at the hub. -/
def srcRouter (src : Nat) : Option Nat := if src < 576 then some src else none

/-- SRC of a requester's packets. -/
def srcWord (src : Nat) : BitVec 16 := if src < 576 then routerWord (some src) 0 else routerWord none 4

/-- PATH: the legs of the record that the packet takes; the default route has none. -/
def Module.pathWord (m : Module) (src : Nat) (dst : Option Nat) : BitVec 64 :=
  match (if src < 576 then m.routeRec src dst else none) with
  | some r => BitVec.ofNat 64 (((List.range r.legs.length).zip r.legs).foldl (fun a (i, l) =>
      a + (l.x + l.y * 32 + l.kind * 1024) * 2 ^ (16 * i)) 0)
  | none => 0

/-- The head flit of a packet as its source interface injects it toward a router or the hub: STRIPED for a neighbour packet on its default route that carries data (R318). -/
def Module.headOf (m : Module) (op : Nat) (p : Packet) (s : Site) (dst : Option Nat) (mcast : Bool) : Head :=
  let src := p.src.toNat
  let path := m.pathNodes (srcRouter src) dst
  let dflt := (if src < 576 then (m.routeRec src dst).isNone else true)
  { ndata := flitsOf op p.len, mcast := mcast, dest := routerWord dst (s.endpoint p.addr), src := srcWord src, path := m.pathWord src dst
    striped := decide (0 < flitsOf op p.len) && dflt && nearRouters (path.headD hubNode) (path.getLastD hubNode) }

/-! ### Requests at their source -/

/-- Where a request is stopped before it is injected, or the place that it goes to: the map (R57), the address (R34, R287), the path
(R332, R337). -/
def Module.sourceCheck (m : Module) (src a n right : Nat) : Except Nat Site :=
  if !m.mapAllows src a n right then .error St.outOfMap
  else
    match m.site a with
    | .error e => .error e
    | .ok s => if m.pathStatus src a s ≠ St.ok then .error (m.pathStatus src a s) else .ok s

/-- A position under reset issues no new packet (R342), and no interface reuses a tag whose answer it still discards (R513). -/
def Module.mayIssue (m : Module) (op : Nat) (p : Packet) : Bool :=
  !m.absorbs p.src.toNat && (op == 2 || !m.net.staleTag p.src.toNat p.tag)

/-! ### Multicast (R343 to R347) -/

/-- The endpoint kind, core and offset of a window. -/
def Site.window : Site → Option (Nat × Nat × Nat)
  | .scratch c o => some (0, c, o)
  | .slice c o => some (1, c, o)
  | _ => none

/-- The rule that a long write of a core meets: one in whose range its address lies (R344). -/
def Module.ruleOf (m : Module) (p : Packet) : Option McRule :=
  if p.src.toNat < 576 ∧ 64 ≤ p.len then (m.mcRule p.src.toNat p.addr).map (·.1) else none

/-- Flits that a router's retention buffer holds. -/
def heldFlits (l : List Retained) : Nat := l.foldl (fun a x => a + x.flits) 0

/-- Replaces a router's retention buffer, and notes its highest filling. -/
def Module.setRet (m : Module) (n : Nat) (l : List Retained) : Module :=
  let m := { m with net := { m.net with ret := Tbl.set [] m.net.ret n l } }
  m.wr F.NOC_RET_STS_HIGH n (max (m.rd F.NOC_RET_STS_HIGH n) (heldFlits l))

/-- A copy of a multicast write reaches its endpoint at a position (R341, R345). -/
def Module.copyTo (m : Module) (x : Retained) (t : Nat) : Module :=
  m.deliver ⟨x.packet, 1, windowAddr (if x.scratch then 0 else 1) t x.off, t, x.path ++ x.box.treePath t, [], none⟩

/-- A multicast packet at router (x, y), on some of its branches there (R345, R347): on those that can accept it, it is delivered or goes on; a
copy for a branch that is blocked, or for which one of its virtual channel is retained already, is retained where the buffer's 8 flits hold
it; else the packet is held at its input, behind what is held there. `blocked` names routers and branches without a credit. Only multicast packets wait for each other so
(DESIGN CHOICE, log entry 97). -/
def Module.mcAt : Nat → Module → Retained → Nat → Nat → Nat → List Nat → List (Nat × Nat) → Module
  | 0, m, _, _, _, _, _, _ => m
  | fuel + 1, m, x, px, py, input, branches, blocked =>
    let n := coreAt px py
    let l := Tbl.get [] m.net.ret n
    let vc := x.packet.vc
    let size := 1 + x.packet.len / 64
    let room := 8 - heldFlits l
    let stuck := branches.filter fun b => blocked.contains (n, b) || l.any fun e => e.branch == b && e.packet.vc == vc
    if l.any fun e => e.stalled && e.input == input && e.packet.vc == vc then
      m.setRet n (l ++ [{ x with branch := branches.headD 0, flits := 0, stalled := true, input := input, rest := branches.drop 1 }])
    else if stuck.length * size ≤ room then
      (branches.filter fun b => !stuck.contains b).foldl (fun (m : Module) b =>
        let m := m.noteFlits [n] vc size
        match b with
        | 0 => m.copyTo x n
        | 1 => Module.mcAt fuel m x (px + 1) py 1 (x.box.branches (px + 1) py) blocked
        | _ => Module.mcAt fuel m x px (py + 1) 2 (x.box.branches px (py + 1)) blocked)
        (if stuck.isEmpty then m else m.setRet n (l ++ stuck.map fun b => { x with branch := b, flits := size, stalled := false, rest := [] }))
    else
      m.setRet n (l ++ [{ x with branch := stuck.headD 0, flits := min room size, stalled := true, input := input,
                                 rest := branches.filter (· != stuck.headD 0) }])

/-! ### Ways (R324, R330, R347, R474) -/

/-- A packet passes its path: the routers count its flits, and it reaches its endpoint, or the first router of its box. -/
def Module.pass (m : Module) (w : Waiting) (blocked : List (Nat × Nat) := []) : Module :=
  let p := w.packet
  match w.multi with
  | some x =>
    Module.mcAt 48 (m.noteFlits w.path.dropLast p.vc (requestFlits 4 p.len)) x x.box.x0 x.box.y0 0 (x.box.branches x.box.x0 x.box.y0) blocked
  | none =>
    let m := m.noteFlits w.path p.vc (requestFlits (min w.op 3) p.len)
    match m.site p.addr with
    | .ok s => m.arrive w.op p s w.path w.part
    | .error e => m.answer ⟨p, w.op, p.addr, 0, w.path, [], w.part⟩ e

/-- One packet must arrive after another (R324): of one source and one destination endpoint, on one virtual channel, unicast both or multicast
both. -/
def Waiting.after (a b : Waiting) : Bool :=
  a.packet.src == b.packet.src && a.path.head? == b.path.head? && a.packet.vc == b.packet.vc && a.packet.head.dest == b.packet.head.dest
    && a.packet.head.mcast == b.packet.head.mcast

/-- An injected packet goes its way, or waits on its path. -/
def Module.onPath (m : Module) (w : Waiting) (blocked : List (Nat × Nat) := []) : Module :=
  if m.net.wait.any w.after || m.pathTests w.path || m.pathHeld (if w.multi.isSome then w.path.dropLast else w.path) w.packet.vc then
    { m with net := { m.net with wait := m.net.wait ++ [w] } }
  else m.pass w blocked

/-- The packets that wait on their paths go on, in order, as far as they can now. -/
def Module.rePass (m : Module) : Module :=
  if m.net.wait.isEmpty then m
  else m.net.wait.foldl (fun (m : Module) w => m.onPath w) { m with net := { m.net with wait := [] } }

/-- A unicast request that its interface injects (R325, R330): it passes its path to its endpoint. -/
def Module.unicast (m : Module) (op : Nat) (p : Packet) (s : Site) : Module :=
  let q := { p with head := m.headOf op p s (destRouter p.addr s) false }
  let m := if op = 2 then m else m.noteOutst p.src.toNat p.tag (op == 0)
  m.onPath { op := op, packet := q, path := m.pathNodes (srcRouter p.src.toNat) (destRouter p.addr s) }

/-- A multicast write under a rule (R344 to R346), its path as far as the box's first router. -/
def Module.multicast (m : Module) (p : Packet) (s : Site) (r : McRule) (blocked : List (Nat × Nat)) : Module :=
  let src := p.src.toNat
  let path := m.pathNodes (some src) (some (coreAt r.box.x0 r.box.y0))
  let o := match s.window with | some (_, _, o) => o | none => 0
  let q := { p with head := m.headOf 1 p s (some (coreAt r.box.x0 r.box.y0)) true }
  let m := m.noteOutst src p.tag false
  let w : MWrite := ⟨src, p.tag, r.box.cores, none, false⟩
  let m : Module := { m with net := { m.net with mw := m.net.mw ++ [w] } }
  m.onPath
    { op := 1, packet := q, path := path
      multi := some { packet := q, path := path, scratch := r.endpoint == 0, off := o, box := r.box, branch := 0, flits := 0 } } blocked

/-- RETENTION_RETRY (R347): the oldest copy retained for a branch and virtual channel of a router leaves, its branch having a credit; one held at
its input goes on as far as the branches allow. -/
def Module.retry (m : Module) (n branch vc : Nat) : Module :=
  let l := Tbl.get [] m.net.ret n
  match ((List.range l.length).zip l).find? fun e => e.2.branch == branch && e.2.packet.vc.val == vc with
  | none => m
  | some (i, x) =>
    let pre := l.take i
    let post := l.drop (i + 1)
    let size := 1 + x.packet.len / 64
    let on (m : Module) (b : Nat) : Module :=
      let m := m.noteFlits [n] vc size
      match b with
      | 0 => m.copyTo x n
      | 1 => Module.mcAt 48 m x (meshX n + 1) (meshY n) 1 (x.box.branches (meshX n + 1) (meshY n)) []
      | _ => Module.mcAt 48 m x (meshX n) (meshY n + 1) 2 (x.box.branches (meshX n) (meshY n + 1)) []
    if !x.stalled then on (m.setRet n (pre ++ post)) branch
    else if pre.any fun e => e.stalled && e.input == x.input && e.packet.vc.val == vc then m
    else
      let stuck := x.rest.filter fun b => (pre ++ post.filter fun e => !e.stalled).any fun e => e.branch == b && e.packet.vc.val == vc
      let room := 8 - heldFlits (pre ++ post)
      if stuck.length * size ≤ room then
        ((branch :: x.rest).filter fun b => !stuck.contains b).foldl on
          (m.setRet n (pre ++ (stuck.map fun b => { x with branch := b, flits := size, stalled := false, rest := [] }) ++ post))
      else
        m.setRet n (pre ++ { x with branch := stuck.headD 0, flits := min room size,
                                    rest := (branch :: x.rest).filter (· != stuck.headD 0) } :: post)

/-- RETENTION_RETRY (R347); what waited behind a packet held at an input goes on as far as it can. -/
def execRetentionRetry (b : Branch) (s : State) : Res := s.done (s.m.retry b.router b.branch b.vc).rePass

/-! ### Source interfaces (R356, R361, R362) -/

/-- Where a multicast write is stopped before it is injected: the map, and the route to its box's first router (R337, R345). -/
def Module.multiCheck (m : Module) (p : Packet) (r : McRule) : Except Nat Site :=
  if !m.mapAllows p.src.toNat p.addr p.len Right.write then .error St.outOfMap
  else if !(m.pathLinks (some p.src.toNat) (some (coreAt r.box.x0 r.box.y0))).all m.d2dUp then .error St.linkDown
  else m.site p.addr

/-- What a request carries when it is selected for injection (R356, R367, R370): its deadline of now, and of a hub requester the fare and channel
that QOS_HUBSRC_CFG gives now. -/
def Module.stamped (m : Module) (p : Packet) : Packet :=
  let st := m.stamp p.src.toNat p.addr p.fare.toNat
  if p.src.toNat < 576 then { p with deadline := st.deadline }
  else { p with fare := BitVec.ofNat 8 st.tag, vc := Fin.ofNat 4 st.vc, deadline := st.deadline }

/-- A request that is selected for injection: it draws its bucket and goes, or is stopped at its source (R337, R362, R367). -/
def Module.launch (m : Module) (op : Nat) (p : Packet) (blocked : List (Nat × Nat)) : Module :=
  let src := p.src.toNat
  let i := srcIface src none
  let p := m.stamped p
  match (if op = 1 then m.ruleOf p else none) with
  | some r =>
    (match m.multiCheck p r with
    | .error e =>
      let m := if e = St.linkDown then m.bump F.NOC_LINKDOWN_CNT_COUNT src else m
      m.emit (.completeMulti src p.tag e)
    | .ok s => (m.draw i p.vc (flitCharge 4 p.len r.box.cores.length)).multicast p s r blocked)
  | none =>
    match m.sourceCheck src p.addr p.len (opRight op) with
    | .error e => m.stopAtSource op p e
    | .ok s => (m.draw i p.vc (flitCharge (min op 3) p.len 1)).unicast op p s

/-- The charge of a request (R362). -/
def Module.charged (m : Module) (op : Nat) (p : Packet) : Nat :=
  match (if op = 1 then m.ruleOf p else none) with
  | some r => flitCharge 4 p.len r.box.cores.length
  | none => flitCharge (min op 3) p.len 1

/-- The bucket that the packets of an access from outside draw (R362). -/
def Module.txKey (m : Module) : TxKind → Nat
  | .read f _ _ _ _ | .write f _ _ _ _ _ => bucketKey (srcIface (reqHost + f) none) 0
  | .fabric p _ part fare => bucketKey (srcIface 0 (some p)) (m.classOf part fare)

/-- A packet of an access from outside waits for a bucket (R362). -/
def Module.txWaits (m : Module) (k : Nat) : Bool := m.tx.any fun t => m.txKey t.kind == k && t.pieces.any fun p => p.st == .waits

/-- A request comes to its source interface, which gives it its fare, channel and deadline (R138, R321, R356, R367; the packet's own are not
used, DEDUCED, log entry 96): it is injected where nothing of its channel waits and its bucket holds its charge, else it is held behind what
waits (R362). -/
def Module.inject (m : Module) (op : Nat) (p0 : Packet) (blocked : List (Nat × Nat) := []) : Module :=
  if !m.mayIssue op p0 then m
  else
    let src := p0.src.toNat
    let st := m.stamp src p0.addr (m.fareNow src)
    let p := { p0 with fare := BitVec.ofNat 8 st.tag, vc := Fin.ofNat 4 st.vc }
    let i := srcIface src none
    let k := bucketKey i p.vc
    if (Tbl.get [] m.qos.held k).isEmpty && !m.txWaits k && m.bucketHolds i p.vc (m.charged op p) then m.launch op p blocked
    else { m with qos := { m.qos with held := Tbl.upd [] m.qos.held k (· ++ [(op, p)]) } }

/-- The kind of a request in R362. -/
def Module.kindOf (m : Module) (op : Nat) (p : Packet) : Nat := if op = 1 ∧ (m.ruleOf p).isSome then 4 else min op 3

/-- The first held request of an interface's channel is injected, if it is the one named and its bucket holds its charge (R362). -/
def Module.releaseHeld (m : Module) (kind : Nat) (p : Packet) : Module :=
  let i := srcIface p.src.toNat none
  match (List.range 4).findSome? fun v => match Tbl.get [] m.qos.held (bucketKey i v) with
    | (op, q) :: t => if m.kindOf op q = kind ∧ q.src = p.src ∧ q.tag = p.tag ∧ q.addr = p.addr then some (v, op, q, t) else none
    | [] => none with
  | some (v, op, q, t) =>
    if m.bucketHolds i v (m.charged op q) then
      { m with qos := { m.qos with held := Tbl.set [] m.qos.held (bucketKey i v) t } }.launch op q []
    else m
  | none => m

/-! ### Requests of the companion (R488) -/

/-- Window w of the companion port grants a right and contains every byte (R488). -/
def Module.ucpWindow (m : Module) (w a n right : Nat) : Bool :=
  let base := m.rd F.UCP_ADM_BASE_HI_BASE_HI 4 w * 2 ^ 32 + m.rd F.UCP_ADM_BASE_LO_BASE_LO 4 w * 4096
  m.rd F.UCP_ADM_CFG_EN 4 w == 1
    && (if right = Right.read then m.rd F.UCP_ADM_CFG_RD 4 w == 1
        else if right = Right.write then m.rd F.UCP_ADM_CFG_WR 4 w == 1 else m.rd F.UCP_ADM_CFG_AT 4 w == 1)
    && decide (base ≤ a) && decide (a + n ≤ base + m.rd F.UCP_ADM_LEN_PAGES 4 w * 4096)

/-- The status that the windows give a companion request (R488): OK, UNMAPPED where none admits it, OUT-OF-MAP where the partition of the
first one that does lacks the right. -/
def Module.ucpAdmit (m : Module) (a n right : Nat) : Nat :=
  match (List.range 4).find? fun w => m.ucpWindow w a n right with
  | none => St.unmapped
  | some w => if m.rights (m.rd F.UCP_ADM_CFG_PART 4 w) a n &&& right = right then St.ok else St.outOfMap

/-- A companion request is refused at the hub: a non-posted one is answered. -/
def Module.ucpRefuse (m : Module) (answered : Bool) (read : Bool) (p : Packet) (status : Nat) : Module :=
  if answered then m.completeAt reqCompanion p.tag status [] read [] p.vc else m

/-- A well-formed request of the companion at the hub (R488): none comes while the port is not UP, and the companion makes requests where its
IDENT says so. It travels with the fare and channel of QOS_HUBSRC_CFG9 (R356). -/
def Module.ucpRequest (m : Module) (op : Nat) (p : Packet) (blocked : List (Nat × Nat) := []) : Module :=
  if !m.companionUp then m
  else if m.rd F.UCP_CAP_REQUESTS 4 = 0 then (m.bump F.UCP_MALFORMED_CNT_COUNT 4).ucpRefuse (op != 2) (op == 0) p St.malformed
  else
    let st := m.ucpAdmit p.addr p.len (opRight op)
    if st ≠ St.ok then (m.bump F.UCP_NOWIN_CNT_COUNT 4).ucpRefuse (op != 2) (op == 0) p st
    else m.inject op { p with src := BitVec.ofNat 12 reqCompanion } blocked

/-- A request as its requester makes it: the companion's comes in at the hub. -/
def Module.request (m : Module) (op : Nat) (p : Packet) (blocked : List (Nat × Nat) := []) : Module :=
  if p.src.toNat = reqCompanion then m.ucpRequest op p blocked else m.inject op p blocked

/-- MESH_READ (R327). -/
def execMeshRead (p : Packet) (s : State) : Res := s.done (if packetWf p 0 then s.m.request 0 p else s.m)
/-- PWRITE (R327, R340). -/
def execPwrite (p : Packet) (s : State) : Res := s.done (if packetWf p 2 then s.m.request 2 p else s.m)

/-- An atomic operation (R329). -/
def Module.atomic (m : Module) (k : Nat) (p : Packet) : Module := if packetWf p (3 + k) then m.request (3 + k) p else m

/-- ATOMIC_SWAP (R329). -/
def execAtomicSwap (p : Packet) (s : State) : Res := s.done (s.m.atomic 0x0 p)
/-- ATOMIC_CAS (R329). -/
def execAtomicCas (p : Packet) (s : State) : Res := s.done (s.m.atomic 0x1 p)
/-- ATOMIC_ADD (R329). -/
def execAtomicAdd (p : Packet) (s : State) : Res := s.done (s.m.atomic 0x2 p)
/-- ATOMIC_AND (R329). -/
def execAtomicAnd (p : Packet) (s : State) : Res := s.done (s.m.atomic 0x3 p)
/-- ATOMIC_OR (R329). -/
def execAtomicOr (p : Packet) (s : State) : Res := s.done (s.m.atomic 0x4 p)
/-- ATOMIC_XOR (R329). -/
def execAtomicXor (p : Packet) (s : State) : Res := s.done (s.m.atomic 0x5 p)
/-- SMAX (R329). -/
def execSmax (p : Packet) (s : State) : Res := s.done (s.m.atomic 0x6 p)
/-- SMIN (R329). -/
def execSmin (p : Packet) (s : State) : Res := s.done (s.m.atomic 0x7 p)
/-- UMAX (R329). -/
def execUmax (p : Packet) (s : State) : Res := s.done (s.m.atomic 0x8 p)
/-- UMIN (R329). -/
def execUmin (p : Packet) (s : State) : Res := s.done (s.m.atomic 0x9 p)
/-- FADD (R329). -/
def execFadd (p : Packet) (s : State) : Res := s.done (s.m.atomic 0xA p)

/-- ATOMIC_RESERVED (R328, R329): answered MALFORMED, whatever it is addressed to; the hub counts one of the companion's. -/
def execAtomicReserved (p : Packet) (_op : Fin 5) (s : State) : Res :=
  let m := s.m
  s.done (if !(packetWf p 3) || !m.mayIssue 3 p || (p.src.toNat == reqCompanion && !m.companionUp) then m
    else
      let m := if p.src.toNat = reqCompanion then m.bump F.UCP_MALFORMED_CNT_COUNT 4 else m
      m.completeAt p.src.toNat p.tag St.malformed [])

/-- MESH_WRITE (R327, R344). -/
def execMeshWrite (p : Packet) (s : State) : Res := s.done (if packetWf p 1 then s.m.request 1 p else s.m)
/-- MWRITE (R344 to R347): a write, which a rule makes multicast; `blocked` names routers and branches without a credit. -/
def execMwrite (p : Packet) (blocked : List (CoreId × Fin 3)) (s : State) : Res :=
  s.done (if packetWf p 1 then s.m.request 1 p (blocked.map fun (c, b) => (c.val, b.val)) else s.m)

/-! ### Answers (R339, R346, R513) -/

/-- Two answers of one endpoint to one requester on one virtual channel: they arrive in order (R324). -/
def Resp.sameWay (a b : Resp) : Bool := a.src == b.src && a.from' == b.from' && a.vc == b.vc

/-- The first answer on the mesh that meets a condition, and the rest; none where an older one of its way is before it. -/
def takeResp (f : Resp → Bool) : List Resp → List Resp → Option (Resp × List Resp)
  | _, [] => none
  | before, r :: t =>
    if f r then (if before.any r.sameWay then none else some (r, before.reverse ++ t)) else takeResp f (r :: before) t

/-- The state of a requester's tag: none outstanding, one that a reset made stale, or a live one. -/
def Net.tagState (n : Net) (src tag : Nat) : Option Bool :=
  (n.outst.find? fun o => o.src == src && o.tag == tag).map Outst.stale

/-- A position's router absorbs what comes for its core endpoint (R341): a response to it is discarded (R342). -/
def Module.absorbsAnswers (m : Module) (src : Nat) : Bool :=
  decide (src < 576) && (m.absorbs src || !m.good src || (m.partOf src).isNone)

/-- An answer arrives at its requester's interface: it is absorbed there (R341, R342), completes its request, is discarded after a reset
(R513), or comes too late. -/
def Module.takeAnswer (m : Module) (r : Resp) : Module :=
  if m.absorbsAnswers r.src then (m.bump F.NOC_ABSORB_CNT_COUNT r.src).dropOutst r.src r.tag
  else
    match m.net.tagState r.src r.tag with
    | none => m.bumpAt F.NOC_LATE_CNT_COUNT r.src
    | some true => m.dropOutst r.src r.tag
    | some false => m.completeAt r.src r.tag r.status r.data r.read r.poison (Fin.ofNat 4 r.vc)

/-- An answer leaves the mesh: its flits passed its request's path in reverse (R330, R353). -/
def Module.leaveMesh (m : Module) (r : Resp) (l : List Resp) : Module :=
  { m with net := { m.net with resp := l } }.noteFlits r.path r.vc (if r.read then 1 + r.data.length / 64 else 1)

/-- RDATA (R327, R339). An answer waits where its path holds it (R32, R474). -/
def execRdata (src : Requester) (tag : Nat) (s : State) : Res :=
  let m := s.m
  s.done (match takeResp (fun r => r.read && r.src == src.toNat && r.tag == tag) [] m.net.resp with
    | none => m
    | some (r, l) => if m.pathTests r.path then m else (m.leaveMesh r l).takeAnswer r)

/-- The worst answer of a multicast write so far: of those other than OK, the one of the lowest-numbered target. -/
def worse (w : Option (Nat × Nat)) (target status : Nat) : Option (Nat × Nat) :=
  if status = St.ok then w
  else match w with
    | none => some (target, status)
    | some (t, st) => if target < t then some (target, status) else some (t, st)

/-- One WACK of a multicast write (R346); one that its source's router absorbs completes nothing (R342), and the last one of a write issued before
a reset frees its tag alone (R513). -/
def Module.takeMulti (m : Module) (w : MWrite) (r : Resp) : Module :=
  let w' : MWrite := { w with waiting := w.waiting.filter (· != r.target), worst := worse w.worst r.target r.status }
  let others := m.net.mw.filter fun x => !(x.src == w.src && x.tag == w.tag)
  let absorbed := m.absorbsAnswers w.src
  let m := if absorbed then m.bump F.NOC_ABSORB_CNT_COUNT w.src else m
  if w'.waiting.isEmpty then
    let m := ({ m with net := { m.net with mw := others } }).dropOutst w.src w.tag
    if absorbed || w.stale then m
    else m.emit (.completeMulti w.src w.tag (match w'.worst with | some (_, st) => st | none => St.ok))
  else { m with net := { m.net with mw := others ++ [w'] } }

/-- WACK (R327, R329, R346): the target matters for a multicast write alone. -/
def execWack (src : Requester) (tag : Nat) (target : CoreId) (s : State) : Res :=
  let m := s.m
  let mine (r : Resp) : Bool := !r.read && r.src == src.toNat && r.tag == tag
  s.done (match m.net.mw.find? fun w => w.src == src.toNat && w.tag == tag with
    | some w =>
      (match takeResp (fun r => mine r && r.target == target.val) [] m.net.resp with
      | none => m
      | some (r, l) => if m.pathTests r.path then m else (m.leaveMesh r l).takeMulti w r)
    | none =>
      match takeResp mine [] m.net.resp with
      | none => m
      | some (r, l) => if m.pathTests r.path then m else (m.leaveMesh r l).takeAnswer r)

/-- A packet of a function's access from outside is on its way (R339): the one of a number. -/
def Module.txOut (m : Module) (src n : Nat) : Bool :=
  m.tx.any fun t => t.has n && (match t.kind with | .read f _ _ _ _ | .write f _ _ _ _ _ => reqHost + f == src | .fabric _ _ _ _ => false) &&
    (t.pieces[n - t.id]?).any fun p => p.st == .out

/-- REQUEST_TIMEOUT (R339, R346, R385, R513): TAG is the request's, or 65,536 and the number of a packet of the host endpoint. -/
def execRequestTimeout (src : Requester) (tag : Nat) (s : State) : Res :=
  let m := s.m
  let r := src.toNat
  s.done (match m.net.tagState r tag with
    | none =>
      let m := m.compEngAnswer r tag St.timeout [] []
      if txTag ≤ tag ∧ m.txOut r (tag - txTag) then m.txResult (tag - txTag) St.timeout [] [] else m
    | some true => { m with net := { m.net with mw := m.net.mw.filter fun w => !(w.src == r && w.tag == tag) } }.dropOutst r tag
    | some false =>
      let m := m.bumpAt F.NOC_TIMEOUT_CNT_COUNT r
      if m.net.mw.any fun w => w.src == r && w.tag == tag then
        ({ m with net := { m.net with mw := m.net.mw.filter fun w => !(w.src == r && w.tag == tag) } }.dropOutst r tag).emit
          (.completeMulti r tag St.timeout)
      else m.completeAt r tag St.timeout [] (m.net.outst.any fun o => o.src == r && o.tag == tag && o.read))

/-! ### Drains and links that are down -/

/-- An answer with data that a position's core endpoint, its core registers included, owes to another requester and has not sent when the bound
ends (R342). -/
def Resp.owedBy (r : Resp) (c : Nat) : Bool := r.read && r.from' == routerWord (some c) 0 && r.src != c && !r.data.isEmpty

/-- A multicast write of a position whose flits have not all left its router (R342, R347). -/
def Retained.cutAt (x : Retained) (c : Nat) : Bool := x.stalled && x.packet.src.toNat == c && x.path == [c]

/-- The data flits of a packet that have not left carry the poison tag (R342). -/
def Retained.poisoned (x : Retained) : Retained :=
  { x with packet := { x.packet with poison := ((List.range x.packet.poison.length).zip x.packet.poison).map fun (i, b) => b || decide (x.flits ≤ i + 1) } }

/-- DRAIN_END (R342): of a position under reset, the answers that it owes are sent as poisoned, a packet of its own that has left its router in
part goes on with poisoned flits, each counted, and what its own interface had outstanding is abandoned. An answer still on the mesh is one not yet sent. -/
def execDrainEnd (c : CoreId) (s : State) : Res :=
  let m := s.m
  let n := (m.net.resp.filter (·.owedBy c)).length
  s.done (if !m.absorbs c.val then m
    else
      let m := { m with net := { m.net with resp := m.net.resp.map fun (r : Resp) =>
        (if r.owedBy c then { r with status := St.poisoned, poison := r.poison.map fun _ => true } else r : Resp) } }
      let cut := (Tbl.get [] m.net.ret c.val).filter fun (x : Retained) => x.cutAt c
      let m := { m with net := { m.net with ret := Tbl.set [] m.net.ret c.val ((Tbl.get [] m.net.ret c.val).map fun (x : Retained) =>
        if x.cutAt c then x.poisoned else x) } }
      (m.bumpBy F.NOC_DRAIN_POISON_CNT_COUNT c (n + cut.length)).dropAnswers c)

/-- ROUTE_COND_APPLY (R337): from now on the sources apply the COND records of a link as it stands. -/
def execRouteCondApply (link : Fin 6) (s : State) : Res :=
  let m := s.m
  s.done ({ m with net := { m.net with
    cond := if m.d2dUp link then NSet.erase m.net.cond link else NSet.insert m.net.cond link } })

end Sys2Proof.Machine
end

