-- ==== Sys2Proof/Machine/Companion.lean ====
section
/-! DEFINITION. Requests of the companion die (R328, R483, R488): their checks at entry, the admission windows, and their way as requester
0x900. -/

namespace Sys2Proof.Machine

/-- The operation of a packet kind (R327) with its ATOP: 0 READ, 1 WRITE, 2 PWRITE, 3 + k the atomic operation k. -/
def kindOp (kind atop : Nat) : Option Nat :=
  match kind with
  | 1 => some 0
  | 2 => some 1
  | 3 => some 2
  | 4 => some (3 + atop % 16)
  | _ => none

/-- An atomic's ATOP names an operation, and its size is LEN; FADD has size 4 alone (R325, R329). -/
def atopOk (atop len : Nat) : Bool :=
  decide (atop % 16 < 0xB) && (if atop < 16 then len == 4 else len == 8) && !(atop % 16 == 0xA && atop ≥ 16)

/-- A packet kind is answered: READ, WRITE, ATOMIC and MWRITE. -/
def kindAnswered (kind : Nat) : Bool := kind == 1 || kind == 2 || kind == 4 || kind == 5

/-- A packet that keeps to R325 and R327. -/
def kindWf (kind atop : Nat) (p : Packet) : Bool :=
  match kindOp kind atop with
  | some op => packetWf p op && headOk p.head op p.len && (kind != 4 || atopOk atop p.len)
  | none => false

/-- A response of the companion that keeps to R325 and R327: RDATA with the bytes of its read where it is OK or POISONED, WACK without data or
with an atomic's old value. -/
def responseWf (kind : Nat) (p : Packet) : Bool :=
  let done := p.head.status == 0 || p.head.status.toNat == St.poisoned
  decide (p.tag < 16384) && p.head.ndata == p.data.length / 64 && !p.head.rsvd &&
    (if kind = 6 then (if done then p.data.length == p.len && (shortSize p.addr p.len || longSize p.addr p.len) else p.data.isEmpty)
     else p.data.isEmpty || (done && p.data.length == 8))

/-- A response of the companion (R328, R487): a malformed one is discarded and counted; one for a request that it has to answer ends it, by
requester, TAG and kind; another is late (R339). -/
def Module.ucpAnswer (m : Module) (kind : Nat) (p : Packet) : Module :=
  let src := p.src.toNat
  if !responseWf kind p then m.bump F.UCP_MALFORMED_CNT_COUNT 4
  else
    let mine (h : HeldReq) : Bool := h.packet.src == p.src && h.packet.tag % 16384 == p.tag && (h.op == 0) == (kind == 6)
    match m.compOut.find? mine with
    | some h =>
      if kind = 6 ∧ !p.data.isEmpty ∧ p.data.length ≠ h.size then m.bump F.UCP_MALFORMED_CNT_COUNT 4
      else { m with compOut := m.compOut.eraseP mine }.answer h p.head.status.toNat p.data p.poison
    | none =>
      if m.compEng.any fun e => e.src == src && e.tag == p.tag && e.sent && e.ans.isNone then
        m.compEngAnswer src p.tag p.head.status.toNat p.data p.poison
      else m.bumpAt F.NOC_LATE_CNT_COUNT src

/-- COMPANION_REQUEST (R328, R483, R487, R488): a packet of the companion, of any kind; nothing arrives while the port is not UP. It leaves the
port's receive buffer. -/
def execCompanionRequest (kind : Fin 256) (atop : Fin 32) (p : Packet) (s : State) : Res :=
  let m := s.m
  s.done (if m.ucpState ≠ Ucp.up then m
    else
      let m := m.leaveRx ucpPort ⟨kind, { dunit := 0, sunit := 0, hops := 0, op := BitVec.ofNat 8 atop, status := p.head.status, p := p }⟩
      if kind.val = 6 ∨ kind.val = 7 then m.ucpAnswer kind p
      else
        match kindOp kind atop with
        | some op =>
          if !kindWf kind atop p then (m.bump F.UCP_MALFORMED_CNT_COUNT 4).ucpRefuse (kindAnswered kind) (kind.val == 1) p St.malformed
          else m.ucpRequest op p
        | none => (m.bump F.UCP_MALFORMED_CNT_COUNT 4).ucpRefuse (kindAnswered kind) false p St.malformed)

end Sys2Proof.Machine
end

