-- ==== Sys2Proof/Machine/Control.lean ====
section
/-! DEFINITION. The control network (R338, R348 to R352, R355): the sequencer's messages, their way to a station, and the fault notices
that Ostler takes (R140, R520). -/

namespace Sys2Proof.Machine

/-- The hub links that a control message between two dies needs, 4 standing for the hub (R338): none within a die or over a live
vertical link. -/
def Module.ctlLinks (m : Module) (d e : Nat) : List Nat :=
  if d = e then []
  else if d = 4 then [2 + e]
  else if e = 4 then [2 + d]
  else if d / 2 = e / 2 && m.d2dUp (d / 2) then []
  else [2 + d, 2 + e]

/-- The die of a control station's requester. -/
def ctlDie (r : Nat) : Nat := if r < 576 then coreDie r else 4

/-- The sending station discards this message (R350): it leaves the sender's partition, names neither a core nor Ostler, or needs a
down hub link. -/
def Module.undeliverable (m : Module) (x : CtlMsg) : Bool :=
  (decide (x.src < 576) && decide (x.dst < 576) &&
    (match m.partOf x.src, m.partOf x.dst with | some p, some q => p.num != q.num | _, _ => true)) ||
  (stationOf x.dst).isNone ||
  !(m.ctlLinks (ctlDie x.src) (ctlDie x.dst)).all m.d2dUp

/-- A message's way between two dies holds it now: a link in TEST or RETRAIN (R474), or domain N of a die on it, or of the hub, without lock (R32). -/
def Module.ctlHolds (m : Module) (d e : Nat) : Bool :=
  let dead (x : Nat) : Bool := m.lockLost.contains (x * 4 + 1)
  let ls := m.ctlLinks d e
  dead d || dead e || (!ls.isEmpty && dead 4) || (if ls.isEmpty && d != e then [d / 2] else ls).any m.linkHolds

/-- Counts a message discarded at its sender; Ostler's station has no registers. -/
def Module.noteUndeliv (m : Module) (src : Nat) : Module := if src < 576 then m.bump F.CTL_UNDELIV_CNT_COUNT src else m

/-- A position's router absorbs packets for its core (R341): the core resets, is fenced, or lies in an unassigned cluster. -/
def Module.coreAbsorbs (m : Module) (c : Nat) : Bool := m.absorbs c || !m.good c || (m.partOf c).isNone

/-- A send instruction (R351): it stalls while the transmit queue is full; a message that cannot be delivered is discarded. -/
def Module.send (m : Module) (c src1 : Nat) (imm : Word) (c0 : Bool) (pay : Core → Option DWord) : Module :=
  m.fetch c fun m k =>
    let x : CtlMsg := ⟨c, (k.getG src1).toNat % 4096, c0, pay k, imm⟩
    if (m.station c).tx.length ≥ 4 then m.wr F.SEQ_STS_ISSUE_STALL c 1
    else
      let m := (m.wr F.SEQ_STS_ISSUE_STALL c 0).retire c k
      if m.undeliverable x then m.noteUndeliv c else m.pushCtl c x

/-- CSEND: C1 without payload. -/
def execCsend (c : CoreId) (src1 : GReg) (imm : Word) (s : State) : Res := s.done (s.m.send c src1 imm false fun _ => none)
/-- CSENDP: C1 with payload. -/
def execCsendp (c : CoreId) (src1 src2 : GReg) (imm : Word) (s : State) : Res :=
  s.done (s.m.send c src1 imm false fun k => some (k.getG src2))
/-- CSENDH: C0 without payload. -/
def execCsendh (c : CoreId) (src1 : GReg) (imm : Word) (s : State) : Res := s.done (s.m.send c src1 imm true fun _ => none)
/-- CSENDHP: C0 with payload. -/
def execCsendhp (c : CoreId) (src1 src2 : GReg) (imm : Word) (s : State) : Res :=
  s.done (s.m.send c src1 imm true fun k => some (k.getG src2))

/-- The oldest C0 message of a station, or failing that the oldest C1 message, and the station without it. -/
def CtlSt.takeRx (s : CtlSt) : Option (CtlMsg × CtlSt) :=
  match s.rx0, s.rx1 with
  | x :: t, _ => some (x, { s with rx0 := t })
  | [], x :: t => some (x, { s with rx1 := t })
  | [], [] => none

/-- The first register that a received message is written into (R351). -/
def CtlMsg.head (x : CtlMsg) : DWord :=
  BitVec.ofNat 64 (x.word.toNat + x.src * 2 ^ 32 + (if x.c0 then 2 ^ 44 else 0) + (if x.pay.isSome then 2 ^ 45 else 0) + 2 ^ 63)

/-- A core takes a message into G[dst] and G[dst + 1] and goes on after its instruction (R351). -/
def Module.takeMsg (m : Module) (c dst : Nat) (k : Core) (x : CtlMsg) (st : CtlSt) : Module :=
  (m.setStation c st).retire c ((k.setG dst x.head).setG (dst + 1) (x.pay.getD 0))

/-- DST of CRECV and CPOLL is even, 2 to 14 (R351). -/
def recvDst (dst : Nat) : Bool := dst % 2 == 0 && decide (2 ≤ dst)

/-- CRECV: takes a message, or waits for one. -/
def execCrecv (c : CoreId) (dst : GReg) (s : State) : Res :=
  s.done (s.m.fetch c fun m k =>
    if !recvDst dst then m.opInvalid c k
    else match (m.station c).takeRx with
      | some (x, st) => m.takeMsg c dst k x st
      | none => (m.setCore c { k with wait := some (.message dst), lastPc := k.pc }).setCoreSt c .waiting)

/-- CRECV_RESUME (R351): a core waiting in CRECV takes the message that arrived and resumes. -/
def execCrecvResume (c : CoreId) (s : State) : Res :=
  let k := s.m.core c
  s.done (match k.st, k.wait, (s.m.station c).takeRx with
    | .waiting, some (.message dst), some (x, st) =>
      (s.m.setCoreSt c .running).takeMsg c dst { k with st := .running, wait := none } x st
    | _, _, _ => s.m)

/-- CPOLL: as CRECV, and with both queues empty it writes zeros and continues. -/
def execCpoll (c : CoreId) (dst : GReg) (s : State) : Res :=
  s.done (s.m.fetch c fun m k =>
    if !recvDst dst then m.opInvalid c k
    else match (m.station c).takeRx with
      | some (x, st) => m.takeMsg c dst k x st
      | none => m.retire c ((k.setG dst 0).setG (dst.val + 1) 0))

/-- CCOUNT: the counts of waiting messages. -/
def execCcount (c : CoreId) (dst : GReg) (s : State) : Res :=
  s.done (s.m.fetch c fun m k =>
    m.retire c (k.setG dst (BitVec.ofNat 64 ((m.station c).rx0.length + (m.station c).rx1.length * 256))))

/-- A station's oldest message of a priority leaves it; a fault notice that waited takes the place freed. -/
def CtlSt.sent (s : CtlSt) (x : CtlMsg) : CtlSt :=
  match s.late with
  | [] => { s with tx := s.tx.erase x }
  | n :: t => { s with tx := s.tx.erase x ++ [n], late := t }

/-- A message enters a station's receive queue. -/
def CtlSt.received (s : CtlSt) (x : CtlMsg) : CtlSt := if x.c0 then { s with rx0 := s.rx0 ++ [x] } else { s with rx1 := s.rx1 ++ [x] }

/-- CONTROL_MESSAGE_ARRIVE (R349, R350): the oldest message of a priority in a station's transmit queue reaches its destination; it is
discarded at its sender where its path now needs a down hub link, stays where its path holds it, dropped where the destination's position absorbs, and stays where
it is while the receive queue holds 16. -/
def execControlMessageArrive (st : Fin 577) (c0 : Bool) (s : State) : Res :=
  let m := s.m
  s.done (match (m.station st).tx.find? fun x => x.c0 == c0 with
    | none => m
    | some x =>
      let m1 := m.setStation st ((m.station st).sent x)
      if m.ctlHolds (ctlDie x.src) (ctlDie x.dst) then m
      else if m.undeliverable x then m1.noteUndeliv st
      else match stationOf x.dst with
        | none => m1.noteUndeliv st
        | some d =>
          if d < 576 && m.coreAbsorbs d then m1.bump F.CTL_DROP_CNT_COUNT d
          else if (if c0 then (m.station d).rx0 else (m.station d).rx1).length ≥ 16 then m
          else
            let m2 := m1.setStation d ((m1.station d).received x)
            if d < 576 then m2.bump F.CTL_RCVD_CNT_COUNT d else m2)

/-- What Ostler does with a fault notice of a core (R520): the fault record of the core's partition captures it where VALID is 0 and
counts it, and bit 2 of the partition's function tells the host. -/
def Module.faultRecord (m : Module) (c : Nat) (w : Word) : Module :=
  match m.partOf c with
  | none => m
  | some p =>
    let m := if m.rd F.RST_PFAULT_A_VALID 4 p.num = 1 then m
      else (((m.wr F.RST_PFAULT_A_VALID 4 1 p.num).wr F.RST_PFAULT_A_CORE 4 c p.num).wr F.RST_PFAULT_A_CODE 4 (bitsAt w.toNat 18 8)
        p.num).wr F.RST_PFAULT_B_PC 4 (bitsAt w.toNat 0 18) p.num
    let m := m.bump F.RST_PFAULT_B_COUNT 4 p.num
    m.event p.fn 2

/-- FAULT_NOTICE (R520): Ostler takes the oldest message of its station, C0 first, and acts on it where it is
a fault notice; vector 1,024 + n of the physical function fires (R394). -/
def execFaultNotice (s : State) : Res :=
  s.done (match (s.m.station 576).takeRx with
    | none => s.m
    | some (x, st) =>
      let m := s.m.setStation 576 st
      if x.c0 && x.pay.isNone && bitsAt x.word.toNat 26 6 == 1 && decide (x.src < 576) then
        (m.faultRecord x.src x.word).fireMsix 0 (1024 + x.src)
      else m)

end Sys2Proof.Machine
end

