-- ==== Sys2Proof/Machine/Tx.lean ====
section
/-! DEFINITION. Accesses from outside the module (R356, R362, R366 to R368, R384 to R386, R441): a host access or an admitted fabric request is
one or more packets, which wait for their source interface's tokens, travel and wait as every request does, and are answered; the access
ends when every packet is answered. -/

namespace Sys2Proof.Machine

/-- The operation of a fabric request with its ATOP, numbered as a mesh request's (R432). -/
def fabOp (x : FabMsg) : Option Nat :=
  match x.kind with
  | 0x08 => some 0
  | 0x09 => some 1
  | 0x0A => some 2
  | 0x0B => some (3 + x.x.op.toNat % 16)
  | _ => none

/-- An access of the host, or a fabric request. -/
def TxKind.host : TxKind → Bool
  | .read _ _ _ _ _ | .write _ _ _ _ _ _ => true
  | .fabric _ _ _ _ => false

/-- The source interface of an access and its packets' channel. -/
def Module.txIface (m : Module) : TxKind → Nat × Nat
  | .read f _ _ _ _ | .write f _ _ _ _ _ => (srcIface (reqHost + f) none, m.rd F.QOS_HUBSRC_CFG_VC 4 (hubSrc (reqHost + f)))
  | .fabric p _ part fare => (srcIface 0 (some p), m.classOf part fare)

/-- The operation of an access and its packet of n bytes at address a, of number k, as its source interface injects it now: a host packet takes
QOS_HUBSRC_CFG (R356, R370), a fabric request its window's fare, that fare's channel, and a deadline where the fare is RT (R367, R441). -/
def Module.txPacket (m : Module) (t : TxKind) (k a n : Nat) : Nat × Packet :=
  match t with
  | .read f _ _ _ _ =>
    let st := m.stamp (reqHost + f) a 0
    (0, ⟨BitVec.ofNat 12 (reqHost + f), txTag + k, BitVec.ofNat 8 st.tag, Fin.ofNat 4 st.vc, st.deadline, a, n, [], [], {}⟩)
  | .write f _ _ b _ data =>
    let st := m.stamp (reqHost + f) a 0
    (1, ⟨BitVec.ofNat 12 (reqHost + f), txTag + k, BitVec.ofNat 8 st.tag, Fin.ofNat 4 st.vc, st.deadline, a, n, (data.drop (a - b)).take n,
      List.replicate (max 1 (n / 64)) false, {}⟩)
  | .fabric p x part fare =>
    ((fabOp x).getD 0, { x.x.p with
      tag := txTag + k
      fare := BitVec.ofNat 8 fare
      vc := Fin.ofNat 4 (m.classOf part fare)
      deadline := match m.fareEntry part fare with
        | some e => if e.rt then some (m.stampDeadline (coreDie (portRouter p)) e.dloff) else none
        | none => none })

/-- Where a packet of an access is stopped before it is injected, or the place that it goes to and its path: the map, which is asked neither in a
virtual function's BAR0 nor again for a fabric request (R391, R441), the address (R34) and the path (R332, R337). -/
def Module.txPlace (m : Module) (t : TxKind) (a n : Nat) : Except Nat (Site × List Nat) :=
  let host (f : Nat) (free : Bool) (right : Nat) : Except Nat (Site × List Nat) :=
    if !free && !m.mapAllows (reqHost + f) a n right then .error St.outOfMap
    else match m.site a with
      | .error e => .error e
      | .ok s => if m.pathStatus (reqHost + f) a s ≠ St.ok then .error (m.pathStatus (reqHost + f) a s) else .ok (s, m.pathNodes none (destRouter a s))
  match t with
  | .read f _ _ _ free => host f free Right.read
  | .write f _ _ _ free _ => host f free Right.write
  | .fabric p _ _ _ =>
    match m.site a with
    | .error e => .error e
    | .ok s =>
      if (defaultLinks (some (portRouter p)) (destRouter a s)).all m.d2dUp then .ok (s, defaultPath (portRouter p) (destRouter a s))
      else .error St.linkDown

/-- The head flit of a packet that enters the mesh at a fabric port (R325, R326, R433). -/
def portHead (p : Nat) (op : Nat) (q : Packet) (s : Site) : Head :=
  let dst := destRouter q.addr s
  { ndata := flitsOf op q.len, dest := routerWord dst (s.endpoint q.addr), src := routerWord (some (portRouter p)) 2
    striped := decide (0 < flitsOf op q.len) && nearRouters (portRouter p) (dst.getD hubNode) }

/-- The packet of a number is on its way. -/
def Module.txOutgoing (m : Module) (k : Nat) : Module :=
  { m with tx := m.tx.map fun t =>
      if t.has k then { t with pieces := t.pieces.modify (k - t.id) fun y => { y with st := .out } } else t }

/-- Flits that an injection of an access draws (R362): an access of register space, which is one access of a register or a queue, draws for all
of its packets. -/
def TxKind.charge (t : TxKind) (op a n : Nat) : Nat :=
  if t.host then ((piecesOf 4096 a n).map fun p => flitCharge (min op 3) p.2 1).sum else flitCharge (min op 3) n 1

/-- The bucket lets an injection of an access go: it holds the charge, or is full where a host access of register space draws more than BURST
(DESIGN CHOICE, log entry 87). -/
def Module.txTokens (m : Module) (t : TxKind) (op a n : Nat) : Bool :=
  let (i, v) := m.txIface t
  let c := t.charge op a n
  m.bucketHolds i v (if t.host then min c (m.srcReg i v).2 else c)

/-- A packet of an access is injected, or stopped at its source. -/
def Module.txGo (m : Module) (t : Tx) (k : Nat) (x : TxPiece) : Module :=
  let (op, p) := m.txPacket t.kind k x.addr x.size
  match m.txPlace t.kind x.addr x.size with
  | .error e => m.txResult k e [] []
  | .ok (s, path) =>
    let (i, v) := m.txIface t.kind
    let m := m.draw i v (t.kind.charge op x.addr x.size)
    let m := m.txOutgoing k
    match t.kind with
    | .fabric port _ part _ => m.onPath { op := op, packet := { p with head := portHead port op p s }, path := path, part := some part }
    | _ => m.onPath { op := op, packet := { p with head := m.headOf op p s (destRouter p.addr s) false }, path := path }

/-- Something of a bucket waits before the packets of accesses from outside: a mesh request, or a packet in transit. -/
def Module.bucketBusy (m : Module) (t : TxKind) : Bool :=
  match t with
  | .fabric p _ part fare => !(Tbl.get [] m.transit (p * 4 + m.classOf part fare)).isEmpty
  | _ => !(Tbl.get [] m.qos.held (m.txKey t)).isEmpty

/-- The packets of accesses of some kinds are injected in order, each where nothing of its bucket waits before it and the bucket holds its charge
(R362). -/
def Module.txPump (m : Module) (which : TxKind → Bool) : Module :=
  let ks := (m.tx.filter fun t => which t.kind).flatMap fun t => (List.range t.pieces.length).map (t.id + ·)
  (ks.foldl (fun (acc : Module × List Nat) k =>
    let (m, stopped) := acc
    match m.tx.find? (·.has k) with
    | none => acc
    | some t =>
      match t.pieces[k - t.id]? with
      | some x =>
        if x.st ≠ .waits then acc
        else
          let op := (m.txPacket t.kind k x.addr x.size).1
          let key := m.txKey t.kind
          if stopped.contains key || m.bucketBusy t.kind || !m.txTokens t.kind op x.addr x.size then (m, key :: stopped)
          else (m.txGo t k x, stopped)
      | none => acc) (m, [])).1

/-- An access from outside begins. -/
def Module.txStart (m : Module) (kind : TxKind) (pieces : List (Nat × Nat)) : Module :=
  { m with
    tx := m.tx ++ [{ id := m.txNext, kind := kind, pieces := pieces.map fun (a, n) => { addr := a, size := n } }]
    txNext := m.txNext + pieces.length }

/-- Every packet of an access is answered. -/
def Tx.ended (t : Tx) : Bool := t.pieces.all fun p => match p.st with | .done _ _ _ => true | _ => false

/-- Address and status of each packet of an access that has ended. -/
def Tx.results (t : Tx) : List (Nat × Nat) := t.pieces.map fun p => (p.addr, match p.st with | .done st _ _ => st | _ => St.ok)
/-- The bytes that an access read. -/
def Tx.data (t : Tx) : List Byte := t.pieces.flatMap fun p => match p.st with | .done _ l _ => l | _ => []
/-- The units of 64 bytes that an access read poisoned, by local address ÷ 64. -/
def Tx.bad (t : Tx) : List Nat := t.pieces.flatMap fun p => match p.st with
  | .done _ _ bs => (List.range bs.length).filterMap fun i => if bs.getD i false then some (p.addr / 64 + i) else none
  | _ => []

/-- The accesses of some kinds that have ended leave, in order, each with what its end does. -/
def Module.txSettle (m : Module) (which : TxKind → Bool) (finish : Module → Tx → Module) : Module :=
  let (done, left) := m.tx.partition fun t => which t.kind && t.ended
  done.foldl finish { m with tx := left }

end Sys2Proof.Machine
end

