-- ==== Sys2Proof/Machine/FabMesh.lean ====
section
/-! DEFINITION. Fabric packets at a port (R328, R432 to R444): the checks at entry, transit, admission through the port's windows, what an
admitted request does on this module, answers, and the timeout of a fabric request. -/

namespace Sys2Proof.Machine

/-- What R325 and R433 ask of a head unit on a link: HOPS at most 31, DEST and SRC 0, NDATA its data units, no reserved bit set. -/
def fabHead (x : FabMsg) : Bool :=
  decide (x.x.hops.toNat ≤ 31) && x.x.p.head.dest == 0 && x.x.p.head.src == 0 && x.x.p.head.ndata == x.dataUnits && !x.x.p.head.rsvd

/-- A fabric packet that keeps to R325, R327 and R432: a request with STATUS 0; a response with the data of its kind: FRDATA the
LEN bytes of its read where that is OK or POISONED and none where it failed, FWACK none but an atomic's old value. -/
def fabWf (x : FabMsg) : Bool :=
  let q := x.x.p
  fabHead x &&
    match fabOp x with
    | some op => packetWf q op && x.x.status == 0 && (x.kind != 0x0B || (decide (x.x.op.toNat < 32) && atopOk x.x.op.toNat q.len))
    | none =>
      x.response && decide (q.tag < 16384) &&
        (let done := x.x.status == 0 || x.x.status.toNat == St.poisoned
         if x.kind = 0x0C then (if done then q.data.length == q.len && (shortSize q.addr q.len || longSize q.addr q.len) else q.data.isEmpty)
         else q.data.isEmpty || (done && q.data.length == 8))

/-! ### Transit (R440, R443, R444) -/

/-- The routers that a packet passes from the router of one port to that of another (R444). -/
def portPath (p q : Nat) : List Nat := defaultPath (portRouter p) (some (portRouter q))

/-- A packet of the control class: of virtual channel 0, a head unit alone (R434). -/
def FabMsg.control (x : FabMsg) : Bool := x.x.p.vc == 0 && x.dataUnits == 0

/-- A packet can cross the module from the router of one port to that of another: by the default route, and for the control class through
the hub where the vertical link of the two dies is down (R338, R444). -/
def Module.transitUp (m : Module) (p q : Nat) (control : Bool) : Bool :=
  let a := portRouter p
  let b := portRouter q
  let ls := defaultLinks (some a) (some b)
  ls.all m.d2dUp || (control && coreDie a / 2 == coreDie b / 2 && m.d2dUp (2 + coreDie a) && m.d2dUp (2 + coreDie b))

/-- What a packet in transit must cross holds it now (R32, R474): its path, or of the control class the lane's links. -/
def Module.transitHolds (m : Module) (p q : Nat) (control : Bool) : Bool :=
  let a := portRouter p
  let b := portRouter q
  let ls := defaultLinks (some a) (some b)
  if control then
    (if ls.all m.d2dUp then ls else [2 + coreDie a, 2 + coreDie b]).any m.linkHolds || m.nodeHeld a || m.nodeHeld b
  else m.pathTests (portPath p q)

/-- A packet that a port cannot forward. -/
def Module.fabStop (m : Module) (f : Option RegField) (p : Nat) (x : FabMsg) (status : Nat) : Module :=
  (match f with | some f => m.bump f p | none => m).fabReply x status

/-- Charge of a packet in transit (R362): by its kind, a response the flits that it has. -/
def FabMsg.charge (x : FabMsg) : Nat :=
  match x.kind with
  | 0x08 => flitCharge 0 x.x.p.len 1
  | 0x09 => flitCharge 1 x.x.p.len 1
  | 0x0A => flitCharge 2 x.x.p.len 1
  | 0x0B => flitCharge 3 x.x.p.len 1
  | _ => x.units

/-- A packet leaves its ingress port p for port q: it passes the mesh or, of the control class, the transit lane (R444), and frees its place in
the receive buffer. -/
def Module.transitGo (m : Module) (p q : Nat) (x : FabMsg) : Module :=
  let m := if x.control then m else m.noteFlits (portPath p q) x.x.p.vc x.units
  (m.assign q x.hop).leaveRx p x

/-- A packet waits at its ingress port p for port q, with DEST and SRC filled in (R433). -/
def Module.transitWait (m : Module) (p q : Nat) (x : FabMsg) : Module :=
  let h := { x.x.p.head with dest := routerWord (some (portRouter q)) 2, src := routerWord (some (portRouter p)) 2 }
  { m with transit := Tbl.upd [] m.transit (p * 4 + x.x.p.vc.val) (· ++ [(q, { x with x := { x.x with p := { x.x.p with head := h } } })]) }

/-- The port's regulator holds a packet's charge (R362); the transit lane has none. -/
def Module.transitTokens (m : Module) (p : Nat) (x : FabMsg) : Bool :=
  let i := srcIface 0 (some p)
  x.control || (!m.txWaits (bucketKey i x.x.p.vc) && m.bucketHolds i x.x.p.vc x.charge)

/-- A packet of the mesh draws its port's bucket. -/
def Module.transitDraw (m : Module) (p : Nat) (x : FabMsg) : Module := if x.control then m else m.draw (srcIface 0 (some p)) x.x.p.vc x.charge

/-- Forwards a packet that entered at port p out of port q; one waits for the port's regulator, or for what holds it on its way, behind those
that wait (R32, R362, R444, R474). -/
def Module.fabTransit (m : Module) (p q : Nat) (x : FabMsg) : Module :=
  if x.x.hops = 0 then (m.fabStop (some F.TWP_HOPLIM_CNT_COUNT) p x FSt.hopLimit).leaveRx p x
  else if !m.transitUp p q x.control then (m.fabStop none p x St.linkDown).leaveRx p x
  else if (Tbl.get [] m.transit (p * 4 + x.x.p.vc.val)).isEmpty && !m.transitHolds p q x.control && m.transitTokens p x then
    (m.transitDraw p x).transitGo p q x
  else m.transitWait p q x

/-- A transit packet that waited at port p for port q goes on as things stand now (R440, R443, R444): a module that is not ready forwards none;
one whose port carries nothing any more takes the port that the tables give now. -/
def Module.transitNow (m : Module) (p q : Nat) (x : FabMsg) : Module :=
  if !m.ready then (m.fabReply x FSt.notReady).leaveRx p x
  else
    match (if m.portUsable q then FabHop.out q else m.fabRoute x.x.dunit.toNat) with
    | .out r =>
      if !m.transitUp p r x.control then (m.fabStop none p x St.linkDown).leaveRx p x
      else (m.transitDraw p x).transitGo p r x
    | _ => (m.fabStop (some F.TWP_NOROUTE_CNT_COUNT) p x FSt.noRoute).leaveRx p x

/-- The first transit packet that waits at a port on a channel leaves, where nothing on its way holds it and the bucket holds its charge (R362,
R444). -/
def Module.releaseTransit (m : Module) (p v : Nat) : Module :=
  match Tbl.get [] m.transit (p * 4 + v) with
  | (q, x) :: t =>
    if !(m.transitUp p q x.control && m.transitHolds p q x.control) && m.transitTokens p x then
      { m with transit := Tbl.set [] m.transit (p * 4 + v) t }.transitNow p q x
    else m
  | [] => m

/-- Transit packets that have waited for their way, not for a regulator, go on (R474). -/
def Module.retryTransit (m : Module) : Module :=
  m.transit.foldl (fun (m : Module) (k, l) =>
    if (m.srcReg (srcIface 0 (some (k / 4))) (k % 4)).1 = 0 then l.foldl (fun (m : Module) _ => m.releaseTransit (k / 4) (k % 4)) m else m) m

/-- REGULATOR_RELEASE (R362, R444): a bucket has reached the charge of the request that waits first, at its requester's interface, or at a
fabric port on the packet's channel. -/
def execRegulatorRelease (kind : Fin 5) (p : Packet) (port : Option PortId) (s : State) : Res :=
  s.done (match port with
    | none => s.m.releaseHeld kind p
    | some q => s.m.releaseTransit q p.vc)

/-! ### Admission (R441) -/

/-- Window w of a port grants a right and contains every byte. -/
def Module.twpWindow (m : Module) (p w a n right : Nat) : Bool :=
  let base := m.rd F.TWP_ADM_BASE_HI_BASE_HI p w * 2 ^ 32 + m.rd F.TWP_ADM_BASE_LO_BASE_LO p w * 4096
  m.rd F.TWP_ADM_CFG_EN p w == 1
    && (if right = Right.read then m.rd F.TWP_ADM_CFG_RD p w == 1
        else if right = Right.write then m.rd F.TWP_ADM_CFG_WR p w == 1 else m.rd F.TWP_ADM_CFG_AT p w == 1)
    && decide (base ≤ a) && decide (a + n ≤ base + m.rd F.TWP_ADM_LEN_PAGES p w * 4096)

/-- A fabric request has ended on this module: it is answered, and its place in the receive buffer is free. -/
def Module.fabEnd (m : Module) (t : Tx) : Module :=
  match t.kind, t.pieces with
  | .fabric p x _ _, { st := .done st data bad, .. } :: _ => (m.fabReply x st data bad).leaveRx p x
  | _, _ => m

/-- The fabric requests on this module go on as far as they can; those that have ended are answered. -/
def Module.fabRun (m : Module) : Module := (m.txPump fun t => !t.host).txSettle (fun t => !t.host) Module.fabEnd

/-- A request for this module at port p (R441): one that its windows admit enters the mesh as one packet of the window's partition. -/
def Module.fabAdmit (m : Module) (p : Nat) (x : FabMsg) (op : Nat) : Module :=
  let q := x.x.p
  let right := opRight op
  match (List.range 16).find? fun w => m.twpWindow p w q.addr q.len right with
  | none => (m.fabStop (some F.TWP_NOWIN_CNT_COUNT) p x FSt.noWindow).leaveRx p x
  | some w =>
    let part := m.rd F.TWP_ADM_CFG_PART p w
    if m.rights part q.addr q.len &&& right ≠ right then (m.fabStop (some F.TWP_NOWIN_CNT_COUNT) p x St.outOfMap).leaveRx p x
    else (m.txStart (.fabric p x part (m.rd F.TWP_ADM_CFG_FARE p w)) [(q.addr, q.len)]).fabRun

/-- A request arrives at a port (R328, R440, R441, R443). An excluded port carries nothing (R451). -/
def Module.fabRequest (m : Module) (p : Nat) (x : FabMsg) : Module :=
  match fabOp x with
  | some op =>
    if m.rd F.TWP_STS_EXCLUDED p = 1 then m
    else if !fabWf x then (m.fabStop (some F.TWP_MALFORMED_CNT_COUNT) p x St.malformed).leaveRx p x
    else if !m.ready then (m.fabReply x FSt.notReady).leaveRx p x
    else match m.fabRoute x.x.dunit.toNat with
      | .here => m.fabAdmit p x op
      | .out q => m.fabTransit p q x
      | .none => (m.fabStop (some F.TWP_NOROUTE_CNT_COUNT) p x FSt.noRoute).leaveRx p x
  | none => m

/-- An answer arrives at a port: a malformed one is discarded and counted (R328); for a request of this module it completes it, late ones are
counted (R435), and one whose path holds it waits at the port (R32, R474); another is forwarded. -/
def Module.fabAnswer (m : Module) (p : Nat) (x : FabMsg) : Module :=
  if m.rd F.TWP_STS_EXCLUDED p = 1 then m
  else if !fabWf x then (m.bump F.TWP_MALFORMED_CNT_COUNT p).leaveRx p x
  else
    match m.fabRoute x.x.dunit.toNat with
    | .here =>
      let src := x.x.p.src.toNat
      if src < 576 && m.pathTests (defaultPath src (some (portRouter p))) then { m with parked := m.parked ++ [.answer p x] }
      else ((if src < 576 then m.noteFlits (defaultPath src (some (portRouter p))) x.x.p.vc x.units else m).fabComplete src x.x.p.tag x.x.status.toNat x.x.p.data
        (x.x.p.poison.any id)).leaveRx p x
    | .out q => if m.ready then m.fabTransit p q x else m.leaveRx p x
    | .none => (if m.ready then m.bump F.TWP_NOROUTE_CNT_COUNT p else m).leaveRx p x

/-- FREAD (R432, R440, R441). -/
def execFread (port : PortId) (x : FabPacket) (s : State) : Res := s.done (s.m.fabRequest port ⟨0x08, x⟩)
/-- FWRITE (R432, R440, R441). -/
def execFwrite (port : PortId) (x : FabPacket) (s : State) : Res := s.done (s.m.fabRequest port ⟨0x09, x⟩)
/-- FPWRITE (R432, R440, R441). -/
def execFpwrite (port : PortId) (x : FabPacket) (s : State) : Res := s.done (s.m.fabRequest port ⟨0x0A, x⟩)
/-- FATOMIC (R432, R440, R441). -/
def execFatomic (port : PortId) (x : FabPacket) (s : State) : Res := s.done (s.m.fabRequest port ⟨0x0B, x⟩)
/-- FRDATA (R432, R435). -/
def execFrdata (port : PortId) (x : FabPacket) (s : State) : Res := s.done (s.m.fabAnswer port ⟨0x0C, x⟩)
/-- FWACK (R432, R435). -/
def execFwack (port : PortId) (x : FabPacket) (s : State) : Res := s.done (s.m.fabAnswer port ⟨0x0D, x⟩)

/-- FABRIC_TIMEOUT (R435): an outstanding fabric request completes TIMEOUT. -/
def execFabricTimeout (src : CoreId) (tag : Nat) (s : State) : Res :=
  s.done (if s.m.fabOut.any fun r => r.src == src.val && r.tag == tag then s.m.fabComplete src tag St.timeout [] else s.m)

end Sys2Proof.Machine
end

