-- ==== Sys2Proof/Machine/Host.lean ====
section
/-! DEFINITION. Host accesses through the base address registers (R381 to R388, R390 to R392, R399, R403, R409, R410): where a BAR offset
leads, the mesh packets that an access becomes, the completion it gets, and the capture of a failed one. -/

namespace Sys2Proof.Machine

/-! ### Where a BAR offset leads -/

/-- What a BAR access reaches: local addresses from a on (`free` where the partition's map is not asked: a virtual function's BAR0), the
MSI-X table or the pending bit array at an offset. -/
inductive HostTo where
  | space (a : Nat) (free : Bool)
  | table (o : Nat)
  | pba (o : Nat)
  deriving DecidableEq, Repr

/-- An access at an offset lies in a range. -/
def within (o n lo hi : Nat) : Bool := decide (lo ≤ o) && decide (o + n ≤ hi)

/-- The block of a queue that a hub offset lies in: of a departure queue or not, and the queue. -/
def queueBlock (o : Nat) : Option (Bool × Nat) :=
  if 0x0400_0000 ≤ o ∧ o < 0x0440_0000 then some (false, (o - 0x0400_0000) / 0x1_0000)
  else if 0x0800_0000 ≤ o ∧ o < 0x0840_0000 then some (true, (o - 0x0800_0000) / 0x1_0000)
  else none

/-- The region of a queue block or another part of register space (R410): an access whose bytes lie in two is not admitted. -/
def hubRegion (a : Nat) : Nat :=
  match queueBlock (a - 0x3004_0000_0000) with
  | some _ => if 0x3004_0000_0000 ≤ a then 1 + a / 0x4000 else 0
  | none => 0

/-- A read or a write of local addresses that the queue windows let in (R410). -/
def windowsAdmit (a n : Nat) (write : Bool) : Bool :=
  hubRegion a == hubRegion (a + n - 1) &&
    (match queueWindow a with
    | some (dep, _, _, _) => dep != write
    | none => true)

/-- BAR0 of the physical function (R390). -/
def Module.pfBar0 (m : Module) (o n : Nat) : Option HostTo :=
  if within o n 0 0x1000_0000 then some (.space (0x3004_0000_0000 + o) false)
  else if within o n 0x1000_0000 0x1000_8000 then some (.table (o - 0x1000_0000))
  else if within o n 0x1001_0000 0x1001_0100 then some (.pba (o - 0x1001_0000))
  else if within o n 0x2000_0000 0x4000_0000 then
    some (.space (0x3000_0000_0000 + m.rd F.PCE_RWIN_INDEX 0 * 0x2000_0000 + (o - 0x2000_0000)) false)
  else none

/-- BAR0 of virtual function f (R382, R391). -/
def Module.vfBar0 (m : Module) (f o n : Nat) : Option HostTo :=
  let page := 0x0100_0000 + f * 0x1000
  if within o n page (page + 0x1000) then some (.space (0x3004_0000_0000 + o) true)
  else if within o n 0x1000_0000 0x1000_0400 then some (.table (o - 0x1000_0000))
  else if within o n 0x1001_0000 0x1001_0008 then some (.pba (o - 0x1001_0000))
  else
    match m.partOfFn f, queueBlock o with
    | some e, some (dep, q) =>
      if Nat.testBit (if dep then e.dpqMap else e.arqMap) q && within o n (o - o % 0x1_0000) (o - o % 0x1_0000 + 0x1_0000) then
        some (.space (0x3004_0000_0000 + o) true)
      else none
    | _, _ => none

/-- BAR2 (R382, R392): the segment's window, where it is enabled and holds every byte. -/
def Module.bar2 (m : Module) (f o n : Nat) : Option HostTo :=
  let seg := 0x1000_0000 * 2 ^ (m.fn f).bar2
  let w := o / seg
  if w < 64 ∧ (o + n - 1) / seg = w ∧ m.rd F.PCE_WIN_LO_EN f w = 1 ∧ (f = 0 ∨ (m.partOfFn f).isSome) then
    let base := m.rd F.PCE_WIN_HI_BASE_HI f w * 2 ^ 32 + m.rd F.PCE_WIN_LO_BASE_LO f w * 2 ^ 28
    some (.space (base - base % seg + o % seg) false)
  else none

/-- What an access of a function reaches, if it is admitted (R381, R382, R390 to R392, R410). -/
def Module.hostTo (m : Module) (f bar o n : Nat) (write : Bool) : Option HostTo :=
  let t := match bar with
    | 0 => if f = 0 then m.pfBar0 o n else m.vfBar0 f o n
    | 2 => m.bar2 f o n
    | _ => none
  match t with
  | some (.space a free) => if windowsAdmit a n write then some (.space a free) else none
  | t => t

/-! ### Pieces (R14, R384) -/

/-- The accesses that a host access becomes: in register space two of 32 bits for one of 64, or the access as it is (R14); in memory the
packets of R384. -/
def hostPieces (a n : Nat) : List (Nat × Nat) :=
  if (regDie a).isSome then (if n = 8 ∧ (queueWindow a).isNone then [(a, 4), (a + 4, 4)] else [(a, n)])
  else piecesOf 4096 a n

/-! ### Completions and captures (R387, R388) -/

/-- How a module status completes a read (R387): 0 Successful Completion, 1 Unsupported Request, 2 Completer Abort. -/
def cplCode (st : Nat) : Nat :=
  if st = St.ok ∨ st = St.poisoned then 0
  else if st = St.unmapped ∨ st = St.unpopulated ∨ st = St.outOfMap ∨ st = St.absent then 1
  else 2

/-- The capture of a failed access (R388, R41). -/
def Module.hostCapture (m : Module) (f bar off st : Nat) (write : Bool) : Module :=
  if bar ≠ 0 ∧ bar ≠ 2 then m
  else if m.rd F.PCE_ERR_STS_VALID f = 1 then m.wr F.PCE_ERR_STS_OVF f 1
  else
    let m := ((m.wr F.PCE_ERR_STS_VALID f 1).wr F.PCE_ERR_STS_WRITE f (if write then 1 else 0)).wr F.PCE_ERR_STS_BAR f (bar / 2)
    ((m.wr F.PCE_ERR_STS_STATUS f st).wr F.PCE_ERR_ADDR_LO_OFFSET f (off % 2 ^ 32)).wr F.PCE_ERR_ADDR_HI_OFFSET f (off / 2 ^ 32)

/-- A function's AER notes an uncorrectable error at a bit of its status: the first unmasked one is pointed to, its header a free value, since
the commands carry none (R380; PRESUMED, log entry 99). -/
def Module.aerNote (m : Module) (f bit : Nat) : Module :=
  let x := m.fn f
  if Nat.testBit x.aerMask bit ∨ x.aerFirst ≠ 0 then m
  else { m with freeCtr := m.freeCtr + 4 }.setFn f { x with aerFirst := bit + 1, aerHdr := m.freeCtr + 1 }

/-- What a function logs of an access by its completion code (R387). -/
def Module.logAer (m : Module) (f code : Nat) : Module :=
  match code with
  | 1 => (m.setFn f { m.fn f with aerUr := true }).aerNote f 20
  | 2 => (m.setFn f { m.fn f with aerCa := true }).aerNote f 15
  | _ => m

/-- A read that returns no data: of an error whose severity is non-fatal, advisory for a completer (PRESUMED, log entry 99). -/
def Module.cplFail (m : Module) (f code : Nat) : Module :=
  let m := m.logAer f code
  let x := m.fn f
  let m := if (code = 1 ∨ code = 2) ∧ !Nat.testBit x.aerSev (if code = 1 then 20 else 15) then
      m.setFn f { x with aerCor := x.aerCor ||| 0x2000 } else m
  m.emit (.cpl f code [] false)

/-- The completions of a successful read, no larger than MPS and split at its multiples, with EP on each that carries a poisoned word
(R384, R387). -/
def Module.cplData (m : Module) (f mps : Nat) (bad : List Nat) : Nat → Nat → List Byte → Module
  | 0, _, _ => m
  | fuel + 1, a, l =>
    if l.isEmpty then m
    else
      let k := min l.length (mps - a % mps)
      let ep := bad.any fun w => decide (w * 64 < a + k) && decide (a < w * 64 + 64)
      let m := if ep then (m.setFn f { m.fn f with aerEp := true }).aerNote f 12 else m
      (m.emit (.cpl f 0 (l.take k) ep)).cplData f mps bad fuel (a + k) (l.drop k)

/-- The maximum payload size in force: the physical function's. -/
def Module.mpsBytes (m : Module) : Nat := 128 * 2 ^ (m.fn 0).mps

/-- A word of the MSI-X table or of the pending bit array, by byte. -/
def Fn.tableByte (x : Fn) (o : Nat) : Byte := BitVec.ofNat 8 ((x.tableWord (o / 4)).toNat / 256 ^ (o % 4))
def Fn.pbaByte (x : Fn) (o : Nat) : Byte :=
  BitVec.ofNat 8 ((List.range 8).foldl (fun a i => if x.pba.contains (o * 8 + i) then a + 2 ^ i else a) 0)

/-! ### Reads -/

/-- An earlier write of a function has not ended: the function's later reads, and its later writes to queue windows, wait behind it (R386). -/
def Module.writeWaits (m : Module) (f : Nat) : Bool :=
  (m.parked.any fun x => match x with | .write g _ _ _ => g == f | _ => false) ||
    m.tx.any fun t => match t.kind with | .write g _ _ _ _ _ => g == f | _ => false

/-- The address and status of the piece that decides a read: the lowest-addressed one whose status maps to the worst completion. -/
def deciding (sts : List (Nat × Nat)) : Option (Nat × Nat) :=
  match sts.find? fun x => cplCode x.2 == 2 with
  | some x => some x
  | none => sts.find? fun x => cplCode x.2 == 1

/-! ### Writes -/

/-- A write of the MSI-X table in whole words (R394). -/
def Module.tableWrite (m : Module) (f o : Nat) (l : List Byte) : Module :=
  if o % 4 ≠ 0 ∨ l.length % 4 ≠ 0 then m
  else
    let x := (List.range (l.length / 4)).foldl (fun (x : Fn) i =>
      x.setTableWord (o / 4 + i) (BitVec.ofNat 32 (leNat ((l.drop (4 * i)).take 4)))) (m.fn f)
    (m.setFn f x).flushPba f

/-- A failed posted write is discarded, counted and captured (R387, R388). -/
def Module.dropWrite (m : Module) (f bar off st : Nat) : Module :=
  ((m.bump F.PCE_PWDROP_CNT_COUNT f).logAer f (cplCode st)).hostCapture f bar off st true

/-- A write to a queue window (R399, R403). -/
def HostTo.queue : HostTo → Bool
  | .space a _ => (queueWindow a).isSome
  | _ => false

/-- A host access whose packets are all answered (R387, R388): a read completes by the packet that decides it, a failed write is dropped. -/
def Module.hostEnd (m : Module) (t : Tx) : Module :=
  match t.kind with
  | .read f bar off a _ =>
    (match deciding t.results with
    | some (x, st) => (m.hostCapture f bar (off + (x - a)) st false).cplFail f (cplCode st)
    | none => m.cplData f m.mpsBytes t.bad t.data.length a t.data)
  | .write f bar off a _ _ =>
    (match t.results.find? fun x => x.2 != St.ok with
    | some (x, st) => m.dropWrite f bar (off + (x - a)) st
    | none => m)
  | .fabric _ _ _ _ => m

/-- Host accesses go on as far as they can; those that have ended complete. -/
def Module.hostRun (m : Module) : Module := (m.txPump TxKind.host).txSettle TxKind.host Module.hostEnd

/-- A host read of n bytes (R381, R386 to R388, R501), at a function that there is: answered Unsupported Request before AWAIT_PLAT, and in D3hot (R380; PRESUMED, log entry
99). -/
def Module.hostRead (m : Module) (f bar off n : Nat) : Module :=
  if !m.fnOn f then m.emit (.cpl f 1 [] false)
  else if !m.answers || (m.fn f).d3 then m.cplFail f 1
  else if m.writeWaits f then { m with parked := m.parked ++ [.read f bar off n] }
  else
    match m.hostTo f bar off n false with
    | none => (m.hostCapture f bar off St.unmapped false).cplFail f 1
    | some (.table o) => m.cplData f m.mpsBytes [] n off ((List.range n).map fun i => (m.fn f).tableByte (o + i))
    | some (.pba o) => m.cplData f m.mpsBytes [] n off ((List.range n).map fun i => (m.fn f).pbaByte (o + i))
    | some (.space a free) => (m.txStart (.read f bar off a free) (hostPieces a n)).hostRun

/-- A host posted write (R384, R386 to R388), at a function that there is: a write of no bytes does nothing; one that comes before AWAIT_PLAT, or in D3hot, fails as an
unsupported request and is counted. -/
def Module.hostWrite (m : Module) (f bar off : Nat) (l : List Byte) : Module :=
  if l.isEmpty then m
  else if !m.fnOn f then m
  else if !m.answers || (m.fn f).d3 then (m.bump F.PCE_PWDROP_CNT_COUNT f).logAer f 1
  else if m.writeWaits f && (m.hostTo f bar off l.length true).any HostTo.queue then { m with parked := m.parked ++ [.write f bar off l] }
  else
    match m.hostTo f bar off l.length true with
    | none => m.dropWrite f bar off St.unmapped
    | some (.table o) => m.tableWrite f o l
    | some (.pba _) => m
    | some (.space a free) => (m.txStart (.write f bar off a free l) (hostPieces a l.length)).hostRun

/-- HOST_READ (R384, R387, R390 to R392): `len` is the number of bytes less 1. -/
def execHostRead (f : FnId) (bar : Fin 6) (off : Nat) (len : Fin 4096) (s : State) : Res := s.done (s.m.hostRead f bar off (len + 1))

/-- HOST_ATOMICOP (R381). -/
def execHostAtomicop (f : FnId) (_bar : Fin 6) (_off : Nat) (s : State) : Res :=
  s.done (if s.m.fnOn f then s.m.cplFail f 1 else s.m.emit (.cpl f 1 [] false))

/-- DPQ_READ (R409): a read of a READ window in BAR0. -/
def execDpqRead (f : FnId) (q : QueueId) (off : Fin 16384) (len : Fin 4096) (s : State) : Res :=
  s.done (s.m.hostRead f 0 (0x0800_4000 + q.val * 0x1_0000 + off.val) (len + 1))

/-- HOST_WRITE (R386 to R388). -/
def execHostWrite (f : FnId) (bar : Fin 6) (off : Nat) (data : List Byte) (s : State) : Res := s.done (s.m.hostWrite f bar off data)

/-- ARQ_APPEND (R399, R403): a write to an APPEND window in BAR0. -/
def execArqAppend (f : FnId) (q : QueueId) (off : Fin 16384) (data : List Byte) (s : State) : Res :=
  s.done (s.m.hostWrite f 0 (0x0400_4000 + q.val * 0x1_0000 + off.val) data)

/-- ARQ_COMMIT (R399, R401, R403): a write to a COMMIT window in BAR0. -/
def execArqCommit (f : FnId) (q : QueueId) (off : Fin 16384) (data : List Byte) (s : State) : Res :=
  s.done (s.m.hostWrite f 0 (0x0400_8000 + q.val * 0x1_0000 + off.val) data)

end Sys2Proof.Machine
end

