-- ==== Sys2Proof/Machine/Retry.lean ====
section
/-! DEFINITION. What waits on the mesh, at the hub or at a fabric port, as an idle nanosecond tries it again (DESIGN CHOICE, log entry 98), and
TCOPY, whose packets can meet registers (R14, R223). -/

namespace Sys2Proof.Machine

/-- What waited behind something is made again as it came. -/
def Parked.again (m : Module) : Parked → Module
  | .read f bar off n => m.hostRead f bar off n
  | .write f bar off l => m.hostWrite f bar off l
  | .answer p x => m.fabAnswer p x

/-- Everything parked is made again, in the order in which it came; what must still wait is parked anew. -/
def Module.retryParked (m : Module) : Module :=
  m.parked.foldl (fun (m : Module) x => x.again m) { m with parked := [] }

/-- What waits on the mesh, at the hub and at the ports goes on as far as it can (R32, R362, R386, R474; DESIGN CHOICE, log entry 98). -/
def Module.goOn (m : Module) : Module := m.compPump.rePass.hostRun.fabRun.retryTransit.retryParked

/-- The registers, as a packet of an engine meets them: 4 aligned bytes are an access of one (R14). -/
def RegPort.registers : RegPort where
  read m src a n :=
    if aligned4 a n then let (m, w) := m.readRegAt a; (m, leBytes 4 w.toNat) else RegPort.errors.read m src a n
  write m src a l := if aligned4 a l.length then m.writeRegAt src a (BitVec.ofNat 32 (leNat l)) else RegPort.errors.write m src a l

/-- TCOPY (R223). -/
def execTcopy (c : CoreId) (s : State) : Res := s.done (s.m.dmaLocal c 1 fun q d _ _ => dmaTcopy RegPort.registers q d)

end Sys2Proof.Machine
end

