-- ==== Sys2Proof/Machine/Dispatch.lean ====
section
/-! DEFINITION. One arm per command: a direct call of its meaning. -/

namespace Sys2Proof.Machine

/-- The effect of a command on everything but the queue of commands. -/
def exec (i : Instr) (s : State) : Host.Outcome State Fault Refusal :=
  match i with
  | .registerWrite req addr size value => Sys2Proof.Machine.execRegisterWrite req addr size value s
  | .clockLoss d => Sys2Proof.Machine.execClockLoss d s
  | .clockLockReturn d => Sys2Proof.Machine.execClockLockReturn d s
  | .farLockTimeout f => Sys2Proof.Machine.execFarLockTimeout f s
  | .loadModuleScope req => Sys2Proof.Machine.execLoadModuleScope req s
  | .loadPartitionScope req part => Sys2Proof.Machine.execLoadPartitionScope req part s
  | .pltStop req part => Sys2Proof.Machine.execPltStop req part s
  | .pltRemove req part => Sys2Proof.Machine.execPltRemove req part s
  | .pltCmdReserved req op part => Sys2Proof.Machine.execPltCmdReserved req op part s
  | .digestVerified => Sys2Proof.Machine.execDigestVerified s
  | .quiesceDone => Sys2Proof.Machine.execQuiesceDone s
  | .loadWriteDone failed => Sys2Proof.Machine.execLoadWriteDone failed s
  | .nop c => Sys2Proof.Machine.execNop c s
  | .halt c => Sys2Proof.Machine.execHalt c s
  | .haltComplete c => Sys2Proof.Machine.execHaltComplete c s
  | .li c dst imm => Sys2Proof.Machine.execLi c dst imm s
  | .lih c dst imm => Sys2Proof.Machine.execLih c dst imm s
  | .add c dst src1 src2 imm => Sys2Proof.Machine.execAdd c dst src1 src2 imm s
  | .sub c dst src1 src2 => Sys2Proof.Machine.execSub c dst src1 src2 s
  | .and c dst src1 src2 => Sys2Proof.Machine.execAnd c dst src1 src2 s
  | .or c dst src1 src2 => Sys2Proof.Machine.execOr c dst src1 src2 s
  | .xor c dst src1 src2 => Sys2Proof.Machine.execXor c dst src1 src2 s
  | .shl c dst src1 imm => Sys2Proof.Machine.execShl c dst src1 imm s
  | .shr c dst src1 imm => Sys2Proof.Machine.execShr c dst src1 imm s
  | .mul c dst src1 src2 => Sys2Proof.Machine.execMul c dst src1 src2 s
  | .ld c dst src1 imm => Sys2Proof.Machine.execLd c dst src1 imm s
  | .st c src1 src2 imm => Sys2Proof.Machine.execSt c src1 src2 imm s
  | .br c cond src1 src2 imm => Sys2Proof.Machine.execBr c cond src1 src2 imm s
  | .mpass c src1 ev even => Sys2Proof.Machine.execMpass c src1 ev even s
  | .mcvt c src1 ev even imm => Sys2Proof.Machine.execMcvt c src1 ev even imm s
  | .vop c src1 ev even => Sys2Proof.Machine.execVop c src1 ev even s
  | .dma c src1 ev even => Sys2Proof.Machine.execDma c src1 ev even s
  | .bop c src1 ev even => Sys2Proof.Machine.execBop c src1 ev even s
  | .atn c src1 => Sys2Proof.Machine.execAtn c src1 s
  | .wait c src1 ev => Sys2Proof.Machine.execWait c src1 ev s
  | .waitSatisfied c => Sys2Proof.Machine.execWaitSatisfied c s
  | .waitTimeout c => Sys2Proof.Machine.execWaitTimeout c s
  | .evrd c dst ev => Sys2Proof.Machine.execEvrd c dst ev s
  | .task c imm => Sys2Proof.Machine.execTask c imm s
  | .datum c dst => Sys2Proof.Machine.execDatum c dst s
  | .reservedOpcode c word => Sys2Proof.Machine.execReservedOpcode c word s
  | .matrixPassStart c => Sys2Proof.Machine.execMatrixPassStart c s
  | .matrixPassComplete c => Sys2Proof.Machine.execMatrixPassComplete c s
  | .matrixRingReleaseWaitEnd c => Sys2Proof.Machine.execMatrixRingReleaseWaitEnd c s
  | .mcvtApply c => Sys2Proof.Machine.execMcvtApply c s
  | .vecCopy c => Sys2Proof.Machine.execVecCopy c s
  | .vecAdd c => Sys2Proof.Machine.execVecAdd c s
  | .vecSub c => Sys2Proof.Machine.execVecSub c s
  | .vecMul c => Sys2Proof.Machine.execVecMul c s
  | .vecFma c => Sys2Proof.Machine.execVecFma c s
  | .vecMax c => Sys2Proof.Machine.execVecMax c s
  | .vecMin c => Sys2Proof.Machine.execVecMin c s
  | .vecAbs c => Sys2Proof.Machine.execVecAbs c s
  | .vecNeg c => Sys2Proof.Machine.execVecNeg c s
  | .rcp c => Sys2Proof.Machine.execRcp c s
  | .rsqrt c => Sys2Proof.Machine.execRsqrt c s
  | .exp2 c => Sys2Proof.Machine.execExp2 c s
  | .expsub c => Sys2Proof.Machine.execExpsub c s
  | .sigmoid c => Sys2Proof.Machine.execSigmoid c s
  | .silu c => Sys2Proof.Machine.execSilu c s
  | .rowmax c => Sys2Proof.Machine.execRowmax c s
  | .rowsum c => Sys2Proof.Machine.execRowsum c s
  | .rowssq c => Sys2Proof.Machine.execRowssq c s
  | .cmplt c => Sys2Proof.Machine.execCmplt c s
  | .cmple c => Sys2Proof.Machine.execCmple c s
  | .cmpeq c => Sys2Proof.Machine.execCmpeq c s
  | .cmpne c => Sys2Proof.Machine.execCmpne c s
  | .setcvt c => Sys2Proof.Machine.execSetcvt c s
  | .setmask c => Sys2Proof.Machine.execSetmask c s
  | .maskop c => Sys2Proof.Machine.execMaskop c s
  | .fmask c => Sys2Proof.Machine.execFmask c s
  | .fclr c => Sys2Proof.Machine.execFclr c s
  | .fstore c => Sys2Proof.Machine.execFstore c s
  | .monclr c => Sys2Proof.Machine.execMonclr c s
  | .monrd c => Sys2Proof.Machine.execMonrd c s
  | .vecReservedOp c => Sys2Proof.Machine.execVecReservedOp c s
  | .vecDescComplete c => Sys2Proof.Machine.execVecDescComplete c s
  | .vecRingRowReady c => Sys2Proof.Machine.execVecRingRowReady c s
  | .ringShort c => Sys2Proof.Machine.execRingShort c s
  | .atnInit c => Sys2Proof.Machine.execAtnInit c s
  | .atnRescale c => Sys2Proof.Machine.execAtnRescale c s
  | .atnMerge c => Sys2Proof.Machine.execAtnMerge c s
  | .atnFinish c => Sys2Proof.Machine.execAtnFinish c s
  | .dmaCopy c => Sys2Proof.Machine.execDmaCopy c s
  | .tcopy c => Sys2Proof.Machine.execTcopy c s
  | .gather c => Sys2Proof.Machine.execGather c s
  | .append c => Sys2Proof.Machine.execAppend c s
  | .share c => Sys2Proof.Machine.execShare c s
  | .release c => Sys2Proof.Machine.execRelease c s
  | .rsend c => Sys2Proof.Machine.execRsend c s
  | .rsendPoll c => Sys2Proof.Machine.execRsendPoll c s
  | .rsendHeaderWrite c => Sys2Proof.Machine.execRsendHeaderWrite c s
  | .rwait c => Sys2Proof.Machine.execRwait c s
  | .rwaitPoll c => Sys2Proof.Machine.execRwaitPoll c s
  | .ringTimeout c => Sys2Proof.Machine.execRingTimeout c s
  | .rfree c => Sys2Proof.Machine.execRfree c s
  | .dmaReservedOp c => Sys2Proof.Machine.execDmaReservedOp c s
  | .dmaDescComplete c => Sys2Proof.Machine.execDmaDescComplete c s
  | .tablePop c k => Sys2Proof.Machine.execTablePop c k s
  | .tableIncref c billets => Sys2Proof.Machine.execTableIncref c billets s
  | .tableDecref c billets => Sys2Proof.Machine.execTableDecref c billets s
  | .relayForward c => Sys2Proof.Machine.execRelayForward c s
  | .bopFill c => Sys2Proof.Machine.execBopFill c s
  | .bopCopy c => Sys2Proof.Machine.execBopCopy c s
  | .bopAdd c => Sys2Proof.Machine.execBopAdd c s
  | .bopSub c => Sys2Proof.Machine.execBopSub c s
  | .bopMul c => Sys2Proof.Machine.execBopMul c s
  | .bopFma c => Sys2Proof.Machine.execBopFma c s
  | .axpy c => Sys2Proof.Machine.execAxpy c s
  | .affine c => Sys2Proof.Machine.execAffine c s
  | .act c => Sys2Proof.Machine.execAct c s
  | .loadtab c => Sys2Proof.Machine.execLoadtab c s
  | .bopReservedOp c => Sys2Proof.Machine.execBopReservedOp c s
  | .bopCleanDone sl => Sys2Proof.Machine.execBopCleanDone sl s
  | .pageStepEnd sl bank => Sys2Proof.Machine.execPageStepEnd sl bank s
  | .bopComplete sl => Sys2Proof.Machine.execBopComplete sl s
  | .refresh sl bank => Sys2Proof.Machine.execRefresh sl bank s
  | .pageRecompute sl page => Sys2Proof.Machine.execPageRecompute sl page s
  | .slowPathBegin u => Sys2Proof.Machine.execSlowPathBegin u s
  | .slowPathDone u => Sys2Proof.Machine.execSlowPathDone u s
  | .fmcRetrain f => Sys2Proof.Machine.execFmcRetrain f s
  | .fmcRetrainDone f ok => Sys2Proof.Machine.execFmcRetrainDone f ok s
  | .fmcIsolate req f => Sys2Proof.Machine.execFmcIsolate req f s
  | .scrubScan req d kind unit fare => Sys2Proof.Machine.execScrubScan req d kind unit fare s
  | .scrubRepair req d kind unit fare => Sys2Proof.Machine.execScrubRepair req d kind unit fare s
  | .scrubAbort req d => Sys2Proof.Machine.execScrubAbort req d s
  | .scrubPage d => Sys2Proof.Machine.execScrubPage d s
  | .scrubDone d => Sys2Proof.Machine.execScrubDone d s
  | .fieldRepair req d kind unit => Sys2Proof.Machine.execFieldRepair req d kind unit s
  | .fieldRepairCopyDone d => Sys2Proof.Machine.execFieldRepairCopyDone d s
  | .fieldRepairDone d fuseOk => Sys2Proof.Machine.execFieldRepairDone d fuseOk s
  | .meshRead p => Sys2Proof.Machine.execMeshRead p s
  | .meshWrite p => Sys2Proof.Machine.execMeshWrite p s
  | .pwrite p => Sys2Proof.Machine.execPwrite p s
  | .atomicSwap p => Sys2Proof.Machine.execAtomicSwap p s
  | .atomicCas p => Sys2Proof.Machine.execAtomicCas p s
  | .atomicAdd p => Sys2Proof.Machine.execAtomicAdd p s
  | .atomicAnd p => Sys2Proof.Machine.execAtomicAnd p s
  | .atomicOr p => Sys2Proof.Machine.execAtomicOr p s
  | .atomicXor p => Sys2Proof.Machine.execAtomicXor p s
  | .smax p => Sys2Proof.Machine.execSmax p s
  | .smin p => Sys2Proof.Machine.execSmin p s
  | .umax p => Sys2Proof.Machine.execUmax p s
  | .umin p => Sys2Proof.Machine.execUmin p s
  | .fadd p => Sys2Proof.Machine.execFadd p s
  | .atomicReserved p op => Sys2Proof.Machine.execAtomicReserved p op s
  | .mwrite p blocked => Sys2Proof.Machine.execMwrite p blocked s
  | .rdata src tag => Sys2Proof.Machine.execRdata src tag s
  | .wack src tag target => Sys2Proof.Machine.execWack src tag target s
  | .requestTimeout src tag => Sys2Proof.Machine.execRequestTimeout src tag s
  | .drainEnd c => Sys2Proof.Machine.execDrainEnd c s
  | .retentionRetry b => Sys2Proof.Machine.execRetentionRetry b s
  | .routeCondApply link => Sys2Proof.Machine.execRouteCondApply link s
  | .csend c src1 imm => Sys2Proof.Machine.execCsend c src1 imm s
  | .csendp c src1 src2 imm => Sys2Proof.Machine.execCsendp c src1 src2 imm s
  | .csendh c src1 imm => Sys2Proof.Machine.execCsendh c src1 imm s
  | .csendhp c src1 src2 imm => Sys2Proof.Machine.execCsendhp c src1 src2 imm s
  | .crecv c dst => Sys2Proof.Machine.execCrecv c dst s
  | .crecvResume c => Sys2Proof.Machine.execCrecvResume c s
  | .cpoll c dst => Sys2Proof.Machine.execCpoll c dst s
  | .ccount c dst => Sys2Proof.Machine.execCcount c dst s
  | .controlMessageArrive st c0 => Sys2Proof.Machine.execControlMessageArrive st c0 s
  | .faultNotice => Sys2Proof.Machine.execFaultNotice s
  | .regulatorRelease kind p port => Sys2Proof.Machine.execRegulatorRelease kind p port s
  | .targetWindow t => Sys2Proof.Machine.execTargetWindow t s
  | .qosHubsrcWrite req r cfg value => Sys2Proof.Machine.execQosHubsrcWrite req r cfg value s
  | .qosSumsRecomputed => Sys2Proof.Machine.execQosSumsRecomputed s
  | .configRequest f reg write => Sys2Proof.Machine.execConfigRequest f reg write s
  | .hostRead f bar off len => Sys2Proof.Machine.execHostRead f bar off len s
  | .hostWrite f bar off data => Sys2Proof.Machine.execHostWrite f bar off data s
  | .hostAtomicop f bar off => Sys2Proof.Machine.execHostAtomicop f bar off s
  | .functionLevelReset f => Sys2Proof.Machine.execFunctionLevelReset f s
  | .vfEnableClear => Sys2Proof.Machine.execVfEnableClear s
  | .hostLinkReset => Sys2Proof.Machine.execHostLinkReset s
  | .bar2Resize f k => Sys2Proof.Machine.execBar2Resize f k s
  | .arqAppend f q off data => Sys2Proof.Machine.execArqAppend f q off data s
  | .arqCommit f q off data => Sys2Proof.Machine.execArqCommit f q off data s
  | .arqAbort req q value => Sys2Proof.Machine.execArqAbort req q value s
  | .qtake c dst src1 src2 imm => Sys2Proof.Machine.execQtake c dst src1 src2 imm s
  | .qtakew c dst src1 src2 imm => Sys2Proof.Machine.execQtakew c dst src1 src2 imm s
  | .qtakewResume c => Sys2Proof.Machine.execQtakewResume c s
  | .qput c dst src1 src2 imm => Sys2Proof.Machine.execQput c dst src1 src2 imm s
  | .qputw c dst src1 src2 imm => Sys2Proof.Machine.execQputw c dst src1 src2 imm s
  | .qputwResume c => Sys2Proof.Machine.execQputwResume c s
  | .qcount c dst src1 imm => Sys2Proof.Machine.execQcount c dst src1 imm s
  | .queueReservedOp c word => Sys2Proof.Machine.execQueueReservedOp c word s
  | .dpqRead f q off len => Sys2Proof.Machine.execDpqRead f q off len s
  | .dpqPop req q value => Sys2Proof.Machine.execDpqPop req q value s
  | .mirrorSample f busy => Sys2Proof.Machine.execMirrorSample f busy s
  | .linkTrainStart p l => Sys2Proof.Machine.execLinkTrainStart p l s
  | .linkTrainDone p l width => Sys2Proof.Machine.execLinkTrainDone p l width s
  | .linkTrainTimeout p l => Sys2Proof.Machine.execLinkTrainTimeout p l s
  | .linkRetrain p l cause => Sys2Proof.Machine.execLinkRetrain p l cause s
  | .twlRetrain req p l => Sys2Proof.Machine.execTwlRetrain req p l s
  | .twlDisable req p l value => Sys2Proof.Machine.execTwlDisable req p l value s
  | .dataFrame p l payload head back crc wrong => Sys2Proof.Machine.execDataFrame p l payload head back crc wrong s
  | .idleFrame p l payload back crc wrong => Sys2Proof.Machine.execIdleFrame p l payload back crc wrong s
  | .replay p l frm => Sys2Proof.Machine.execReplay p l frm s
  | .replayTimeout p l => Sys2Proof.Machine.execReplayTimeout p l s
  | .hello p l unit nport fecWant dstate master mhops ready => Sys2Proof.Machine.execHello p l unit nport fecWant dstate master mhops ready s
  | .helloSend p => Sys2Proof.Machine.execHelloSend p s
  | .neighbourTimeout p => Sys2Proof.Machine.execNeighbourTimeout p s
  | .vector p l src dist => Sys2Proof.Machine.execVector p l src dist s
  | .vectorSend p => Sys2Proof.Machine.execVectorSend p s
  | .distanceExpiry p idx => Sys2Proof.Machine.execDistanceExpiry p idx s
  | .fread port x => Sys2Proof.Machine.execFread port x s
  | .fwrite port x => Sys2Proof.Machine.execFwrite port x s
  | .fpwrite port x => Sys2Proof.Machine.execFpwrite port x s
  | .fatomic port x => Sys2Proof.Machine.execFatomic port x s
  | .frdata port x => Sys2Proof.Machine.execFrdata port x s
  | .fwack port x => Sys2Proof.Machine.execFwack port x s
  | .fabricTimeout src tag => Sys2Proof.Machine.execFabricTimeout src tag s
  | .surveyCheck => Sys2Proof.Machine.execSurveyCheck s
  | .portConditionChange p => Sys2Proof.Machine.execPortConditionChange p s
  | .portRecover p => Sys2Proof.Machine.execPortRecover p s
  | .datumExchange p => Sys2Proof.Machine.execDatumExchange p s
  | .dreq p l seq t1 => Sys2Proof.Machine.execDreq p l seq t1 s
  | .drsp p l seq t1 turn => Sys2Proof.Machine.execDrsp p l seq t1 turn s
  | .drspTimeout p => Sys2Proof.Machine.execDrspTimeout p s
  | .laneParityThreshold st group => Sys2Proof.Machine.execLaneParityThreshold st group s
  | .laneTestDone link bad => Sys2Proof.Machine.execLaneTestDone link bad s
  | .dtdTrainDone link bad => Sys2Proof.Machine.execDtdTrainDone link bad s
  | .dtdTrainTimeout link => Sys2Proof.Machine.execDtdTrainTimeout link s
  | .dtdReplays st => Sys2Proof.Machine.execDtdReplays st s
  | .dtdRetrain req st => Sys2Proof.Machine.execDtdRetrain req st s
  | .dtdDisable req st on => Sys2Proof.Machine.execDtdDisable req st on s
  | .linkDownPartitionStop link => Sys2Proof.Machine.execLinkDownPartitionStop link s
  | .ucpTrainStart => Sys2Proof.Machine.execUcpTrainStart s
  | .ucpTrainDone modules x8 rate => Sys2Proof.Machine.execUcpTrainDone modules x8 rate s
  | .ucpTrainTimeout => Sys2Proof.Machine.execUcpTrainTimeout s
  | .ident vendor product revision windowLog2 capacity flags => Sys2Proof.Machine.execIdent vendor product revision windowLog2 capacity flags s
  | .identTimeout => Sys2Proof.Machine.execIdentTimeout s
  | .ucpDown replays => Sys2Proof.Machine.execUcpDown replays s
  | .ucpRetrain req => Sys2Proof.Machine.execUcpRetrain req s
  | .ucpDisable req on => Sys2Proof.Machine.execUcpDisable req on s
  | .companionRequest kind atop p => Sys2Proof.Machine.execCompanionRequest kind atop p s
  | .idcode d => Sys2Proof.Machine.execIdcode d s
  | .sample d => Sys2Proof.Machine.execSample d s
  | .preload d => Sys2Proof.Machine.execPreload d s
  | .extest d => Sys2Proof.Machine.execExtest d s
  | .clamp d => Sys2Proof.Machine.execClamp d s
  | .highz d => Sys2Proof.Machine.execHighz d s
  | .ijtagRo d => Sys2Proof.Machine.execIjtagRo d s
  | .ijtag d => Sys2Proof.Machine.execIjtag d s
  | .bypass d code => Sys2Proof.Machine.execBypass d code s
  | .powerGood => Sys2Proof.Machine.execPowerGood s
  | .bootVerify => Sys2Proof.Machine.execBootVerify s
  | .exchangePhase flashOk => Sys2Proof.Machine.execExchangePhase flashOk s
  | .fusesRead => Sys2Proof.Machine.execFusesRead s
  | .localMachineDone d machine failed => Sys2Proof.Machine.execLocalMachineDone d machine failed s
  | .floorplanPublish => Sys2Proof.Machine.execFloorplanPublish s
  | .moduleReset req cold key => Sys2Proof.Machine.execModuleReset req cold key s
  | .fastPathStepDone ok => Sys2Proof.Machine.execFastPathStepDone ok s
  | .coreReset req c => Sys2Proof.Machine.execCoreReset req c s
  | .fence req c => Sys2Proof.Machine.execFence req c s
  | .fenceLend req c => Sys2Proof.Machine.execFenceLend req c s
  | .unfence req c => Sys2Proof.Machine.execUnfence req c s
  | .selftest req c tCore tSlice lend => Sys2Proof.Machine.execSelftest req c tCore tSlice lend s
  | .rstCmdReserved req c value => Sys2Proof.Machine.execRstCmdReserved req c value s
  | .clusterReset req d cluster => Sys2Proof.Machine.execClusterReset req d cluster s
  | .clusterFence req d cluster => Sys2Proof.Machine.execClusterFence req d cluster s
  | .clusterUnfence req d cluster => Sys2Proof.Machine.execClusterUnfence req d cluster s
  | .clusterSelftest req d cluster tCore tSlice => Sys2Proof.Machine.execClusterSelftest req d cluster tCore tSlice s
  | .rstClCmdReserved req d value => Sys2Proof.Machine.execRstClCmdReserved req d value s
  | .partitionReset req part => Sys2Proof.Machine.execPartitionReset req part s
  | .rstPartCmdReserved req value => Sys2Proof.Machine.execRstPartCmdReserved req value s
  | .resetDrainDone u => Sys2Proof.Machine.execResetDrainDone u s
  | .resetRelease u => Sys2Proof.Machine.execResetRelease u s
  | .selftestDone c coreFails sliceFails => Sys2Proof.Machine.execSelftestDone c coreFails sliceFails s
  | .heldCommandResume u => Sys2Proof.Machine.execHeldCommandResume u s
  | .forcedFence c => Sys2Proof.Machine.execForcedFence c s
  | .housekeepingRound logic hub shorts => Sys2Proof.Machine.execHousekeepingRound logic hub shorts s
  | .comparatorTrip station channel => Sys2Proof.Machine.execComparatorTrip station channel s
  | .thermalRecordWritten => Sys2Proof.Machine.execThermalRecordWritten s
  | .lifetimeWrite => Sys2Proof.Machine.execLifetimeWrite s
  | .freeze req => Sys2Proof.Machine.execFreeze req s
  | .thaw req => Sys2Proof.Machine.execThaw req s
  | .freezeAt req => Sys2Proof.Machine.execFreezeAt req s
  | .disarm req => Sys2Proof.Machine.execDisarm req s
  | .frzCmdReserved req op => Sys2Proof.Machine.execFrzCmdReserved req op s
  | .scheduledFreeze => Sys2Proof.Machine.execScheduledFreeze s
  | .sampleInstant busy => Sys2Proof.Machine.execSampleInstant busy s
  | .fieldbookRecord d => Sys2Proof.Machine.execFieldbookRecord d s
  | .gap d => Sys2Proof.Machine.execGap d s
  | .arm req => Sys2Proof.Machine.execArm req s
  | .trigger req => Sys2Proof.Machine.execTrigger req s
  | .triggerAt req => Sys2Proof.Machine.execTriggerAt req s
  | .scheduledTrigger => Sys2Proof.Machine.execScheduledTrigger s
  | .stop req => Sys2Proof.Machine.execStop req s
  | .dump req store => Sys2Proof.Machine.execDump req store s
  | .dumpDone => Sys2Proof.Machine.execDumpDone s
  | .fbkCmdReserved req op => Sys2Proof.Machine.execFbkCmdReserved req op s
  | .mark req value => Sys2Proof.Machine.execMark req value s
  | .entdaa addr => Sys2Proof.Machine.execEntdaa addr s
  | .setdasa static addr => Sys2Proof.Machine.execSetdasa static addr s
  | .setEndpointId op eid => Sys2Proof.Machine.execSetEndpointId op eid s
  | .getEndpointId => Sys2Proof.Machine.execGetEndpointId s
  | .getMctpVersionSupport msgType => Sys2Proof.Machine.execGetMctpVersionSupport msgType s
  | .getMessageTypeSupport => Sys2Proof.Machine.execGetMessageTypeSupport s
  | .getVendorDefinedSupport selector => Sys2Proof.Machine.execGetVendorDefinedSupport selector s
  | .getInfo inst => Sys2Proof.Machine.execGetInfo inst s
  | .stageBegin inst length version => Sys2Proof.Machine.execStageBegin inst length version s
  | .stageData inst offset data flashOk => Sys2Proof.Machine.execStageData inst offset data flashOk s
  | .stageEnd inst digest => Sys2Proof.Machine.execStageEnd inst digest s
  | .stageCancel inst => Sys2Proof.Machine.execStageCancel inst s
  | .rollback inst => Sys2Proof.Machine.execRollback inst s
  | .readLedger inst type rsvd index => Sys2Proof.Machine.execReadLedger inst type rsvd index s
  | .readObject inst object rsvd offset length => Sys2Proof.Machine.execReadObject inst object rsvd offset length s
  | .attest inst nonce => Sys2Proof.Machine.execAttest inst nonce s
  | .restart inst mode rsvd => Sys2Proof.Machine.execRestart inst mode rsvd s
  | .serviceReservedCommand inst cmd => Sys2Proof.Machine.execServiceReservedCommand inst cmd s
  | .ledgerAppend ok => Sys2Proof.Machine.execLedgerAppend ok s
  | .ledgerCompact => Sys2Proof.Machine.execLedgerCompact s
  | .fwuOwnerWrite req value => Sys2Proof.Machine.execFwuOwnerWrite req value s
  | .ownerLockValid => Sys2Proof.Machine.execOwnerLockValid s
  | .attGo req => Sys2Proof.Machine.execAttGo req s
  | .attestDone => Sys2Proof.Machine.execAttestDone s
  | .powerLoss => Sys2Proof.Machine.execPowerLoss s
  | .seatingInterlockChange isOpen => Sys2Proof.Machine.execSeatingInterlockChange isOpen s
  | .ledgerCompactionDone => Sys2Proof.Machine.execLedgerCompactionDone s

end Sys2Proof.Machine
end

