-- ==== Sys2Proof/Machine/Tick.lean ====
section
/-! DEFINITION. What one nanosecond changes while no command waits (DESIGN CHOICE, log entry 2): Datum (R454), the regulators' buckets (R362),
the cycle counters (R353, R553, R554), replays of the die-to-die links (R493), parked requests (log entry 98) and the hours of operation (R590). -/

namespace Sys2Proof.Machine

/-- The Datum of the hub and of every logic die rises by 1 (R454); where the rate is corrected, in LOCKED until the last sample's θ is removed and
in HOLDOVER throughout, by none or 2 when a whole count has gathered (R458). A die follows the hub (R459), on its own by 1 while it does not
track. -/
def Module.tickDatum (m : Module) : Module :=
  let st := m.rd F.DAT_STS_STATE 4
  let part := if (st = 2 ∧ m.dat.todo ≠ 0) ∨ st = 3 then m.dat.part + m.dat.rate else m.dat.part
  let n := if part ≥ 1000000 then 2 else if part ≤ -1000000 then 0 else 1
  let rise (d : Nat) : Nat := if d = 4 ∨ m.rd F.DAT_DSTS_TRACK d = 1 then n else 1
  { m with
    datum := (List.range 5).foldl (fun t d => Tbl.set 0 t d ((Tbl.get 0 t d + rise d) % 2 ^ 64)) m.datum
    dat := { m.dat with
      part := if n = 2 then part - 1000000 else if n = 0 then part + 1000000 else part
      todo := if st = 2 then m.dat.todo + 1 - n else m.dat.todo }
    now := m.now + 1 }

/-- The positions that run the keep-warm load: the good ones of RUNNING hearth partitions (R50, R546). -/
def Module.warmCores (m : Module) : List Nat :=
  ((m.plat.parts.filter fun p => p.kind == 2 && m.partState p.num == PSt.running).flatMap PartEntry.positions).filter m.good

/-- The domain-A edges that a core gets of one nanosecond and those that clock skipping removes (R531, R533): of a free number of edges, skip ÷
16 rounded down or up, as a second free number has it; none at skip 0. -/
def Module.edges (m : Module) (c : Nat) : Nat × Nat :=
  let e := (Config.edges m.freeCtr).toNat
  let gone := (e * m.skip c + (Config.edges (m.freeCtr + 1)).toNat % 16) / 16
  (e - gone, gone)

/-- The cycle counters of a core that is not HELD rise: CYC_ACTIVE, CYC_SKIPPED, and CYC_WAIT while WAITING (R553). -/
def Module.tickCore (m : Module) (c : Nat) : Module :=
  let k := m.core c
  if k.st = .held then m
  else
    let (e, gone) := m.edges c
    let m := ({ m with freeCtr := m.freeCtr + 2 }.count c 0 e).count c 1 gone
    if k.st = .waiting then m.count c 2 e else m

/-- The counters of a core that runs the keep-warm load (R84, R554): CYC_ACTIVE and CYC_SKIPPED rise as a core's, MAC_KEEPWARM by
4,096 for each array cycle of the load, of which there are none at duty 0 (R546). That its CYC_ACTIVE counts though SEQ_STS shows HELD:
DEDUCED, log entry 80. -/
def Module.tickWarm (m : Module) (c : Nat) : Module :=
  let n := m.freeCtr
  let (e, gone) := m.edges c
  let m := ({ m with freeCtr := n + 3 }.count c 0 e).count c 1 gone
  if m.rd F.THM_SPOT_DUTY (coreDie c) (spotOf c) = 0 then m else m.count c 9 (4096 * (Config.edges (n + 2)).toNat)

/-- One nanosecond of the multicast inputs that full retention buffers hold (R347, R353). -/
def Module.countStalls (m : Module) : Module :=
  m.net.ret.foldl (fun (m : Module) (n, l) =>
    if l.any Retained.stalled then m.bumpBy F.NOC_RET_STALL_CNT_COUNT n (netCycles m.now) else m) m

/-- Replays of the die-to-die stations whose link runs, counted in one nanosecond: free numbers (R493; log entry 8). -/
def Module.countReplays (m : Module) : Module :=
  let n := m.freeCtr
  (List.range 12).foldl (fun (m : Module) s =>
    if m.rd F.DTD_STS_STATE s = D2d.full ∨ m.rd F.DTD_STS_STATE s = D2d.narrow then
      m.bumpBy F.DTD_REPLAY_CNT_COUNT s (Config.edges (n + s)).toNat
    else m) { m with freeCtr := n + 12 }

/-- One nanosecond of an idle module; nothing changes while its power is off, but of a tripped one, whose standby supply the service side times
(R544), the time. -/
def Module.tick (m : Module) : Module :=
  if m.rd F.BRG_MOD_STS_STAGE 4 = 0 then (if m.tripped then { m with now := m.now + 1 } else m)
  else
    let m := (m.cores.map Prod.fst).foldl Module.tickCore m.countHeld.countStalls.countReplays.refillBuckets.tickDatum
    let m := (m.warmCores.foldl Module.tickWarm m).goOn
    { m with life := { m.life with onNs := m.life.onNs + 1 } }

end Sys2Proof.Machine
end

