-- ==== Sys2Proof/Machine/CoreWord.lean ====
section
/-! DEFINITION. Instruction words of a core (R129 to R131, R351, R404): the command that a word is, and the one that the word at a core's PC
is. The command table gives its rows no bits, so the commands of a run name their fields themselves. -/

namespace Sys2Proof.Machine

/-- The command of a core that an instruction word is; one that the rules forbid is the row of reserved words. -/
def coreInstr (c : CoreId) (word : DWord) : Instr :=
  let w := word.toNat
  let reg (lo : Nat) : GReg := Fin.ofNat 16 (bitsAt w lo 4)
  let dst := reg 8
  let src1 := reg 12
  let src2 := reg 16
  let ev : EvId := Fin.ofNat 16 (bitsAt w 20 4)
  let even := bitsAt w 24 1 == 1
  let imm : Word := BitVec.ofNat 32 (bitsAt w 32 32)
  if !coreWordOk word then
    if 0x30 ≤ bitsAt w 0 8 ∧ bitsAt w 0 8 ≤ 0x37 then .queueReservedOp c word else .reservedOpcode c word
  else
    match bitsAt w 0 8 with
    | 0x00 => .nop c
    | 0x01 => .halt c
    | 0x02 => .li c dst imm
    | 0x03 => .lih c dst imm
    | 0x04 => .add c dst src1 src2 imm
    | 0x05 => .sub c dst src1 src2
    | 0x06 => .and c dst src1 src2
    | 0x07 => .or c dst src1 src2
    | 0x08 => .xor c dst src1 src2
    | 0x09 => .shl c dst src1 imm
    | 0x0A => .shr c dst src1 imm
    | 0x0B => .mul c dst src1 src2
    | 0x0C => .ld c dst src1 imm
    | 0x0D => .st c src1 src2 imm
    | 0x10 => .br c dst src1 src2 imm
    | 0x18 => .mpass c src1 ev even
    | 0x19 => .mcvt c src1 ev even imm
    | 0x1A => .vop c src1 ev even
    | 0x1B => .dma c src1 ev even
    | 0x1C => .bop c src1 ev even
    | 0x1D => .atn c src1
    | 0x20 => .wait c src1 ev
    | 0x21 => .evrd c dst ev
    | 0x22 => .task c imm
    | 0x23 => .datum c dst
    | 0x28 => .csend c src1 imm
    | 0x29 => .csendp c src1 src2 imm
    | 0x2A => .csendh c src1 imm
    | 0x2B => .csendhp c src1 src2 imm
    | 0x2C => .crecv c dst
    | 0x2D => .cpoll c dst
    | 0x2E => .ccount c dst
    | 0x30 => .qtake c dst src1 src2 imm
    | 0x31 => .qtakew c dst src1 src2 imm
    | 0x32 => .qput c dst src1 src2 imm
    | 0x33 => .qputw c dst src1 src2 imm
    | 0x34 => .qcount c dst src1 imm
    | _ => .reservedOpcode c word

/-- The command that the word at a core's PC is (R129): 8 bytes of its scratch, the lowest first. -/
def Module.nextInstr (m : Module) (c : CoreId) : Instr := coreInstr c (BitVec.ofNat 64 (m.num (scrKey c (m.core c).pc.toNat) 8))

end Sys2Proof.Machine
end

