-- ==== Sys2Proof/WellFormed.lean ====
section
/-! DEFINITION. Which commands a sender can issue: packets have the forms of R325 and R327, tags 14 bits, a host access lies in a BAR's
reach and carries at most the payload of R380, and lists have the lengths of what they stand for. Every other operand is as wide as
its type. -/

namespace Sys2Proof

/-- The companion port has one link (R482). -/
def frameLink (p : FramePort) (l : LinkIdx) : Bool := decide (p.val < 8) || l.val == 0

open Machine in
/-- The command can be issued. -/
def Instr.wf : Instr → Bool
  | .registerWrite _ addr size _ => decide (addr < 2 ^ 48) && (regDie addr).isSome && decide (1 ≤ size) && decide (size ≤ 8)
  | .clockLoss _ => true
  | .clockLockReturn _ => true
  | .farLockTimeout _ => true
  | .loadModuleScope _ => true
  | .loadPartitionScope _ _ => true
  | .pltStop _ _ => true
  | .pltRemove _ _ => true
  | .pltCmdReserved _ _ _ => true
  | .digestVerified => true
  | .quiesceDone => true
  | .loadWriteDone _ => true
  | .nop _ => true
  | .halt _ => true
  | .haltComplete _ => true
  | .li _ _ _ => true
  | .lih _ _ _ => true
  | .add _ _ _ _ _ => true
  | .sub _ _ _ _ => true
  | .and _ _ _ _ => true
  | .or _ _ _ _ => true
  | .xor _ _ _ _ => true
  | .shl _ _ _ _ => true
  | .shr _ _ _ _ => true
  | .mul _ _ _ _ => true
  | .ld _ _ _ _ => true
  | .st _ _ _ _ => true
  | .br _ _ _ _ _ => true
  | .mpass _ _ _ _ => true
  | .mcvt _ _ _ _ _ => true
  | .vop _ _ _ _ => true
  | .dma _ _ _ _ => true
  | .bop _ _ _ _ => true
  | .atn _ _ => true
  | .wait _ _ _ => true
  | .waitSatisfied _ => true
  | .waitTimeout _ => true
  | .evrd _ _ _ => true
  | .task _ _ => true
  | .datum _ _ => true
  | .reservedOpcode _ _ => true
  | .matrixPassStart _ => true
  | .matrixPassComplete _ => true
  | .matrixRingReleaseWaitEnd _ => true
  | .mcvtApply _ => true
  | .vecCopy _ => true
  | .vecAdd _ => true
  | .vecSub _ => true
  | .vecMul _ => true
  | .vecFma _ => true
  | .vecMax _ => true
  | .vecMin _ => true
  | .vecAbs _ => true
  | .vecNeg _ => true
  | .rcp _ => true
  | .rsqrt _ => true
  | .exp2 _ => true
  | .expsub _ => true
  | .sigmoid _ => true
  | .silu _ => true
  | .rowmax _ => true
  | .rowsum _ => true
  | .rowssq _ => true
  | .cmplt _ => true
  | .cmple _ => true
  | .cmpeq _ => true
  | .cmpne _ => true
  | .setcvt _ => true
  | .setmask _ => true
  | .maskop _ => true
  | .fmask _ => true
  | .fclr _ => true
  | .fstore _ => true
  | .monclr _ => true
  | .monrd _ => true
  | .vecReservedOp _ => true
  | .vecDescComplete _ => true
  | .vecRingRowReady _ => true
  | .ringShort _ => true
  | .atnInit _ => true
  | .atnRescale _ => true
  | .atnMerge _ => true
  | .atnFinish _ => true
  | .dmaCopy _ => true
  | .tcopy _ => true
  | .gather _ => true
  | .append _ => true
  | .share _ => true
  | .release _ => true
  | .rsend _ => true
  | .rsendPoll _ => true
  | .rsendHeaderWrite _ => true
  | .rwait _ => true
  | .rwaitPoll _ => true
  | .ringTimeout _ => true
  | .rfree _ => true
  | .dmaReservedOp _ => true
  | .dmaDescComplete _ => true
  | .tablePop _ _ => true
  | .tableIncref _ _ => true
  | .tableDecref _ _ => true
  | .relayForward _ => true
  | .bopFill _ => true
  | .bopCopy _ => true
  | .bopAdd _ => true
  | .bopSub _ => true
  | .bopMul _ => true
  | .bopFma _ => true
  | .axpy _ => true
  | .affine _ => true
  | .act _ => true
  | .loadtab _ => true
  | .bopReservedOp _ => true
  | .bopCleanDone _ => true
  | .pageStepEnd _ _ => true
  | .bopComplete _ => true
  | .refresh _ _ => true
  | .pageRecompute _ _ => true
  | .slowPathBegin _ => true
  | .slowPathDone _ => true
  | .fmcRetrain _ => true
  | .fmcRetrainDone _ _ => true
  | .fmcIsolate _ _ => true
  | .scrubScan _ _ _ _ _ => true
  | .scrubRepair _ _ _ _ _ => true
  | .scrubAbort _ _ => true
  | .scrubPage _ => true
  | .scrubDone _ => true
  | .fieldRepair _ _ _ _ => true
  | .fieldRepairCopyDone _ => true
  | .fieldRepairDone _ _ => true
  | .meshRead p => packetWf p 0
  | .meshWrite p => packetWf p 1
  | .pwrite p => packetWf p 2
  | .atomicSwap p => packetWf p 3
  | .atomicCas p => packetWf p 3
  | .atomicAdd p => packetWf p 3
  | .atomicAnd p => packetWf p 3
  | .atomicOr p => packetWf p 3
  | .atomicXor p => packetWf p 3
  | .smax p => packetWf p 3
  | .smin p => packetWf p 3
  | .umax p => packetWf p 3
  | .umin p => packetWf p 3
  | .fadd p => packetWf p 3 && p.len == 4
  | .atomicReserved p _ => packetWf p 3
  | .mwrite p _ => packetWf p 1 && decide (64 ≤ p.len) && decide (p.src.toNat < 576)
  | .rdata _ tag => decide (tag < 16384)
  | .wack _ tag _ => decide (tag < 16384)
  | .requestTimeout _ tag => decide (tag < 16384) || decide (65536 ≤ tag)
  | .drainEnd _ => true
  | .retentionRetry _ => true
  | .routeCondApply _ => true
  | .csend _ _ _ => true
  | .csendp _ _ _ _ => true
  | .csendh _ _ _ => true
  | .csendhp _ _ _ _ => true
  | .crecv _ _ => true
  | .crecvResume _ => true
  | .cpoll _ _ => true
  | .ccount _ _ => true
  | .controlMessageArrive _ _ => true
  | .faultNotice => true
  | .regulatorRelease kind p _ => if kind.val = 4 then packetWf p 1 else packetWf p kind.val
  | .targetWindow _ => true
  | .qosHubsrcWrite _ _ _ _ => true
  | .qosSumsRecomputed => true
  | .configRequest _ _ _ => true
  | .hostRead _ _ off len => decide (off + len.val + 1 ≤ 2 ^ 44)
  | .hostWrite _ _ off data => !data.isEmpty && decide (data.length ≤ 512) && decide (off + data.length ≤ 2 ^ 44)
  | .hostAtomicop _ _ off => decide (off < 2 ^ 44)
  | .functionLevelReset _ => true
  | .vfEnableClear => true
  | .hostLinkReset => true
  | .bar2Resize _ _ => true
  | .arqAppend _ _ _ data => !data.isEmpty && decide (data.length ≤ 512)
  | .arqCommit _ _ _ data => !data.isEmpty && decide (data.length ≤ 512)
  | .arqAbort _ _ _ => true
  | .qtake _ _ _ _ _ => true
  | .qtakew _ _ _ _ _ => true
  | .qtakewResume _ => true
  | .qput _ _ _ _ _ => true
  | .qputw _ _ _ _ _ => true
  | .qputwResume _ => true
  | .qcount _ _ _ _ => true
  | .queueReservedOp _ _ => true
  | .dpqRead _ _ _ _ => true
  | .dpqPop _ _ _ => true
  | .mirrorSample _ _ => true
  | .linkTrainStart _ _ => true
  | .linkTrainDone _ _ _ => true
  | .linkTrainTimeout _ _ => true
  | .linkRetrain _ _ _ => true
  | .twlRetrain _ _ _ => true
  | .twlDisable _ _ _ _ => true
  | .dataFrame p l payload _ _ _ _ => frameLink p l && payload.length == 256
  | .idleFrame p l payload _ _ _ => frameLink p l && payload.length == 256
  | .replay p l _ => frameLink p l.link
  | .replayTimeout p l => frameLink p l
  | .hello _ _ _ _ _ _ _ _ _ => true
  | .helloSend _ => true
  | .neighbourTimeout _ => true
  | .vector _ _ _ dist => dist.length == 128
  | .vectorSend _ => true
  | .distanceExpiry _ _ => true
  | .fread _ _ => true
  | .fwrite _ _ => true
  | .fpwrite _ _ => true
  | .fatomic _ _ => true
  | .frdata _ _ => true
  | .fwack _ _ => true
  | .fabricTimeout _ tag => decide (tag < 16384)
  | .surveyCheck => true
  | .portConditionChange _ => true
  | .portRecover _ => true
  | .datumExchange _ => true
  | .dreq _ _ _ _ => true
  | .drsp _ _ _ _ _ => true
  | .drspTimeout _ => true
  | .laneParityThreshold _ _ => true
  | .laneTestDone _ _ => true
  | .dtdTrainDone _ _ => true
  | .dtdTrainTimeout _ => true
  | .dtdReplays _ => true
  | .dtdRetrain _ _ => true
  | .dtdDisable _ _ _ => true
  | .linkDownPartitionStop _ => true
  | .ucpTrainStart => true
  | .ucpTrainDone _ _ _ => true
  | .ucpTrainTimeout => true
  | .ident _ _ _ _ _ _ => true
  | .identTimeout => true
  | .ucpDown _ => true
  | .ucpRetrain _ => true
  | .ucpDisable _ _ => true
  | .companionRequest _ _ _ => true
  | .idcode _ => true
  | .sample _ => true
  | .preload _ => true
  | .extest _ => true
  | .clamp _ => true
  | .highz _ => true
  | .ijtagRo _ => true
  | .ijtag _ => true
  | .bypass _ code => decide (code.toNat = 0 ∨ 7 ≤ code.toNat) && code != 0x10 && code != 0x11
  | .powerGood => true
  | .bootVerify => true
  | .exchangePhase _ => true
  | .fusesRead => true
  | .localMachineDone _ _ _ => true
  | .floorplanPublish => true
  | .moduleReset _ _ _ => true
  | .fastPathStepDone _ => true
  | .coreReset _ _ => true
  | .fence _ _ => true
  | .fenceLend _ _ => true
  | .unfence _ _ => true
  | .selftest _ _ _ _ _ => true
  | .rstCmdReserved _ _ _ => true
  | .clusterReset _ _ _ => true
  | .clusterFence _ _ _ => true
  | .clusterUnfence _ _ _ => true
  | .clusterSelftest _ _ _ _ _ => true
  | .rstClCmdReserved _ _ _ => true
  | .partitionReset _ _ => true
  | .rstPartCmdReserved _ _ => true
  | .resetDrainDone _ => true
  | .resetRelease _ => true
  | .selftestDone _ _ _ => true
  | .heldCommandResume _ => true
  | .forcedFence _ => true
  | .housekeepingRound logic hub _ => logic.length == 4 && logic.all (fun l => l.length == 70) && hub.length == 40
  | .comparatorTrip _ _ => true
  | .thermalRecordWritten => true
  | .lifetimeWrite => true
  | .freeze _ => true
  | .thaw _ => true
  | .freezeAt _ => true
  | .disarm _ => true
  | .frzCmdReserved _ _ => true
  | .scheduledFreeze => true
  | .sampleInstant _ => true
  | .fieldbookRecord _ => true
  | .gap _ => true
  | .arm _ => true
  | .trigger _ => true
  | .triggerAt _ => true
  | .scheduledTrigger => true
  | .stop _ => true
  | .dump _ _ => true
  | .dumpDone => true
  | .fbkCmdReserved _ _ => true
  | .mark _ _ => true
  | .entdaa _ => true
  | .setdasa _ _ => true
  | .setEndpointId _ _ => true
  | .getEndpointId => true
  | .getMctpVersionSupport _ => true
  | .getMessageTypeSupport => true
  | .getVendorDefinedSupport _ => true
  | .getInfo _ => true
  | .stageBegin _ _ _ => true
  | .stageData _ _ _ _ => true
  | .stageEnd _ _ => true
  | .stageCancel _ => true
  | .rollback _ => true
  | .readLedger _ _ _ _ => true
  | .readObject _ _ _ _ _ => true
  | .attest _ _ => true
  | .restart _ _ _ => true
  | .serviceReservedCommand _ _ => true
  | .ledgerAppend _ => true
  | .ledgerCompact => true
  | .fwuOwnerWrite _ _ => true
  | .ownerLockValid => true
  | .attGo _ => true
  | .attestDone => true
  | .powerLoss => true
  | .seatingInterlockChange _ => true
  | .ledgerCompactionDone => true

end Sys2Proof
end

