-- ==== Sys2Proof/Safety.lean ====
section
/-! DEFINITION. What a safe run of the module is, and the form that its data always has: canonical memory, tables and sets, so that equal
contents are equal data. -/

namespace Sys2Proof.Machine

/-- A run of n steps from a state ends in a next state: no step of it faults or refuses. -/
def SafeFor (n : Nat) (s : State) : Prop := ∃ t, Host.Core.run Sys2Proof.core n s = .next t

/-- Every run from a state is safe. -/
def Safe (s : State) : Prop := ∀ n, SafeFor n s

/-- Memory in its canonical form: bytes, poisoned words and the wrong bits and symbols of every code by rising key, none at the value that an
unlisted one has. -/
def Module.memWf (m : Module) : Bool :=
  Tbl.wf 0 m.mem && NSet.wf m.poison && Tbl.wf 0 m.scrErr && Tbl.wf 0 m.wordErr && Tbl.wf 0 m.ckErr && Tbl.wf 0 m.ckOff

/-- The memory of a state is in its canonical form. -/
abbrev State.memWf (s : State) : Prop := s.m.memWf = true

/-- Every command that waits is one that a sender can issue. -/
def State.queueWf (s : State) : Prop := ∀ c ∈ s.pending, c.wf = true

end Sys2Proof.Machine
end

