-- ==== Sys2Proof/Certificates/Slice0/Obligations.lean ====
section
/-! DEFINITION. The statements about the module. Each says of named commands which next state they give under hypotheses on the state and
operands alone, what they leave unchanged, or what every step keeps. `Claim` holds the words that the statements share. -/

namespace Sys2Proof.Claim

open Machine

/-- Command i at state s ends in module m', the queue untouched. -/
def To (i : Instr) (s : State) (m' : Module) : Prop := exec i s = .next { s with m := m' }

/-- Command i at state s ends in a module of which P holds, the queue untouched. -/
def Does (i : Instr) (s : State) (P : Module → Prop) : Prop := ∃ m', exec i s = .next { s with m := m' } ∧ P m'

/-- No byte of memory and no word's poison differs. -/
def SameMem (m m' : Module) : Prop := (∀ k, m'.byte k = m.byte k) ∧ (∀ w, w ∈ m'.poison ↔ w ∈ m.poison)

/-- No byte of memory differs; a line written back may have marked words as poisoned that already read so (R298). -/
def SameBytes (m m' : Module) : Prop := ∀ k, m'.byte k = m.byte k

/-- Every register but those named, each with its unit, holds the same word, at every unit and index that the module has. -/
def SameRegs (m m' : Module) (but : List (Reg × Nat)) : Prop :=
  ∀ r u i, u < 1024 → i < 2048 → (r, u) ∉ but → m'.word r u i = m.word r u i

/-- The registers that an instruction of a core may change besides its destination: its fault and error registers, the stall of its issue,
and the counters that a fault notice and a Fieldbook record move. -/
def coreRegs (c : Nat) : List (Reg × Nat) :=
  [(.SEQ_STS, c), (.SEQ_FAULT, c), (.SEQ_SCR_CE, c), (.SEQ_SCR_UE, c), (.CTL_SENT_CNT, c), (.FBK_LOST, coreDie c)]

/-- No link of the module holds what comes to it, no packet waits on its path, and no copy of a multicast write is retained at a router (R347,
R474). -/
def ClearWays (m : Module) : Prop := m.lockLost = [] ∧ m.net.ret = [] ∧ m.net.wait = [] ∧ ∀ l, m.linkHolds l = false

/-- Nothing in the module makes an access of memory wait (R32, R274, R298 to R304, R347, R474): every domain has its clock, the mesh is clear, no
stored word needs a slow path, and no slow path, field repair, bank operation or retraining is under way or has just ended for a unit. -/
def Quiet (m : Module) : Prop :=
  ClearWays m ∧ m.wordErr = [] ∧ m.slow = [] ∧ m.ran = [] ∧ m.repairs = [] ∧ (∀ t, (m.slice t).bop = none) ∧
    ∀ j, (m.far j).retraining = false

/-- No channel of a source interface is regulated (R361, R362). -/
def Unregulated (m : Module) (i : Nat) : Prop := ∀ v, v < 4 → (m.srcReg i v).1 = 0

/-- A step of an engine of core c that takes the module to m': it is made where the core's tokens let it go, and else the engine has done nothing
and waits for them (R362). That the packets of one step go together is the model's choice (log entry 87). -/
def Lets (i : Instr) (s : State) (c : Nat) (m' : Module) : Prop :=
  (s.m.tokensFor m' c = true → To i s (m'.fed c)) ∧ (s.m.tokensFor m' c = false → To i s (s.m.starve c))

/-- No request waits for a bank operation or for a clock. -/
def NoneHeld (m : Module) : Prop := m.clkHeld = [] ∧ ∀ t, (m.slice t).held = []

/-- The words of a span read well: their codes are good, none is marked, and no line of a slice's cache holds one unrepaired. -/
def ReadsWell (m : Module) (k n : Nat) : Prop :=
  ∀ w ∈ wordsOf k n, m.wordBad w = false ∧ ∀ t l, (m.slice t).lineOf w = some l → l.bad = false

/-- Every core but c is as it was. -/
def SameCores (m m' : Module) (c : Nat) : Prop := ∀ d, d ≠ c → m'.core d = m.core d

/-- The word of scratch that holds a core's next instruction. -/
def fetchWord (m : Module) (c : Nat) : Nat := scrKey c (m.core c).pc.toNat / 64

/-- A core executes instructions, its PC lies in scratch, and the line that holds the instruction reads well (R139). -/
def Fetches (m : Module) (c : Nat) : Prop :=
  (m.core c).fetching = true ∧ (m.core c).pc.toNat < 0x18_0000 ∧ m.wordBad (fetchWord m c) = false

/-- The module after the fetch: a corrected error of the line is counted (R142). -/
def fetched (m : Module) (c : Nat) : Module := m.noteWord (fetchWord m c)

/-- A core that runs or waits takes the core fault DESC_REJECTED with an engine and its status (R139); any other stays as it is. -/
def Rejects (m m' : Module) (c engine status : Nat) : Prop :=
  if (m.core c).st = .running ∨ (m.core c).st = .waiting then
    (m'.core c).st = .faulted ∧ m'.rd F.SEQ_FAULT_CODE c = 6 ∧ m'.rd F.SEQ_FAULT_ENGINE c = engine ∧
      m'.rd F.SEQ_FAULT_ENGINE_STS c = status
  else (m'.core c).st = (m.core c).st

/-- A completed descriptor's event counter has gone up by 1, modulo 2^32, and no other of the core has moved (R136). -/
def Posts (m m' : Module) (c : Nat) (d : Desc) : Prop :=
  ∀ e, e < 16 → m'.word .SEQ_EVC c e = m.word .SEQ_EVC c e + (if d.ev = some e then 1 else 0)

end Sys2Proof.Claim

open Sys2Proof Sys2Proof.Machine Sys2Proof.Claim

/-! ### The core sequencer -/

/-- The scalar instructions of R130, for every destination: G0 discards its write (R129). -/
def Obligations.ScalarResults : Prop := ∀ (c : CoreId) (s : State), Fetches s.m c →
  let m := fetched s.m c
  let k := s.m.core c
  To (.nop c) s (m.retire c k) ∧
  To (.halt c) s (m.retire c { k with halting := true }) ∧
  ∀ (dst a b : GReg) (imm : Word),
    To (.li c dst imm) s (m.retire c (k.setG dst (imm.signExtend 64))) ∧
    To (.lih c dst imm) s (m.retire c (k.setG dst (imm ++ (k.getG dst).setWidth 32))) ∧
    To (.add c dst a b imm) s (m.retire c (k.setG dst (k.getG a + k.getG b + imm.signExtend 64))) ∧
    To (.sub c dst a b) s (m.retire c (k.setG dst (k.getG a - k.getG b))) ∧
    To (.and c dst a b) s (m.retire c (k.setG dst (k.getG a &&& k.getG b))) ∧
    To (.or c dst a b) s (m.retire c (k.setG dst (k.getG a ||| k.getG b))) ∧
    To (.xor c dst a b) s (m.retire c (k.setG dst (k.getG a ^^^ k.getG b))) ∧
    To (.mul c dst a b) s (m.retire c (k.setG dst (k.getG a * k.getG b))) ∧
    (imm.toNat < 64 → To (.shl c dst a imm) s (m.retire c (k.setG dst (k.getG a <<< imm.toNat)))) ∧
    (imm.toNat < 64 → To (.shr c dst a imm) s (m.retire c (k.setG dst (k.getG a >>> imm.toNat)))) ∧
    (imm.toNat < 256 → To (.task c imm) s ((m.wr F.SEQ_FARE_FARE c imm.toNat).retire c k)) ∧
    To (.datum c dst) s (m.retire c (k.setG dst (BitVec.ofNat 64 (s.m.datumOf (coreDie c))))) ∧
    ∀ ev : EvId, To (.evrd c dst ev) s (m.retire c (k.setG dst ((s.m.word .SEQ_EVC c ev).setWidth 64)))

/-- An instruction word by its fields, laid out as R129 gives them. -/
def Sys2Proof.Claim.coreWord (op dst src1 src2 ev : Nat) (even : Bool) (imm : Word) : DWord :=
  BitVec.ofNat 64 (op + dst * 2 ^ 8 + src1 * 2 ^ 12 + src2 * 2 ^ 16 + ev * 2 ^ 20 + (if even then 2 ^ 24 else 0) + imm.toNat * 2 ^ 32)

/-- Every instruction of a core is read back from its word (R129, R130, R131, R351, R404), with every operand at every value that the word
may hold; a word that the rules forbid is read as a reserved one. -/
def Obligations.CoreWords : Prop := ∀ (c : CoreId) (dst a b : GReg) (ev : EvId) (even : Bool) (imm : Word),
  let is (op dst src1 src2 ev : Nat) (even : Bool) (imm : Word) (i : Instr) : Prop := coreInstr c (coreWord op dst src1 src2 ev even imm) = i
  is 0x00 0 0 0 0 false 0 (.nop c) ∧ is 0x01 0 0 0 0 false 0 (.halt c) ∧ is 0x02 dst 0 0 0 false imm (.li c dst imm) ∧
  is 0x03 dst 0 0 0 false imm (.lih c dst imm) ∧ is 0x04 dst a b 0 false imm (.add c dst a b imm) ∧
  is 0x05 dst a b 0 false 0 (.sub c dst a b) ∧ is 0x06 dst a b 0 false 0 (.and c dst a b) ∧ is 0x07 dst a b 0 false 0 (.or c dst a b) ∧
  is 0x08 dst a b 0 false 0 (.xor c dst a b) ∧ (imm.toNat < 64 → is 0x09 dst a 0 0 false imm (.shl c dst a imm)) ∧
  (imm.toNat < 64 → is 0x0A dst a 0 0 false imm (.shr c dst a imm)) ∧ is 0x0B dst a b 0 false 0 (.mul c dst a b) ∧
  is 0x0C dst a 0 0 false imm (.ld c dst a imm) ∧ is 0x0D 0 a b 0 false imm (.st c a b imm) ∧
  (dst.val < 7 → is 0x10 dst a b 0 false imm (.br c dst a b imm)) ∧
  (a.val % 2 = 0 → is 0x18 0 a 0 ev even 0 (.mpass c a ev even)) ∧
  (1 ≤ imm.toNat → imm.toNat ≤ 3 → is 0x19 0 a 0 ev even imm (.mcvt c a ev even imm)) ∧
  (a.val % 2 = 0 → is 0x1A 0 a 0 ev even 0 (.vop c a ev even)) ∧ (a.val % 4 = 0 → is 0x1B 0 a 0 ev even 0 (.dma c a ev even)) ∧
  (a.val % 4 = 0 → is 0x1C 0 a 0 ev even 0 (.bop c a ev even)) ∧ (a.val % 2 = 0 → is 0x1D 0 a 0 0 false 0 (.atn c a)) ∧
  is 0x20 0 a 0 ev false 0 (.wait c a ev) ∧ is 0x21 dst 0 0 ev false 0 (.evrd c dst ev) ∧
  (imm.toNat < 256 → is 0x22 0 0 0 0 false imm (.task c imm)) ∧ is 0x23 dst 0 0 0 false 0 (.datum c dst) ∧
  is 0x28 0 a 0 0 false imm (.csend c a imm) ∧ is 0x29 0 a b 0 false imm (.csendp c a b imm) ∧
  is 0x2A 0 a 0 0 false imm (.csendh c a imm) ∧ is 0x2B 0 a b 0 false imm (.csendhp c a b imm) ∧
  (dst.val % 2 = 0 → 2 ≤ dst.val → is 0x2C dst 0 0 0 false 0 (.crecv c dst) ∧ is 0x2D dst 0 0 0 false 0 (.cpoll c dst)) ∧
  is 0x2E dst 0 0 0 false 0 (.ccount c dst) ∧
  (imm.toNat < 256 → is 0x30 dst a b 0 false imm (.qtake c dst a b imm) ∧ is 0x31 dst a b 0 false imm (.qtakew c dst a b imm) ∧
    is 0x32 dst a b 0 false imm (.qput c dst a b imm) ∧ is 0x33 dst a b 0 false imm (.qputw c dst a b imm)) ∧
  (imm.toNat < 2 → is 0x34 dst a 0 0 false imm (.qcount c dst a imm)) ∧
  ∀ word : DWord, coreWordOk word = false → coreInstr c word ∈ [Instr.reservedOpcode c word, .queueReservedOp c word]

/-- LD and ST (R132): the 8 bytes at G[SRC1] + sext(IMM), an aligned address of scratch or a tile register. -/
def Sys2Proof.Claim.LoadStoreResults : Prop := ∀ (c : CoreId) (s : State) (a b : GReg) (imm : Word), Fetches s.m c →
  let m := fetched s.m c
  let k := s.m.core c
  let x := (k.getG a + imm.signExtend 64).toNat
  x % 8 = 0 → (x + 8 ≤ 0x18_0000 ∨ 0x20_0000 ≤ x ∧ x + 8 ≤ 0x21_8000) →
    To (.st c a b imm) s ((m.put (scrKey c x) (leBytes 8 (k.getG b).toNat)).retire c k) ∧
    (m.wordBad (scrKey c x / 64) = false → ∀ dst : GReg, Does (.ld c dst a imm) s fun m' =>
      m'.core c = { k.setG dst (BitVec.ofNat 64 (m.num (scrKey c x) 8)) with lastPc := k.pc, pc := k.pc + 8 } ∧ SameMem s.m m')

/-- What an LD or ST does at an address that R132 forbids, and LD of a poisoned line: the core fault takes place, and memory is
unchanged. -/
def Sys2Proof.Claim.LoadStoreFaults : Prop := ∀ (c : CoreId) (s : State) (a b dst : GReg) (imm : Word), Fetches s.m c →
  let k := s.m.core c
  let x := (k.getG a + imm.signExtend 64).toNat
  (x % 8 ≠ 0 ∨ (0x18_0000 < x + 8 ∧ ¬ (0x20_0000 ≤ x ∧ x + 8 ≤ 0x21_8000)) →
    ∀ i ∈ [Instr.ld c dst a imm, Instr.st c a b imm], Does i s fun m' =>
      (m'.core c).st = .faulted ∧ m'.rd F.SEQ_FAULT_CODE c = 3 ∧ SameMem s.m m') ∧
  (x % 8 = 0 → x + 8 ≤ 0x18_0000 → (fetched s.m c).wordBad (scrKey c x / 64) = true →
    Does (.ld c dst a imm) s fun m' => (m'.core c).st = .faulted ∧ m'.rd F.SEQ_FAULT_CODE c = 4 ∧ SameMem s.m m')

/-- LD and ST: what they do at an address of scratch or a tile register, and the core fault at any other. -/
def Obligations.LoadsAndStores : Prop := Claim.LoadStoreResults ∧ Claim.LoadStoreFaults

/-- A store writes the 8 bytes at its address and no other byte, whatever it meets on the way, and marks no word. -/
def Sys2Proof.Claim.StoreFrame : Prop := ∀ (c : CoreId) (s t : State) (a b : GReg) (imm : Word), exec (.st c a b imm) s = .next t →
  let k := s.m.core c
  let x := scrKey c (k.getG a + imm.signExtend 64).toNat
  (∀ y, y < x ∨ x + 8 ≤ y → t.m.byte y = s.m.byte y) ∧ SameCores s.m t.m c ∧
    (∀ w, w ∈ t.m.poison ↔ w ∈ s.m.poison) ∧ SameRegs s.m t.m (coreRegs c)

/-- The instructions that touch the core's own registers alone change no memory, no other core and no register beside their own: the
fault and error registers, the fare of TASK, and the counters that a fault notice and a Fieldbook record move. -/
def Sys2Proof.Claim.ScalarFrame : Prop := ∀ (c : CoreId) (dst a b : GReg) (imm : Word) (ev : EvId) (cond : Fin 16) (s t : State),
  ∀ i ∈ [Instr.nop c, .halt c, .li c dst imm, .lih c dst imm, .add c dst a b imm, .sub c dst a b, .and c dst a b, .or c dst a b,
      .xor c dst a b, .shl c dst a imm, .shr c dst a imm, .mul c dst a b, .br c cond a b imm, .evrd c dst ev, .datum c dst,
      .task c imm, .ld c dst a imm, .wait c a ev],
    exec i s = .next t →
      SameMem s.m t.m ∧ SameCores s.m t.m c ∧
      SameRegs s.m t.m ((.SEQ_FARE, c.val) :: coreRegs c) ∧
      ((∀ imm', i ≠ .task c imm') → t.m.word .SEQ_FARE c 0 = s.m.word .SEQ_FARE c 0)

/-- What a store, and what the instructions of the core's own registers, leave unchanged. -/
def Obligations.ScalarFrames : Prop := Claim.StoreFrame ∧ Claim.ScalarFrame

/-- BR (R131): each condition, by its code, and the PC it leaves. -/
def Sys2Proof.Claim.BranchResults : Prop := ∀ (c : CoreId) (s : State) (a b : GReg) (imm : Word), Fetches s.m c →
  let m := fetched s.m c
  let k := s.m.core c
  let x := k.getG a
  let y := k.getG b
  let goes (cond : Fin 16) (taken : Prop) : Prop :=
    (taken → To (.br c cond a b imm) s (m.retireTo c k (k.pc + imm.signExtend 64 * 8))) ∧
    (¬ taken → To (.br c cond a b imm) s (m.retireTo c k (k.pc + 8)))
  goes 0 True ∧ goes 1 (x = y) ∧ goes 2 (x ≠ y) ∧ goes 3 (x.toInt < y.toInt) ∧ goes 4 (y.toInt ≤ x.toInt) ∧
    goes 5 (x.toNat < y.toNat) ∧ goes 6 (y.toNat ≤ x.toNat) ∧
    ∀ cond : Fin 16, 7 ≤ cond.val → To (.br c cond a b imm) s (m.coreFault c 1 0 0 k.pc)

/-- Taking a core fault (R139, R140): the core becomes FAULTED with the faulting PC in SEQ_PC, SEQ_FAULT holds code, engine and engine
status, nothing is awaited any more, and a notice for Ostler stands in the transmit queue or behind it. -/
def Sys2Proof.Claim.CoreFaultEntry : Prop := ∀ (m : Module) (c : CoreId) (fault engine sts : Nat) (pc : DWord),
  fault < 256 → engine < 8 → sts < 256 → ((m.core c).st = .running ∨ (m.core c).st = .waiting) →
  let m' := m.coreFault c fault engine sts pc
  (m'.core c).st = .faulted ∧ (m'.core c).lastPc = pc ∧ (m'.core c).wait = none ∧ (m'.core c).g = (m.core c).g ∧
  m'.rd F.SEQ_FAULT_CODE c = fault ∧ m'.rd F.SEQ_FAULT_ENGINE c = engine ∧ m'.rd F.SEQ_FAULT_ENGINE_STS c = sts ∧
  m'.station c = (if (m.station c).tx.length < 4 then { m.station c with tx := (m.station c).tx ++ [faultNotice c pc fault] }
    else { m.station c with late := (m.station c).late ++ [faultNotice c pc fault] })

/-- RESERVED_OPCODE and WAIT_TIMEOUT take the core fault of R139 and R128. -/
def Sys2Proof.Claim.SequencerFaults : Prop := ∀ (c : CoreId) (s : State),
  (∀ word : DWord, Fetches s.m c → coreWordOk word = false →
    To (.reservedOpcode c word) s ((fetched s.m c).coreFault c 1 0 0 (s.m.core c).pc)) ∧
  (∀ word : DWord, Fetches s.m c → coreWordOk word = false →
    To (.queueReservedOp c word) s ((fetched s.m c).coreFault c 1 0 0 (s.m.core c).pc)) ∧
  ((s.m.core c).st = .waiting → s.m.seqCfg c / 256 % 16 ≠ 0 →
    To (.waitTimeout c) s (s.m.coreFault c 5 0 0 (s.m.core c).pc))

/-- Taking a core fault, and the commands that do nothing else. -/
def Obligations.CoreFaults : Prop := Claim.CoreFaultEntry ∧ Claim.SequencerFaults

/-- WAIT, its end, and HALT's end (R124, R130, R137). -/
def Sys2Proof.Claim.WaitResults : Prop := ∀ (c : CoreId) (s : State),
  (∀ (a : GReg) (ev : EvId), Fetches s.m c →
    let m := fetched s.m c
    let k := s.m.core c
    let target := (k.getG a).setWidth 32
    (0 ≤ (s.m.word .SEQ_EVC c ev - target).toInt → To (.wait c a ev) s (m.retire c k)) ∧
    ((s.m.word .SEQ_EVC c ev - target).toInt < 0 → Does (.wait c a ev) s fun m' =>
      m'.core c = { k with st := .waiting, wait := some (.event ev target), lastPc := k.pc } ∧ SameMem s.m m')) ∧
  (∀ (e : Nat) (target : Word), (s.m.core c).st = .waiting → (s.m.core c).wait = some (.event e target) →
    0 ≤ (s.m.word .SEQ_EVC c e - target).toInt → Does (.waitSatisfied c) s fun m' =>
      m'.core c = { s.m.core c with st := .running, wait := none, lastPc := (s.m.core c).pc, pc := (s.m.core c).pc + 8 }) ∧
  ((s.m.core c).st = .running → (s.m.core c).halting = true → s.m.enginesIdle c = true → Does (.haltComplete c) s fun m' =>
    m'.core c = { s.m.core c with st := .halted, halting := false })

/-- The conditions of BR, and WAIT, HALT and their ends. -/
def Obligations.BranchesAndWaits : Prop := Claim.BranchResults ∧ Claim.WaitResults

/-- Issuing a descriptor (R133, R138): it joins its queue with the event counter and the fare current, and the sequencer goes on; a queue
of 8 stalls it, and the instruction is not lost. -/
def Obligations.IssueResults : Prop := ∀ (c : CoreId) (s : State) (a : GReg) (ev : EvId) (even : Bool), Fetches s.m c →
  let m := fetched s.m c
  let k := s.m.core c
  let on := if even then some ev.val else none
  let fare := s.m.rd F.SEQ_FARE_FARE c
  let d (kind : DescKind) (n : Nat) (e : Option Nat) : Desc := ⟨kind, k.group a n, e, fare⟩
  let issued (i : Instr) (q : List Desc) (k' : Core) : Prop :=
    (q.length < 8 → To i s ((m.wr F.SEQ_STS_ISSUE_STALL c 0).retire c k')) ∧
    (8 ≤ q.length → To i s (m.wr F.SEQ_STS_ISSUE_STALL c 1))
  (a.val % 2 = 0 → issued (.mpass c a ev even) k.mxq { k with mxq := k.mxq ++ [d .mpass 2 on] } ∧
    issued (.vop c a ev even) k.vxq { k with vxq := k.vxq ++ [d .vop 2 on] } ∧
    issued (.atn c a) k.vxq { k with vxq := k.vxq ++ [d .atn 2 none] }) ∧
  (a.val % 4 = 0 → issued (.dma c a ev even) k.dmq { k with dmq := k.dmq ++ [d .dma 4 on] } ∧
    issued (.bop c a ev even) k.bkq { k with bkq := k.bkq ++ [d .bop 4 on] }) ∧
  ∀ imm : Word, 1 ≤ imm.toNat → imm.toNat ≤ 3 → issued (.mcvt c a ev even imm) k.mxq
    { k with mxq := k.mxq ++ [⟨.mcvt imm.toNat, (k.getG a).toNat % 2 ^ 32, on, fare⟩] }

/-- Sends and receipts of control messages (R348 to R351). -/
def Sys2Proof.Claim.ControlResults : Prop := ∀ (c : CoreId) (s : State), Fetches s.m c →
  let m := fetched s.m c
  let k := s.m.core c
  let go := (m.wr F.SEQ_STS_ISSUE_STALL c 0).retire c k
  (∀ (a b : GReg) (imm : Word),
    let x (c0 : Bool) (pay : Option DWord) : CtlMsg := ⟨c, (k.getG a).toNat % 4096, c0, pay, imm⟩
    let sends (i : Instr) (x : CtlMsg) : Prop :=
      (s.m.station c).tx.length < 4 → s.m.undeliverable x = false → To i s (go.pushCtl c x)
    sends (.csend c a imm) (x false none) ∧ sends (.csendp c a b imm) (x false (some (k.getG b))) ∧
    sends (.csendh c a imm) (x true none) ∧ sends (.csendhp c a b imm) (x true (some (k.getG b)))) ∧
  (∀ dst : GReg, To (.ccount c dst) s (m.retire c (k.setG dst
    (BitVec.ofNat 64 ((s.m.station c).rx0.length + (s.m.station c).rx1.length * 256))))) ∧
  ∀ dst : GReg, dst.val % 2 = 0 → 2 ≤ dst.val →
    (∀ x t, (s.m.station c).rx0 = x :: t → ∀ i ∈ [Instr.crecv c dst, .cpoll c dst],
      To i s (m.takeMsg c dst k x { s.m.station c with rx0 := t })) ∧
    (∀ x t, (s.m.station c).rx0 = [] → (s.m.station c).rx1 = x :: t → ∀ i ∈ [Instr.crecv c dst, .cpoll c dst],
      To i s (m.takeMsg c dst k x { s.m.station c with rx1 := t })) ∧
    ((s.m.station c).rx0 = [] → (s.m.station c).rx1 = [] →
      To (.cpoll c dst) s (m.retire c ((k.setG dst 0).setG (dst.val + 1) 0)) ∧
      Does (.crecv c dst) s fun m' => m'.core c = { k with st := .waiting, wait := some (.message dst), lastPc := k.pc })

/-- A control message's way to its station, a message held at a link in TEST or RETRAIN or for a clock (R32, R474), a waiting receiver, and
Ostler's fault notices (R349, R351, R520). -/
def Sys2Proof.Claim.ControlArrivals : Prop := ∀ (s : State),
  (∀ (a b : CoreId) (x : CtlMsg) (c0 : Bool), (s.m.station a).tx.find? (fun y => y.c0 == c0) = some x → x.dst = b.val →
    s.m.undeliverable x = false → s.m.ctlHolds (ctlDie x.src) (ctlDie b) = false → s.m.coreAbsorbs b = false → a ≠ b →
    (if c0 then (s.m.station b).rx0 else (s.m.station b).rx1).length < 16 →
    Does (.controlMessageArrive ⟨a.val, Nat.lt_of_lt_of_le a.isLt (by decide)⟩ c0) s fun m' =>
      m'.station b = (s.m.station b).received x ∧ m'.station a = (s.m.station a).sent x) ∧
  (∀ (st : Fin 577) (x : CtlMsg) (c0 : Bool), (s.m.station st).tx.find? (fun y => y.c0 == c0) = some x →
    s.m.ctlHolds (ctlDie x.src) (ctlDie x.dst) = true → To (.controlMessageArrive st c0) s s.m) ∧
  (∀ (c : CoreId) (dst : Nat) (x : CtlMsg) (st : CtlSt), (s.m.core c).st = .waiting → (s.m.core c).wait = some (.message dst) →
    (s.m.station c).takeRx = some (x, st) → Does (.crecvResume c) s fun m' =>
      m'.core c = { (((s.m.core c).setG dst x.head).setG (dst + 1) (x.pay.getD 0)) with
        st := .running, wait := none, lastPc := (s.m.core c).pc, pc := (s.m.core c).pc + 8 } ∧ m'.station c = st) ∧
  (∀ (x : CtlMsg) (st : CtlSt) (p : PartEntry) (c : CoreId), (s.m.station 576).takeRx = some (x, st) → x.c0 = true → x.pay = none →
    x.src = c.val → x.word.toNat / 2 ^ 26 = 1 → s.m.partOf c = some p → p.num < 16 → s.m.rd F.RST_PFAULT_A_VALID 4 p.num = 0 →
    Does .faultNotice s fun m' => m'.rd F.RST_PFAULT_A_VALID 4 p.num = 1 ∧ m'.rd F.RST_PFAULT_A_CORE 4 p.num = c.val ∧
      m'.rd F.RST_PFAULT_A_CODE 4 p.num = x.word.toNat / 2 ^ 18 % 256)

/-- Sends and receipts of control messages, and what arrives at a station. -/
def Obligations.ControlMessages : Prop := Claim.ControlResults ∧ Claim.ControlArrivals

/-! ### The matrix array -/

/-- A pass at the head of the matrix queue (R148): rejected with the status of its first failing check, or taken into the array with the
tile that is there or the one its bundle loads; a pass that writes no ring has written no row yet, and one that writes a ring sets the ring's
release count to 0 (R159). -/
def Sys2Proof.Claim.MatrixPassStarts : Prop := ∀ (c : CoreId) (s : State) (d : Desc) (q : List Desc),
  (s.m.core c).mxq = d :: q → (s.m.core c).pass = none → d.kind = .mpass →
  (∀ st, s.m.mpStatus c d.bits = some st → Does (.matrixPassStart c) s fun m' =>
    (m'.core c).mxq = [] ∧ m'.rd F.MXA_STS_LAST_ERR c = st ∧ Rejects s.m m' c 0 st ∧ SameMem s.m m') ∧
  (s.m.mpStatus c d.bits = none → mpRing d.bits = false →
    (∀ t, mpLoad d.bits = false → (s.m.core c).tile = some t → Does (.matrixPassStart c) s fun m' =>
      m'.core c = { s.m.core c with mxq := q, pass := some ⟨d, 0, 0, []⟩ } ∧ SameMem s.m m') ∧
    (∀ w a kt m1 t, mpLoad d.bits = true → mpPair d.bits = some (w, a, kt) → s.m.loadTile c d.bits w kt = (m1, some t) →
      Does (.matrixPassStart c) s fun m' =>
        m'.core c = { s.m.core c with mxq := q, tile := some t, pass := some ⟨d, 0, 0, []⟩ } ∧ SameMem s.m m') ∧
    (∀ w a kt m1, mpLoad d.bits = true → mpPair d.bits = some (w, a, kt) → s.m.loadTile c d.bits w kt = (m1, none) →
      Does (.matrixPassStart c) s fun m' =>
        (m'.core c).mxq = [] ∧ m'.rd F.MXA_STS_LAST_ERR c = 2 ∧ Rejects s.m m' c 0 2 ∧ SameMem s.m m')) ∧
  (s.m.mpStatus c d.bits = none → mpRing d.bits = true → ∀ t, mpLoad d.bits = false → (s.m.core c).tile = some t →
    Does (.matrixPassStart c) s fun m' => (m'.core c).mxq = q ∧ (∃ p, (m'.core c).pass = some p ∧ p.desc = d) ∧
      m'.rd F.VEC_RRCNT_COUNT c (mpDest d.bits % 8) = 0)

/-- A pass in the array goes on: where a stalled ring row may be written and nothing holds back what it reads, the array writes it (R159, R184);
one that awaits its release is not written; and once all rows of a pass
are written it ends, its flags are posted and its event counter goes up (R161, R162). -/
def Sys2Proof.Claim.MatrixPassEnds : Prop := ∀ (c : CoreId) (s : State) (p : PassRun),
  (s.m.core c).pass = some p →
  (∀ t, (s.m.core c).tile = some t → mpRing p.desc.bits = true → (mpPair p.desc.bits).isSome → p.next < mpRows p.desc.bits →
    s.m.ringHeld c p.desc.bits p.next = false → s.m.rowHolds c p.desc p.next = none → Does (.matrixRingReleaseWaitEnd c) s fun m' =>
      ∃ p', (m'.core c).pass = some p' ∧ p'.desc = p.desc ∧ p.next < p'.next) ∧
  (mpRing p.desc.bits = true → s.m.ringHeld c p.desc.bits p.next = true → p.next < mpRows p.desc.bits →
    Does (.matrixRingReleaseWaitEnd c) s fun m' => (m'.core c).pass = some p ∧ SameMem s.m m') ∧
  (p.next = mpRows p.desc.bits → (∀ e, p.desc.ev = some e → e < 16) →
    Does (.matrixPassComplete c) s fun m' =>
      (m'.core c).pass = none ∧ (m'.core c).mxq = (s.m.core c).mxq ∧ Posts s.m m' c p.desc ∧ SameMem s.m m' ∧
      m'.word .MXA_FLAGS c 0 = s.m.word .MXA_FLAGS c 0 ||| p.flags.setWidth 32)

/-- A matrix pass from the head of its queue to its completion. -/
def Obligations.MatrixPasses : Prop := Claim.MatrixPassStarts ∧ Claim.MatrixPassEnds

/-- An MCVT at the head of the matrix queue (R149): its word becomes MXA_CVTn and its event counter goes up, or it is rejected as
unsupported. -/
def Sys2Proof.Claim.MatrixConversion : Prop := ∀ (c : CoreId) (s : State) (d : Desc) (q : List Desc) (n : Nat),
  (s.m.core c).mxq = d :: q → (s.m.core c).pass = none → d.kind = .mcvt n → 1 ≤ n → n ≤ 3 → (∀ e, d.ev = some e → e < 16) →
  let w := BitVec.ofNat 32 d.bits
  (cvtOk w = true → (cvtTarget w).blockScaled = false → Does (.mcvtApply c) s fun m' =>
    m'.core c = { s.m.core c with mxq := q } ∧ m'.word .MXA_CVT c (n - 1) = w ∧ Posts s.m m' c d ∧ SameMem s.m m' ∧
    SameRegs s.m m' [(.MXA_CVT, c.val), (.SEQ_EVC, c.val), (.FBK_LOST, coreDie c)]) ∧
  (cvtOk w = false ∨ (cvtTarget w).blockScaled = true → Does (.mcvtApply c) s fun m' =>
    (m'.core c).mxq = [] ∧ m'.rd F.MXA_STS_LAST_ERR c = 1 ∧ Rejects s.m m' c 0 1 ∧ SameMem s.m m')

/-- Integer arithmetic of the engines is exact and clamps once: a column of an INT8 pass without sidecar is the dot product of its weights
and activations (R99, R102), and the lanes of an INT vector operation give the clamped result and SATURATION alone (R173, R176). -/
def Sys2Proof.Claim.IntegerArithmetic : Prop :=
  (∀ (t : Tile) (j : Nat) (w x : Nat → Int), t.side = [] →
    (∀ i, i < 64 → t.weight j i = .fin (Dy.ofInt (w i)) ∧ -128 ≤ w i ∧ w i ≤ 127 ∧ -128 ≤ x i ∧ x i ≤ 127) →
    let r := columnSum t .int8 64 (fun i => .fin (Dy.ofInt (x i))) (fun _ => .nan) j
    r.v = .fin (Dy.ofInt (((List.range 64).map fun i => w i * x i).sum)) ∧ r.fl = 0 ∧ r.clamps = 0) ∧
  ∀ (a b : Word) (z : Val),
    let gives (r : Word × Flags) (i : Int) : Prop :=
      r = if i < -(2 ^ 31) then (0x8000_0000, Flags.saturation) else if 2 ^ 31 ≤ i then (0x7FFF_FFFF, Flags.saturation)
        else (BitVec.ofInt 32 i, Flags.none)
    let lane (op : Nat) := vLane op true (laneVal true a) (laneVal true b) z
    gives (lane 0x00) a.toInt ∧ gives (lane 0x01) (a.toInt + b.toInt) ∧ gives (lane 0x02) (a.toInt - b.toInt) ∧
    gives (lane 0x03) (a.toInt * b.toInt) ∧ gives (lane 0x05) (max a.toInt b.toInt) ∧ gives (lane 0x06) (min a.toInt b.toInt) ∧
    gives (lane 0x07) a.toInt.natAbs ∧ gives (lane 0x08) (-a.toInt)

/-- MCVT, and the exact integer arithmetic of the engines. -/
def Obligations.ConversionsAndIntegers : Prop := Claim.MatrixConversion ∧ Claim.IntegerArithmetic

/-! ### The vector engine and attention -/

/-- The vector operations that read rows, by code (R173). -/
def Sys2Proof.Claim.vecCommands (c : CoreId) : List (Nat × Instr) :=
  [(0x00, .vecCopy c), (0x01, .vecAdd c), (0x02, .vecSub c), (0x03, .vecMul c), (0x04, .vecFma c), (0x05, .vecMax c), (0x06, .vecMin c),
    (0x07, .vecAbs c), (0x08, .vecNeg c), (0x09, .rcp c), (0x0A, .rsqrt c), (0x0B, .exp2 c), (0x0C, .expsub c), (0x0D, .sigmoid c),
    (0x0E, .silu c), (0x10, .rowmax c), (0x11, .rowsum c), (0x12, .rowssq c), (0x18, .cmplt c), (0x19, .cmple c), (0x1A, .cmpeq c),
    (0x1B, .cmpne c)]

/-- A vector descriptor at the head of its queue (R173, R193): rejected with the status of its first failing check, or it leaves the
queue, and where it reads no ring all its rows are executed. -/
def Sys2Proof.Claim.VectorStarts : Prop := ∀ (c : CoreId) (s : State) (d : Desc) (q : List Desc) (op : Nat) (i : Instr),
  (op, i) ∈ vecCommands c → (s.m.core c).vxq = d :: q → (s.m.core c).vec = none → d.kind = .vop → vOp d.bits = op →
  (∀ st, s.m.vStatus c d.bits = some st → Does i s fun m' =>
    (m'.core c).vxq = [] ∧ (m'.core c).vec = none ∧ m'.rd F.VEC_STS_LAST_ERR c = st ∧ Rejects s.m m' c 1 st ∧ SameMem s.m m') ∧
  (s.m.vStatus c d.bits = none → vRing d.bits = false → Does i s fun m' =>
    ∃ v, (m'.core c).vec = some v ∧ v.desc = d ∧ v.next = vRows d.bits ∧ v.waiting = false ∧ (m'.core c).vxq = q)

/-- What a row of an element-wise operation writes (R169, R173): with every lane active, no conversion and no poisoned operand, lane l of the
destination row is the operation on lane l of the operands; FMA's third operand is what lane l of the destination row held. -/
def Obligations.VectorRowResults : Prop := ∀ (c : CoreId) (m : Module) (v : VecRun) (r l : Nat) (a b : List Lane),
  let d := v.desc.bits
  let at' := scrKey c (vDaddr d + r * m.vDpitchBytes c d + 4 * l)
  (vKind (vOp d) = some .unary ∨ vKind (vOp d) = some .binary) → bitsAt d 7 3 = 0 → vCvt d = 0 → vRing d = false →
  l < 64 → a.length = 64 → (∀ x ∈ a ++ b, x.bad = false) →
  (vOp d = 0x04 → m.wordBad (at' / 64) = false) →
  (m.vOperand c d (vAmode d) (vAaddr d) (vApitch d) r none).2 = a →
  ((m.vOperand c d (vAmode d) (vAaddr d) (vApitch d) r none).1.vOperand c d (vBmode d) (vBaddr d) (vBpitch d) r none).2 = b →
  (m.vecRow c v r).1.num at' 4 =
    (vLane (vOp d) (vInt d) ((a.getD l ⟨.nan, 0, false⟩).v) ((b.getD l ⟨.fin (Dy.zero false), 0, false⟩).v)
      (Val.ofFp32 (BitVec.ofNat 32 (m.num at' 4)))).1.toNat

/-- The control operations (R190): each leaves the queue and sets what it names. -/
def Sys2Proof.Claim.VectorControl : Prop := ∀ (c : CoreId) (s : State) (d : Desc) (q : List Desc),
  (s.m.core c).vxq = d :: q → (s.m.core c).vec = none → d.kind = .vop → s.m.vStatus c d.bits = none →
  let b := d.bits
  let m := s.m.setCore c { s.m.core c with vxq := q, vec := some ⟨d, 1, 0, false, 0, 0, 0, [], none⟩ }
  let mask (k : Nat) (w : DWord) (m' : Module) : Prop :=
    m'.core c = m.core c ∧ m'.word .VEC_MASK_LO c k = w.setWidth 32 ∧ m'.word .VEC_MASK_HI c k = (w >>> 32).setWidth 32 ∧
    SameMem s.m m' ∧ SameRegs s.m m' [(.VEC_MASK_LO, c.val), (.VEC_MASK_HI, c.val)]
  let M (k : Nat) : DWord := if k = 0 then -1 else s.m.word .VEC_MASK_HI c k ++ s.m.word .VEC_MASK_LO c k
  (vOp b = 0x30 → Does (.setcvt c) s fun m' => m'.core c = m.core c ∧
    m'.word .VEC_CVT c (bitsAt b 32 2 - 1) = BitVec.ofNat 32 (bitsAt b 64 32) ∧
    m'.rd F.VEC_SDST_SDST c (bitsAt b 32 2 - 1) = bitsAt b 96 21 ∧ SameMem s.m m' ∧ SameRegs s.m m' [(.VEC_CVT, c.val), (.VEC_SDST, c.val)]) ∧
  (vOp b = 0x31 → Does (.setmask c) s (mask (bitsAt b 32 3) (BitVec.ofNat 64 (bitsAt b 64 64)))) ∧
  (vOp b = 0x32 → Does (.maskop c) s (mask (bitsAt b 32 3)
    (let x := M (bitsAt b 35 3)
     let y := M (bitsAt b 38 3)
     match bitsAt b 41 2 with | 0 => x &&& y | 1 => x ||| y | 2 => x &&& ~~~y | _ => x ^^^ y))) ∧
  (vOp b = 0x33 → Does (.fmask c) s fun m' => m'.core c = m.core c ∧ SameMem s.m m' ∧
    ∀ l, l < 64 → Nat.testBit (m'.mask c (bitsAt b 32 3)) l = decide (s.m.laneFlags c (bitsAt b 35 3) l &&& bitsAt b 38 5 ≠ 0)) ∧
  (vOp b = 0x34 → Does (.fclr c) s fun m' => m'.core c = m.core c ∧ SameMem s.m m' ∧ ∀ k l, k < 6 → l < 64 →
    m'.laneFlags c k l = if bitOf b (32 + k) then s.m.laneFlags c k l &&& (31 - bitsAt b 38 5) else s.m.laneFlags c k l) ∧
  (vOp b = 0x35 → To (.fstore c) s (m.put (scrKey c (bitsAt b 44 20 * 4))
    (((List.range 64).map fun l => leBytes 4 (s.m.laneFlags c (bitsAt b 32 3) l)).flatten))) ∧
  (vOp b = 0x36 → Does (.monclr c) s fun m' => m'.core c = m.core c ∧ SameMem s.m m' ∧ SameRegs s.m m' [(.VEC_MON, c.val)] ∧ ∀ k, k < 16 →
    if bitOf b (32 + k) then m'.word .VEC_MON c (4 * k) = 0 ∧ m'.word .VEC_MON c (4 * k + 1) = 0x7F80_0000 ∧
      m'.word .VEC_MON c (4 * k + 2) = 0 ∧ m'.word .VEC_MON c (4 * k + 3) = 0
    else ∀ j, j < 4 → m'.word .VEC_MON c (4 * k + j) = s.m.word .VEC_MON c (4 * k + j)) ∧
  (vOp b = 0x37 → To (.monrd c) s (m.put (scrKey c (bitsAt b 44 20 * 4))
    (((List.range 64).map fun i => leBytes 4 (s.m.word .VEC_MON c i).toNat).flatten)))

/-- What ends or moves a vector descriptor (R185, R186, R191, R193): completion posts flags, mask and event counter; a reserved operation
is rejected; a waiting ring read goes on when its row is written, and ends RING_SHORT where it never can be. -/
def Sys2Proof.Claim.VectorEnds : Prop := ∀ (c : CoreId) (s : State),
  (∀ v, (s.m.core c).vec = some v → (v.next = vRows v.desc.bits ∨ v.desc.kind = .atn ∨ vKind (vOp v.desc.bits) = some .control) →
    (∀ e, v.desc.ev = some e → e < 16) → (∀ k w, v.mask = some (k, w) → k < 8) → Does (.vecDescComplete c) s fun m' =>
      m'.core c = { s.m.core c with vec := none } ∧ Posts s.m m' c v.desc ∧ SameMem s.m m' ∧
      m'.word .VEC_FLAGS c 0 = s.m.word .VEC_FLAGS c 0 ||| v.flags.setWidth 32 ∧
      ∀ k w, v.mask = some (k, w) → m'.word .VEC_MASK_LO c k = w.setWidth 32 ∧ m'.word .VEC_MASK_HI c k = (w >>> 32).setWidth 32) ∧
  (∀ d q, (s.m.core c).vxq = d :: q → (s.m.core c).vec = none →
    (d.kind = .vop → vKind (vOp d.bits) = none → Does (.vecReservedOp c) s fun m' =>
      (m'.core c).vxq = [] ∧ m'.rd F.VEC_STS_LAST_ERR c = 3 ∧ Rejects s.m m' c 1 3 ∧ SameMem s.m m') ∧
    (d.kind = .atn → 4 ≤ aOp d.bits → Does (.vecReservedOp c) s fun m' =>
      (m'.core c).vxq = [] ∧ m'.rd F.ATN_STS_LAST_ERR c = 3 ∧ Rejects s.m m' c 4 3 ∧ SameMem s.m m')) ∧
  (∀ v, (s.m.core c).vec = some v → v.waiting = true → v.next < vRows v.desc.bits →
    (s.m.ringReady c v = true → Does (.vecRingRowReady c) s fun m' =>
      ∃ v', (m'.core c).vec = some v' ∧ v'.desc = v.desc ∧ v.next < v'.next) ∧
    (∀ k, s.m.ringReady c v = false → tileOf (vAaddr v.desc.bits) = some k → (s.m.core c).ringPending k = false →
      Does (.ringShort c) s fun m' => (m'.core c).vec = none ∧ (m'.core c).vxq = [] ∧ m'.rd F.VEC_STS_LAST_ERR c = 6 ∧
        Rejects s.m m' c 1 6 ∧ SameMem s.m m'))

/-- A vector descriptor from the head of its queue to its end, the control operations among them. -/
def Obligations.VectorPrograms : Prop := Claim.VectorStarts ∧ Claim.VectorControl ∧ Claim.VectorEnds

/-- An attention descriptor at the head of the vector queue (R202, R203, R207): rejected with the status of its first failing check, or
executed, and waits for its completion; no other core changes. -/
def Sys2Proof.Claim.AttentionStarts : Prop := ∀ (c : CoreId) (s : State) (d : Desc) (q : List Desc) (op : Nat) (i : Instr),
  (op, i) ∈ [(0, Instr.atnInit c), (1, .atnRescale c), (2, .atnMerge c), (3, .atnFinish c)] →
  (s.m.core c).vxq = d :: q → (s.m.core c).vec = none → d.kind = .atn → aOp d.bits = op →
  (∀ st, s.m.aStatus c d.bits = some st → Does i s fun m' =>
    (m'.core c).vxq = [] ∧ m'.rd F.ATN_STS_LAST_ERR c = st ∧ Rejects s.m m' c 4 st ∧ SameMem s.m m') ∧
  (s.m.aStatus c d.bits = none → Does i s fun m' =>
    (∃ v, (m'.core c).vec = some v ∧ v.desc = d) ∧ (m'.core c).vxq = q ∧ SameCores s.m m' c)

/-- The first row of an attention state (R202): INIT of a state of one row and 64 elements in scratch leaves m at −infinity, l at 0 and O
at 0; RESCALE to a maximum below the old one leaves memory as it was. -/
def Sys2Proof.Claim.AttentionRows : Prop := ∀ (c : CoreId) (m : Module) (d : Nat) (v : VecRun), aW d = 1 →
  (aScratch d = true → aS d + 512 ≤ aO d ∨ aO d + 256 ≤ aS d →
    let m' := (m.initRow c d 0 v).1
    m'.num (scrKey c (aS d)) 4 = 0xFF80_0000 ∧ m'.num (scrKey c (aS d + 256)) 4 = 0 ∧
      ∀ j, j < 64 → m'.num (scrKey c (aO d + 4 * j)) 4 = 0) ∧
  (∀ r, (m.fpAt (aS d + 4 * r) c).isNan = false → (m.fpAt (aN d + 4 * r) c).isNan = false →
    Val.cmp 0 (m.fpAt (aN d + 4 * r) c) (m.fpAt (aS d + 4 * r) c) = true → Val.cmp 0 (m.fpAt (aS d + 4 * r) c) (m.fpAt (aN d + 4 * r) c) = false →
    (m.rescaleRow c d r v).1 = m ∧ (m.rescaleRow c d r v).2.flags = v.flags ||| Flags.invalid)

/-- An attention descriptor at the head of its queue, and what INIT and RESCALE do to a row. -/
def Obligations.AttentionPasses : Prop := Claim.AttentionStarts ∧ Claim.AttentionRows

/-! ### The DMA engine, billet tables and the relay -/

/-- The DMA operations by code (R221). -/
def Sys2Proof.Claim.dmaCommands (c : CoreId) : List (Nat × Instr) :=
  [(0, .dmaCopy c), (1, .tcopy c), (2, .gather c), (3, .append c), (4, .share c), (5, .release c), (6, .rsend c), (7, .rwait c), (8, .rfree c)]

/-- A DMA descriptor at the head of its queue (R221, R229): rejected with the status of its first failing check, which KVD_STS keeps,
or it leaves the queue and is in progress. While nothing makes an access wait, the core's traffic is not regulated and the companion, whose
answers take time, is not UP, the operations that end within the module are done, and those of the fabric wait for their answers or are done. A
TCOPY that writes registers may change what they change. A reserved operation is rejected. That a descriptor which ends within the module does
all its accesses in one step, and waits whole, is the model's choice (log entry 91). -/
def Sys2Proof.Claim.DmaStarts : Prop := ∀ (c : CoreId) (s : State) (d : Desc) (q : List Desc),
  (s.m.core c).dmq = d :: q → (s.m.core c).dma = none →
  (∀ op i, (op, i) ∈ dmaCommands c → dOp d.bits = op →
    let memory := op ≠ 1 ∨ dDst d.bits < 0x3000_0000_0000
    (∀ st, s.m.dStatus c d.bits = some st → Does i s fun m' => (m'.core c).dmq = [] ∧ m'.rd F.KVD_STS_LAST_STS c = st ∧
      m'.rd F.KVD_STS_LAST_OP c = op ∧ m'.rd F.KVD_DETAIL_DETAIL c = 0 ∧ Rejects s.m m' c 2 st ∧ SameMem s.m m') ∧
    (s.m.dStatus c d.bits = none → Does i s fun m' =>
      (memory → (m'.core c).dmq = q ∧ SameCores s.m m' c) ∧
      ∃ r, (m'.core c).dma = some r ∧ r.desc = d ∧
        (Quiet s.m → Unregulated s.m c → s.m.companionUp = false →
          (memory → (1 ≤ op ∧ op ≤ 5 ∨ op = 8 ∨ (op = 0 ∧ dRemote d.bits = false) → r.phase = .done)) ∧
          (op = 0 ∧ dRemote d.bits = true → r.phase ∈ [DmaPhase.payload, .done]) ∧
          (op = 6 → r.phase ∈ [DmaPhase.header, .done]) ∧ (op = 7 → r.phase ∈ [DmaPhase.polling, .done])))) ∧
  (8 < dOp d.bits → Does (.dmaReservedOp c) s fun m' => (m'.core c).dmq = [] ∧ m'.rd F.KVD_STS_LAST_STS c = 3 ∧
    Rejects s.m m' c 2 3 ∧ SameMem s.m m')

/-- COPY within the module (R223): each byte of the destination is the byte of the source, and no byte outside it changes. Here source and
destination lie in one page of memory each, no multicast rule is in force, no access has to wait, the core's traffic is not regulated and no line
read is poisoned. -/
def Obligations.DmaCopyResults : Prop := ∀ (c : CoreId) (s : State) (d : Desc) (q : List Desc) (x y : Site) (a b : Nat),
  let n := dN d.bits
  (s.m.core c).dmq = d :: q → (s.m.core c).dma = none → dOp d.bits = 0 → dRemote d.bits = false → s.m.dStatus c d.bits = none →
  s.m.plat.rules = [] → Quiet s.m → Unregulated s.m c → dSrc d.bits % 4096 + n ≤ 4096 → dDst d.bits % 4096 + n ≤ 4096 →
  s.m.gate c (dSrc d.bits) n Right.read = .ok x → s.m.gate c (dDst d.bits) n Right.write = .ok y → x.key = some a → y.key = some b →
  ReadsWell s.m a n →
  Does (.dmaCopy c) s fun m' => (∀ k, k < n → m'.byte (b + k) = s.m.byte (a + k)) ∧
    (∀ k, k < b ∨ b + n ≤ k → m'.byte k = s.m.byte k) ∧
    ∃ r, (m'.core c).dma = some r ∧ r.phase = .done ∧ r.status = 0

/-- The end of a DMA descriptor (R222): its result word lies at its event counter's place in scratch, no other byte changes, the counter
goes up, and a status other than OK is kept in KVD_STS. -/
def Sys2Proof.Claim.DmaCompletes : Prop := ∀ (c : CoreId) (s : State) (r : DmaRun), (s.m.core c).dma = some r → r.phase = .done →
  r.status < 256 → (∀ e, r.desc.ev = some e → e < 16) → Does (.dmaDescComplete c) s fun m' =>
    m'.core c = { s.m.core c with dma := none } ∧ Posts s.m m' c r.desc ∧
    (∀ e, r.desc.ev = some e →
      m'.num (scrKey c (0x17_FF80 + 8 * e)) 8 = r.status + dOp r.desc.bits * 256 + r.detail % 2 ^ 32 * 2 ^ 32 ∧
      ∀ k, k < scrKey c (0x17_FF80 + 8 * e) ∨ scrKey c (0x17_FF80 + 8 * e) + 8 ≤ k → m'.byte k = s.m.byte k) ∧
    (r.desc.ev = none → SameMem s.m m') ∧
    (r.status ≠ 0 → m'.rd F.KVD_STS_LAST_STS c = r.status ∧ m'.rd F.KVD_STS_LAST_OP c = dOp r.desc.bits ∧
      m'.rd F.KVD_DETAIL_DETAIL c = r.detail % 2 ^ 32)

/-- A DMA descriptor's start and completion. -/
def Obligations.DmaDescriptors : Prop := Claim.DmaStarts ∧ Claim.DmaCompletes

/-- The steps of RSEND and RWAIT (R233, R235), each of which waits for the core's tokens (R362): a slot found FULL is read again, the header is
written once the payload has arrived, an RWAIT ends on its block, polls on while the slot holds none for it, and a slot that stays as it is
ends the descriptor RING_TIMEOUT with the STATE found. -/
def Sys2Proof.Claim.RingSteps : Prop := ∀ (c : CoreId) (s : State) (r : DmaRun), (s.m.core c).dma = some r →
  let d := r.desc.bits
  let f := sendDma c r.desc (s.m.ringPort c)
  (r.phase = .full → ∀ m1, s.m.readHeader f (dUnit d) (dDst d) = (m1, 0) →
    Lets (.rsendPoll c) s c (m1.setDma c { r with phase := .header, outstanding := 1 })) ∧
  (r.phase = .ready → ∀ m1 l x m2, s.m.readSpan f.q 3 (dSrc d) 64 = (m1, St.ok, l, []) → m1.ringOf c = some x →
    let m3 := (m1.kvdPoison c 0).forget c
    ((m3.count c 19 64).count c 21 64).fabReq f .seal (dUnit d) (dDst d) 0x09 64 (m3.sealHeader c x.index (dN d) l) [false] = (m2, 0) →
    Lets (.rsendHeaderWrite c) s c (m2.setDma c { r with phase := .sealing, outstanding := 1 })) ∧
  (r.phase = .polling → ∀ m1 l x, s.m.readSpan (askDma c r.desc.fare) 3 (dSrc d) 64 = (m1, St.ok, l, []) → s.m.ringOf c = some x →
    s.m.tokensFor m1 c = true →
    let full := headNum l 0 4 = ringMagic ∧ headNum l 4 1 = 1 ∧ headNum l 6 1 = x.index
    (full → headNum l 8 4 = dN d → Does (.rwaitPoll c) s fun m' =>
      (m'.core c).dma = some { r with phase := .done, seen := 1 } ∧ SameBytes s.m m') ∧
    (full → headNum l 8 4 ≠ dN d → Does (.rwaitPoll c) s fun m' =>
      (m'.core c).dma = some { r with phase := .done, status := 0x10, detail := headNum l 8 4, seen := 1 } ∧ SameBytes s.m m') ∧
    (¬full → Does (.rwaitPoll c) s fun m' =>
      (m'.core c).dma = some { r with phase := .polling, seen := headNum l 4 1 } ∧ SameBytes s.m m')) ∧
  (r.phase = .polling ∨ r.phase = .full →
    To (.ringTimeout c) s (s.m.setCore c { s.m.core c with dma := some { r with phase := .done, status := 0x0F, detail := r.seen } }))

/-- The relay (R239): while the survey check passes (R231), a FULL local slot, the one after the last forwarded first, starts the read of the next
module's slot header; a block longer than a slot stops the relay; a block that has been forwarded frees its slot and is counted. Each step waits
for the core's tokens (R362). -/
def Sys2Proof.Claim.RelayForwards : Prop := ∀ (c : CoreId) (s : State),
  let k := (s.m.core c).relayNext
  (∀ size land next m0 l, s.m.relayOk c = true → (s.m.core c).relay = none → s.m.relaySlot c k = (size, land, next) →
    s.m.relayLook c land = (m0, St.ok, l, false) → s.m.surveyOk = true →
    let full := headNum l 0 4 = ringMagic ∧ headNum l 4 1 = 1
    (full → size < headNum l 0x24 4 + 64 → Lets (.relayForward c) s c (m0.wr F.ATN_STS_RELAY_ERR c 1)) ∧
    (∀ m1, full → headNum l 0x24 4 + 64 ≤ size → m0.readHeader (m0.sendRelay c) (m0.ringUnit c) next = (m1, 0) →
      Lets (.relayForward c) s c (m1.setRelay c (some ⟨k, land, next, .header, 1, false⟩))) ∧
    (¬full → Lets (.relayForward c) s c (m0.relayTry c (1 - k)).1)) ∧
  ∀ r m1, (s.m.core c).relay = some r → r.phase = .done →
    s.m.writeSpan (askRelay c) (fun _ => false) 2 (r.land + 4) [0] = (m1, St.ok) → s.m.tokensFor m1 c = true →
    Does (.relayForward c) s fun m' =>
      (m'.core c).relay = none ∧ (m'.core c).relayNext = 1 - r.slot ∧ SameMem m1 m' ∧
      m'.rd F.ATN_RELAY_CNT_COUNT c = min (2 ^ 32 - 1) (m1.rd F.ATN_RELAY_CNT_COUNT c + 1)

/-- The steps of a ring operation and the forwarding of a relay. -/
def Obligations.RingsAndRelays : Prop := Claim.RingSteps ∧ Claim.RelayForwards

/-- Table requests on a billet table that lies in a far device (R212, R214): a pop takes the head of the free list, or counts the failure
where too few are free; an increment adds to a count; a decrement takes from it, and a billet that reaches 0 becomes the head of the
free list. -/
def Obligations.TableRequests : Prop := ∀ (c : CoreId) (s : State) (p : PoolEntry) (j o b : Nat),
  s.m.poolOf c = some p → p.table % 64 = 0 → Quiet s.m → Unregulated s.m c → s.m.poison = [] → b < p.count → p.count ≤ 2 ^ 32 →
  (∀ x n r, r ∈ [Right.read, Right.write] → p.table ≤ x → x + n ≤ p.table + 64 + 8 * p.count → 0 < n →
    s.m.gate c x n r = .ok (.far j (x - p.table + o))) →
  let T := farKey j o
  let E (b : Nat) := T + 64 + 8 * b
  let free := s.m.num (T + 8) 4
  let head := s.m.num (T + 0xC) 4
  (1 ≤ free → head = b → Does (.tablePop c 1) s fun m' =>
    m'.num (T + 8) 4 = free - 1 ∧ m'.num (T + 0xC) 4 = s.m.num (E b + 4) 4 ∧ m'.num (E b) 2 = 1 ∧
      ∀ k, k < T ∨ E p.count ≤ k → m'.byte k = s.m.byte k) ∧
  (∀ k, free < k → Does (.tablePop c k) s fun m' =>
    m'.num (T + 0x14) 4 = min 0xFFFF_FFFF (s.m.num (T + 0x14) 4 + 1) ∧ m'.num (T + 8) 4 = free ∧ m'.num (T + 0xC) 4 = head) ∧
  (s.m.num (E b) 2 < 65535 → Does (.tableIncref c [b]) s fun m' => m'.num (E b) 2 = s.m.num (E b) 2 + 1 ∧
    ∀ k, k < E b ∨ E b + 2 ≤ k → m'.byte k = s.m.byte k) ∧
  (2 ≤ s.m.num (E b) 2 → Does (.tableDecref c [b]) s fun m' => m'.num (E b) 2 = s.m.num (E b) 2 - 1 ∧
    ∀ k, k < E b ∨ E b + 2 ≤ k → m'.byte k = s.m.byte k) ∧
  (s.m.num (E b) 2 = 1 → free < 2 ^ 32 - 1 → Does (.tableDecref c [b]) s fun m' => m'.num (E b) 2 = 0 ∧
    m'.num (E b + 4) 4 = head ∧ m'.num (T + 0xC) 4 = b ∧ m'.num (T + 8) 4 = free + 1)

/-! ### Bank operations, refresh and codes -/

/-- The bank operations by code (R261). -/
def Sys2Proof.Claim.bankCommands (c : CoreId) : List (Nat × Instr) :=
  [(0, .bopFill c), (1, .bopCopy c), (2, .bopAdd c), (3, .bopSub c), (4, .bopMul c), (5, .bopFma c), (6, .axpy c), (7, .affine c),
    (8, .act c), (9, .loadtab c)]

/-- A bank-operation descriptor that its slice's controller takes (R269, R272, R279; that the core's own controller takes one which names a slice
that is no lodger of its, and rejects it: log entry 108): rejected with the status of its first failing check,
or in progress at the slice, cleaning first, with no page done; no byte of memory changes yet. A reserved operation is rejected. -/
def Sys2Proof.Claim.BankStarts : Prop := ∀ (c : CoreId) (s : State) (d : Desc) (q : List Desc),
  let t := s.m.bCtl c d.bits
  (s.m.core c).bkq = d :: q → (s.m.slice t).bop = none → s.m.bopGrant t = some (corePlace c) → t < 576 →
  (∀ op i, (op, i) ∈ bankCommands c → bOp d.bits = op →
    (∀ st, s.m.bStatus c d.bits = some st → Does i s fun m' => (m'.core c).bkq = [] ∧ m'.rd F.BNK_STS_LAST_ERR t = st ∧
      (m'.slice t).bop = none ∧ Rejects s.m m' c 3 st ∧ SameMem s.m m') ∧
    (s.m.bStatus c d.bits = none → Does i s fun m' => m'.core c = { s.m.core c with bkq := q } ∧ SameCores s.m m' c ∧ SameMem s.m m' ∧
      m'.rd F.BNK_STS_ISSUER t = corePlace c ∧ m'.rd F.BNK_PROGRESS_PAGES t = 0 ∧ (m'.slice t).ptr = (corePlace c + 1) % 4 ∧
      ∃ b, (m'.slice t).bop = some b ∧ b.desc = d ∧ b.issuer = c ∧ b.cleaning = true ∧ b.done = [] ∧ b.flags = 0)) ∧
  (10 ≤ bOp d.bits → Does (.bopReservedOp c) s fun m' => (m'.core c).bkq = [] ∧ m'.rd F.BNK_STS_LAST_ERR t = 3 ∧
    Rejects s.m m' c 3 3 ∧ SameMem s.m m')

/-- The steps of a bank operation (R272): where the write of no line has to wait, the clean writes back and drops every line in its ranges and
no other; the end of a bank's page
step moves the bank to its next page and counts the page; a FILL with 0 fills the page with zeros, which is pending from then on (R256). -/
def Sys2Proof.Claim.BankSteps : Prop := ∀ (t : CoreId) (s : State) (b : BopRun), (s.m.slice t).bop = some b →
  let mine (l : Line) : Bool := (bopRanges b.desc.bits).any fun (first, n) =>
    decide (first ≤ wordPage l.word) && decide (wordPage l.word < first + n)
  (b.cleaning = true → (∀ w, s.m.bankHolds (s.m.ranOf { src := t, key := 8192 + t }) w = none) → Does (.bopCleanDone t) s fun m' => SameBytes s.m m' ∧ SameCores s.m m' 576 ∧
    m'.slice t = { (s.m.slice t).dropLines mine with bop := some { b with cleaning := false } } ∧
    ∀ w l, (m'.slice t).lineOf w = some l → mine l = false) ∧
  (∀ bank : BankId, b.cleaning = false → b.abandoned = false → bank.val ∈ b.stepping → (s.m.slice t).held = [] →
    Does (.pageStepEnd t bank) s fun m' =>
      (∃ b', (m'.slice t).bop = some b' ∧ b'.desc = b.desc ∧ Tbl.get 0 b'.done bank = Tbl.get 0 b.done bank + 1) ∧
      m'.rd F.BNK_PROGRESS_PAGES t = (s.m.rd F.BNK_PROGRESS_PAGES t + 1) % 2 ^ 19 ∧
      (∀ i, bOp b.desc.bits = 0 → bDfmt b.desc.bits = 0 → bT b.desc.bits = 0 →
        (bopBankPages b.desc.bits bank).getD (Tbl.get 0 b.done bank) 0 = i →
        let k := nearKey t ((bDpage b.desc.bits + i) * 4096)
        (∀ j, j < 4096 → m'.byte (k + j) = 0) ∧ (∀ a, a < k ∨ k + 4096 ≤ a → m'.byte a = s.m.byte a) ∧
          m'.pagePending t (bDpage b.desc.bits + i) = true))

/-- What page i of a bank operation on FP32 ranges writes (R261, R264): element j of the page of D is the operation on element j of the
pages of A and B, of D for FMA, and on S and T; here no word that it reads is poisoned. No byte outside the page changes. -/
def Sys2Proof.Claim.BankPageResults : Prop := ∀ (t k i j : Nat) (m : Module) (b : BopRun),
  let d := b.desc.bits
  let page (p : Nat) := nearKey t ((p + i) * 4096)
  let el (p : Nat) : Val := Val.ofFp32 (BitVec.ofNat 32 (m.num (page p + 4 * j) 4))
  let zero : Val := .fin (Dy.zero false)
  bOp d ≤ 8 → bAfmt d = 0 → bBfmt d = 0 → bDfmt d = 0 → j < 1024 →
  (∀ p w, p ∈ [bApage d, bBpage d, bDpage d] → w ∈ wordsOf (page p) 4096 → m.wordBad w = false) →
  let m' := (m.bopPage t b k i).1
  m'.num (page (bDpage d) + 4 * j) 4 = (bLane (bOp d) (Tbl.get [] (m.slice t).slots (bTslot d)) (Val.ofFp32 (bS d)) (Val.ofFp32 (bT d))
      (if 1 ≤ bOp d then el (bApage d) else zero) (if 2 ≤ bOp d ∧ bOp d ≤ 6 then el (bBpage d) else zero)
      (if bOp d = 5 then el (bDpage d) else zero)).1.toNat ∧
    ∀ a, a < page (bDpage d) ∨ page (bDpage d) + 4096 ≤ a → m'.byte a = m.byte a

/-- The end of a bank operation (R272, R273): once every page step has ended, the slice is free, the result word lies at the issuer's event
counter's place, and the counter goes up; a LOADTAB whose table is not valid ends as a rejection. -/
def Sys2Proof.Claim.BankCompletes : Prop := ∀ (t : CoreId) (s : State) (b : BopRun) (c : CoreId), (s.m.slice t).bop = some b →
  b.issuer = c → b.cleaning = false → b.abandoned = false → b.stepping = [] → (∀ e, b.desc.ev = some e → e < 16) →
  (b.status = 0 → Does (.bopComplete t) s fun m' => (m'.slice t).bop = none ∧ Posts s.m m' c b.desc ∧
    (b.desc.ev = none → SameMem s.m m') ∧
    ∀ e, b.desc.ev = some e → m'.num (scrKey c (0x17_FF00 + 8 * e)) 8 = b.flags.toNat * 256 + b.bad % 2 ^ 32 * 2 ^ 32 ∧
      ∀ k, k < scrKey c (0x17_FF00 + 8 * e) ∨ scrKey c (0x17_FF00 + 8 * e) + 8 ≤ k → m'.byte k = s.m.byte k) ∧
  (0 < b.status → b.status < 256 → Does (.bopComplete t) s fun m' => (m'.slice t).bop = none ∧ (m'.core c).bkq = [] ∧
    Rejects s.m m' c 3 b.status ∧ SameMem s.m m')

/-- A bank program from its queue through its steps to its completion. -/
def Obligations.BankPrograms : Prop := Claim.BankStarts ∧ Claim.BankSteps ∧ Claim.BankPageResults ∧ Claim.BankCompletes

/-- Refresh and page codes (R252, R253, R256): a bank of a live slice refreshes now, or after the page step under way; one of a slice that
is not live does not; recomputing a pending page's code leaves a good check word, clears the
page's mark and is counted. -/
def Sys2Proof.Claim.RefreshAndCodes : Prop := ∀ (t : CoreId) (s : State),
  (∀ bank : BankId,
    (s.m.sliceLive t = false → To (.refresh t bank) s s.m) ∧
    (s.m.sliceLive t = true → (s.m.slice t).stepIn bank = false → Does (.refresh t bank) s fun m' => SameMem s.m m' ∧
      Tbl.get 0 (m'.slice t).refreshAt bank = s.m.datumOf (coreDie t) ∧ bank.val ∉ (m'.slice t).refreshWait) ∧
    (s.m.sliceLive t = true → (s.m.slice t).stepIn bank = true → Does (.refresh t bank) s fun m' => SameMem s.m m' ∧
      (m'.slice t).refreshAt = (s.m.slice t).refreshAt ∧ bank.val ∈ (m'.slice t).refreshWait)) ∧
  ∀ page : Fin 327680, s.m.pagePending t page = true → Does (.pageRecompute t page) s fun m' =>
    (∀ p, p ∈ (m'.slice t).pending ↔ p ≠ page ∧ p ∈ (s.m.slice t).pending) ∧ SameMem s.m m' ∧
    m'.checkClass (nearKey t (page * 4096) / 4096) = 0 ∧
    m'.rd F.ECC_RECOMP_COUNT (coreDie t) = min (2 ^ 32 - 1) (s.m.rd F.ECC_RECOMP_COUNT (coreDie t) + 1) ∧
    SameRegs s.m m' [(.ECC_RECOMP, coreDie t), (.SLC_CE, t.val), (.FBK_LOST, coreDie t)]

/-- Slow paths (R299 to R301): the oldest queued path reaches a free decoder; the oldest running one ends, and what it held is delivered: reads
of its word first, then writes, then what found the queue full. With nothing held no byte changes, and what the units that waited for its word
are delivered of it is kept for them. -/
def Sys2Proof.Claim.SlowPaths : Prop := ∀ (u : Fin 24) (s : State) (a t : List SlowPath) (x : SlowPath), s.m.slowOf u = a ++ x :: t →
  (x.begun = false → (∀ y ∈ a, y.begun = true) → ((a ++ x :: t).filter (·.begun)).length < decoders u →
    To (.slowPathBegin u) s (s.m.setSlow u (a ++ { x with begun := true } :: t))) ∧
  (x.begun = true → (∀ y ∈ a, y.begun = false) → To (.slowPathDone u) s (s.m.endSlow u x (a ++ t)) ∧
    (x.held = [] → Tbl.get [] s.m.slowBack u = [] → Does (.slowPathDone u) s fun m' =>
      m'.slowOf u = a ++ t ∧ SameMem s.m m' ∧ SameCores s.m m' 576 ∧ ∀ k ∈ x.waiters,
        ⟨x.word, s.m.bytes (x.word * 64) 64, s.m.wordBad x.word⟩ ∈ Tbl.get [] m'.ran k))

/-- Refresh modes, the codes of memory, and paths that slow or stop. -/
def Obligations.RefreshAndPaths : Prop := Claim.RefreshAndCodes ∧ Claim.SlowPaths

/-- Far devices (R302, R303): a retraining starts and is counted, ends well, is tried a second time, or loses the device; an isolation, by
the physical function or Ostler alone, sets ISOLATE, and the device answers DEVICE-LOST from then on. -/
def Sys2Proof.Claim.FarDevices : Prop := ∀ (f : FarId) (s : State),
  (s.m.farLost f = false → (s.m.far f).retraining = false → To (.fmcRetrain f) s
    ((s.m.setFar f { s.m.far f with retraining := true, fails := 0 }).bump F.FMC_RETRAIN_COUNT f)) ∧
  ((s.m.far f).retraining = true →
    (Does (.fmcRetrainDone f true) s fun m' =>
      (m'.far f).retraining = false ∧ (m'.far f).fails = 0 ∧ (m'.far f).lost = (s.m.far f).lost) ∧
    ((s.m.far f).fails = 0 → To (.fmcRetrainDone f false) s
      ((s.m.setFar f { s.m.far f with fails := 1 }).bump F.FMC_RETRAIN_COUNT f)) ∧
    ((s.m.far f).fails ≠ 0 → Does (.fmcRetrainDone f false) s fun m' =>
      (m'.far f).lost = true ∧ (m'.far f).retraining = false ∧ ∀ src o n, m'.siteStatus src (.far f o) n = St.deviceLost)) ∧
  ∀ req : Requester,
    (privileged req.toNat = true → s.m.rd F.FMC_CTL_ISOLATE f = 0 → Does (.fmcIsolate req f) s fun m' =>
      m'.rd F.FMC_CTL_ISOLATE f = 1 ∧ ∀ src o n, m'.siteStatus src (.far f o) n = St.deviceLost) ∧
    (privileged req.toNat = false → To (.fmcIsolate req f) s s.m)

/-! ### The scrubber and field repair -/

/-- Scrub commands (R305, R306, R308, R310): a command of the physical function or Ostler begins a scrub of its target, ends at once with its
refusal and no summary (that it does, and the order of INVALID, RANGE and the target's state: the model's choice, log entry 17), or is lost
while one runs; an abort marks the running scrub; the scrub visits its next page, unless that waits, and counts it. A
SCAN changes no byte, no poison and no code; after a REPAIR every word of the page that it may write reads well or is marked. -/
def Sys2Proof.Claim.ScrubResults : Prop := ∀ (d : LogicDie) (s : State),
  (∀ (req : Requester) (kind : Fin 4) (unit fare : Byte) (rep : Bool) (i : Instr),
    (rep, i) ∈ [(false, Instr.scrubScan req d kind unit fare), (true, .scrubRepair req d kind unit fare)] →
    let start := s.m.rd F.SCB_START_LO_VALUE_LO d * 4096 + s.m.rd F.SCB_START_HI_VALUE_HI d * 2 ^ 32
    let len := s.m.rd F.SCB_LEN_LO_VALUE_LO d * 4096 + s.m.rd F.SCB_LEN_HI_VALUE_HI d * 2 ^ 32
    let target := s.m.scrubTarget d kind unit.toNat
    let refused := if target = 1 ∨ len = 0 then 1 else if scrubSize kind < start + len then 2 else target
    (privileged req.toNat = false → To i s s.m) ∧
    (privileged req.toNat = true → s.m.rd F.SCB_STS_BUSY d = 1 → To i s (s.m.wr F.SCB_STS_CMD_LOST d 1)) ∧
    (privileged req.toNat = true → s.m.rd F.SCB_STS_BUSY d = 0 → refused = 0 → Does i s fun m' =>
      m'.rd F.SCB_STS_BUSY d = 1 ∧ m'.rd F.SCB_PROGRESS_PAGES d = 0 ∧ SameMem s.m m' ∧
        ∃ x, Tbl.get none m'.scrubs d.val = some x ∧ x.repair = rep ∧ x.kind = kind ∧ x.unit = unit.toNat ∧ x.fare = fare.toNat ∧
          x.start = start ∧ x.len = len ∧ x.next = start / 4096 ∧ x.pages = 0) ∧
    (privileged req.toNat = true → s.m.rd F.SCB_STS_BUSY d = 0 → refused ≠ 0 → Does i s fun m' =>
      m'.rd F.SCB_STS_DONE d = 1 ∧ m'.rd F.SCB_STS_RESULT d = refused ∧ m'.scrubs = s.m.scrubs ∧ SameMem s.m m')) ∧
  (∀ req : Requester, ∀ x, privileged req.toNat = true → Tbl.get none s.m.scrubs d.val = some x → Does (.scrubAbort req d) s fun m' =>
    Tbl.get none m'.scrubs d.val = some { x with abort := true } ∧ SameMem s.m m' ∧ SameRegs s.m m' []) ∧
  (∀ x, Tbl.get none s.m.scrubs d.val = some x → s.m.scrubEnds d x = none → s.m.scrubWaits d x = false →
    let u := scrubUnit d x.kind x.unit
    Does (.scrubPage d) s fun m' =>
    (∃ x', Tbl.get none m'.scrubs d.val = some x' ∧ x'.next = x.next + 1 ∧ x'.pages = x.pages + 1 ∧ x.ce ≤ x'.ce ∧ x.ue ≤ x'.ue) ∧
    SameBytes s.m m' ∧
    (x.repair = false → SameMem s.m m' ∧ m'.wordErr = s.m.wordErr ∧ m'.ckErr = s.m.ckErr ∧ m'.ckOff = s.m.ckOff) ∧
    (x.repair = true → ∀ i, i < 64 →
      let w := scrubKey x.kind u (x.next * 4096) / 4096 * 64 + i
      w ∉ s.m.poison → s.m.keepsWord x.kind u x.next w = false → m'.wordClass w = 0))

/-- The end of a scrub (R308, R309): its summary is written as Ostler's at the address that SCB_SUM holds then (log entry 17), once Ostler's
tokens let it go (R362), DONE and RESULT are set, event 5 is raised, and no scrub runs on the die. -/
def Sys2Proof.Claim.ScrubEnds : Prop := ∀ (d : LogicDie) (s : State) (x : Scrub) (r st : Nat) (m1 : Module),
  Tbl.get none s.m.scrubs d.val = some x → s.m.scrubEnds d x = some r → r < 256 →
  s.m.writeSpan askOstler (fun _ => false) 6 (s.m.rd F.SCB_SUM_LO_ADDR_LO d * 64 + s.m.rd F.SCB_SUM_HI_ADDR_HI d * 2 ^ 32)
    (x.summary d r) = (m1, st) → st ≠ St.waits → s.m.tokensFor m1 ostlerIface = true →
  Does (.scrubDone d) s fun m' => Tbl.get none m'.scrubs d.val = none ∧ m'.rd F.SCB_STS_BUSY d = 0 ∧ m'.rd F.SCB_STS_DONE d = 1 ∧
    m'.rd F.SCB_STS_RESULT d = (if st = 0 then r else 6) ∧ Nat.testBit (m'.rd F.PCE_EVSTS_EVENTS 0) 5 = true ∧ m'.mem = m1.mem

/-- Scrubs of near and far memory and their ends. -/
def Obligations.Scrubbing : Prop := Claim.ScrubResults ∧ Claim.ScrubEnds

/-- Field repair (R304): it starts, the page moves to the spare row with every stored error gone, and it ends with the result and the fuse's
fate; a bank without spare rows ends it at once. -/
def Sys2Proof.Claim.FieldRepair : Prop := ∀ (d : LogicDie) (s : State),
  (∀ (req : Requester) (kind : Fin 4) (unit : Byte), privileged req.toNat = true → s.m.rd F.SCB_RPR_STS_BUSY d = 0 →
    s.m.scrubTarget d kind unit.toNat = 0 → s.m.rd F.SCB_RPR_PAGE_PAGE d * 4096 < scrubSize kind →
    let k := spareKey kind (scrubUnit d kind unit.toNat) (s.m.rd F.SCB_RPR_PAGE_PAGE d)
    Does (.fieldRepair req d kind unit) s fun m' => SameMem s.m m' ∧
      if 0 < s.m.sparesLeft k then m'.rd F.SCB_RPR_STS_BUSY d = 1 ∧
        Tbl.get none m'.repairs d.val = some ⟨kind, unit.toNat, s.m.rd F.SCB_RPR_PAGE_PAGE d, false, []⟩
      else m'.rd F.SCB_RPR_STS_DONE d = 1 ∧ m'.rd F.SCB_RPR_STS_RESULT d = 7 ∧ m'.rd F.SCB_RPR_STS_SPARES_LEFT d = 0) ∧
  (∀ r, Tbl.get none s.m.repairs d.val = some r →
    let u := scrubUnit d r.kind r.unit
    let page := scrubKey r.kind u (r.page * 4096) / 4096
    (r.copied = false → (r.kind = 0 → s.m.protects u (r.page * 4096) 4096 = false) → r.held = [] → Does (.fieldRepairCopyDone d) s fun m' =>
      Tbl.get none m'.repairs d.val = some { r with copied := true } ∧ SameBytes s.m m' ∧ m'.checkClass page = 0 ∧
      Tbl.get 0 m'.spares (spareKey r.kind u r.page) = Tbl.get 0 s.m.spares (spareKey r.kind u r.page) + 1 ∧
      ∀ i, i < 64 → page * 64 + i ∉ s.m.poison → m'.wordClass (page * 64 + i) = 0) ∧
    (r.copied = true → ∀ ok : Bool, Does (.fieldRepairDone d ok) s fun m' => Tbl.get none m'.repairs d.val = none ∧ SameMem s.m m' ∧
      m'.rd F.SCB_RPR_STS_BUSY d = 0 ∧ m'.rd F.SCB_RPR_STS_DONE d = 1 ∧ m'.rd F.SCB_RPR_STS_RESULT d = (if ok then 0 else 8) ∧
      m'.ledger.queue.length = s.m.ledger.queue.length + 1))

/-- Loss and return of far devices, and field repair. -/
def Obligations.FarMemory : Prop := Claim.FarDevices ∧ Claim.FieldRepair

/-! ### The mesh -/

/-- A request of operation op (0 READ, 1 WRITE, 2 PWRITE, 3 and more ATOMIC) of a requester of the module keeps to the packet rules and may be
issued (R323 to R329, R342, R513). The companion's requests come in by its port. -/
def Sys2Proof.Claim.Issues (m : Module) (p : Packet) (op : Nat) : Prop :=
  packetWf p op = true ∧ m.mayIssue op p = true ∧ p.src.toNat ≠ reqCompanion

/-- The channel of a request at its source interface: its fare's (R321, R356). -/
def Sys2Proof.Claim.channel (m : Module) (p : Packet) : Fin 4 := Fin.ofNat 4 (m.stamp p.src.toNat p.addr (m.fareNow p.src.toNat)).vc

/-- Nothing waits for a request's bucket at its source interface, and the bucket holds its charge (R362). -/
def Sys2Proof.Claim.Free (m : Module) (p : Packet) (op : Nat) : Prop :=
  let i := srcIface p.src.toNat none
  let k := bucketKey i (channel m p)
  Tbl.get [] m.qos.held k = [] ∧ m.txWaits k = false ∧ m.bucketHolds i (channel m p) (m.charged op p) = true

/-- The routers and the hub that a request passes to a site (R331, R332, R335). -/
def Sys2Proof.Claim.way (m : Module) (p : Packet) (x : Site) : List Nat := m.pathNodes (srcRouter p.src.toNat) (destRouter p.addr x)

/-- Every link that a path crosses carries traffic. -/
def Sys2Proof.Claim.LinksUp (m : Module) (path : List Nat) : Prop := ∀ l ∈ pathCross path, m.d2dUp l = true

/-- A request is issued, injected and served now by the memory at a site: the map, the address and the path let it through, its links are up, its
endpoint serves its position, nothing on the way or there makes it wait, and the words it touches read well (R329, R337, R341, R362). `k` is the
byte key that it begins at. -/
def Sys2Proof.Claim.Served (m : Module) (p : Packet) (op : Nat) (x : Site) (k : Nat) : Prop :=
  Issues m p op ∧ Free m p op ∧ m.sourceCheck p.src.toNat p.addr p.len (opRight op) = .ok x ∧ x.key = some k ∧
  LinksUp m (way m p x) ∧ m.siteStatus p.src.toNat x p.len = St.ok ∧ Quiet m ∧ ReadsWell m k p.len

/-- The answers on the mesh after a request was served: those before it and one for it, which carries a status, data and poison tags. -/
def Sys2Proof.Claim.Answers (m m' : Module) (p : Packet) (read : Bool) (status : Nat) (data : List Byte) (poison : List Bool) : Prop :=
  ∃ r, m'.net.resp = m.net.resp ++ [r] ∧ r.src = p.src.toNat ∧ r.tag = p.tag ∧ r.read = read ∧ r.status = status ∧ r.data = data ∧
    r.poison = poison ∧ r.vc = (channel m p).val

/-- Reads and writes at memory (R327, R330): a READ is answered with the bytes, and memory does not change; a WRITE stores its data and is
acknowledged; a PWRITE stores its data and is not. No byte outside the write changes. A write that a multicast rule covers is another
statement's; that an MWRITE which none covers is served at its address alone and acknowledged once is the model's choice (log entry 53). -/
def Obligations.MeshAccesses : Prop := ∀ (p : Packet) (s : State) (x : Site) (k : Nat),
  (Served s.m p 0 x k → Does (.meshRead p) s fun m' => SameMem s.m m' ∧ m'.net.has p.src.toNat p.tag = true ∧
    Answers s.m m' p true St.ok (s.m.bytes k p.len) ((wordsOf k p.len).map fun _ => false)) ∧
  (∀ i ∈ [Instr.meshWrite p, .mwrite p []], Served s.m p 1 x k → s.m.ruleOf p = none → Does i s fun m' =>
    Answers s.m m' p false St.ok [] [] ∧ m'.net.has p.src.toNat p.tag = true ∧ m'.bytes k p.len = p.data ∧
    ∀ a, a < k ∨ k + p.len ≤ a → m'.byte a = s.m.byte a) ∧
  (Served s.m p 2 x k → Does (.pwrite p) s fun m' => m'.net = s.m.net ∧ m'.bytes k p.len = p.data ∧
    ∀ a, a < k ∨ k + p.len ≤ a → m'.byte a = s.m.byte a)

/-- Atomic operations at a slice or far device (R329): the answer carries the old value, and memory holds the new one. -/
def Obligations.MeshAtomics : Prop := ∀ (p : Packet) (s : State) (x : Site) (k : Nat), Served s.m p 3 x k →
  (∀ c o, x ≠ .scratch c o) →
  let n := p.len
  let w := 2 ^ (8 * n)
  let old := s.m.num k n
  let v := leNat (p.data.take n)
  let sg (y : Nat) : Int := if y < w / 2 then (y : Int) else y - w
  let gives (i : Instr) (new : Nat) : Prop := Does i s fun m' =>
    Answers s.m m' p false St.ok (leBytes 8 old) [false] ∧ m'.num k n = new ∧ ∀ a, a < k ∨ k + n ≤ a → m'.byte a = s.m.byte a
  gives (.atomicSwap p) v ∧ gives (.atomicCas p) (if old = leNat ((p.data.drop 8).take n) then v else old) ∧
  gives (.atomicAdd p) ((old + v) % w) ∧ gives (.atomicAnd p) (old &&& v) ∧ gives (.atomicOr p) (old ||| v) ∧
  gives (.atomicXor p) (old ^^^ v) ∧ gives (.smax p) (if sg old < sg v then v else old) ∧
  gives (.smin p) (if sg v < sg old then v else old) ∧ gives (.umax p) (max old v) ∧ gives (.umin p) (min old v) ∧
  (n = 4 → gives (.fadd p) ((Val.ofFp32 (BitVec.ofNat 32 old)).add (Val.ofFp32 (BitVec.ofNat 32 v))).toFp32.1.toNat)

/-- Requests that no memory serves (R32, R57, R329, R337, R340, R342, R353, R362, R474): a position that may not issue one issues none; one whose
channel is taken, or whose bucket lacks its charge, is held at its source; one that its source stops completes there with the status, and one
stopped for a link is counted (a non-posted one too: the model's reading of R337 and R353, log entry 50); one whose way is held by a link in TEST or
RETRAIN, or by a router without its clock, waits there; a posted write is discarded, a reserved atomic operation completes MALFORMED, and an
atomic to scratch is answered UNSUPPORTED. Memory does not change. Here the module is not TRIPPED, which completes nothing. -/
def Sys2Proof.Claim.MeshRefusals : Prop := ∀ (p : Packet) (s : State), s.m.tripped = false → p.src.toNat ≠ reqCompanion →
  (∀ op i e, (op, i) ∈ [(0, Instr.meshRead p), (1, .meshWrite p), (2, .pwrite p), (3, .atomicSwap p), (4, .atomicCas p), (5, .atomicAdd p),
      (13, .fadd p)] →
    (s.m.mayIssue op p = false → To i s s.m) ∧
    (Issues s.m p op → ¬Free s.m p op → Does i s fun m' =>
      let k := bucketKey (srcIface p.src.toNat none) (channel s.m p)
      (∃ q, Tbl.get [] m'.qos.held k = Tbl.get [] s.m.qos.held k ++ [(op, q)] ∧ q.src = p.src ∧ q.tag = p.tag ∧ q.addr = p.addr ∧
        q.data = p.data ∧ q.vc = channel s.m p) ∧
      SameMem s.m m' ∧ m'.net = s.m.net ∧ m'.outbox = s.m.outbox ∧ SameRegs s.m m' []) ∧
    (Issues s.m p op → Free s.m p op → s.m.ruleOf p = none → s.m.net.has p.src.toNat p.tag = false →
      s.m.sourceCheck p.src.toNat p.addr p.len (opRight op) = .error e → Does i s fun m' => SameMem s.m m' ∧ m'.net.resp = s.m.net.resp ∧
        m'.net.has p.src.toNat p.tag = false ∧
        m'.outbox = (if op = 2 then s.m.outbox else .complete p.src.toNat p.tag e [] :: s.m.outbox) ∧
        SameRegs s.m m' (if e = St.linkDown then [(.NOC_LINKDOWN_CNT, p.src.toNat)] else []) ∧
        (e = St.linkDown → p.src.toNat < 576 → m'.rd F.NOC_LINKDOWN_CNT_COUNT p.src.toNat =
          min (2 ^ 32 - 1) (s.m.rd F.NOC_LINKDOWN_CNT_COUNT p.src.toNat + 1))) ∧
    (∀ x, Issues s.m p op → Free s.m p op → s.m.ruleOf p = none → s.m.sourceCheck p.src.toNat p.addr p.len (opRight op) = .ok x →
      s.m.pathTests (way s.m p x) = true → Does i s fun m' => SameMem s.m m' ∧ m'.net.resp = s.m.net.resp ∧ m'.outbox = s.m.outbox ∧
        ∃ w, m'.net.wait = s.m.net.wait ++ [w] ∧ w.op = op ∧ w.packet.src = p.src ∧ w.packet.tag = p.tag ∧ w.packet.addr = p.addr ∧
          w.packet.data = p.data)) ∧
  (∀ op, Issues s.m p 3 → s.m.net.has p.src.toNat p.tag = false → Does (.atomicReserved p op) s fun m' =>
    SameMem s.m m' ∧ m'.net.resp = s.m.net.resp ∧ m'.outbox = .complete p.src.toNat p.tag St.malformed [] :: s.m.outbox) ∧
  (∀ c o k, Served s.m p 3 (.scratch c o) k → Does (.atomicAdd p) s fun m' => SameMem s.m m' ∧ Answers s.m m' p false St.unsupported [] [])

/-- A multicast write (R343 to R347): its copies reach every target of the rule's box, and each target answers once; where no target has a
credit, each keeps its copy in its router's retention buffer; and a retained copy is delivered at its branch's retry, after which what waited
behind it goes on. Here nothing is retained before, the tree's links are up, and a packet has at most 8 flits where it is to be retained. -/
def Obligations.MulticastResults : Prop := ∀ (p : Packet) (s : State) (r : McRule) (c o : Nat),
  (Issues s.m p 1 → Free s.m p 1 → s.m.ruleOf p = some r → s.m.multiCheck p r = .ok (.scratch c o) → r.endpoint = 0 →
    r.box.x0 ≤ r.box.x1 → r.box.x1 < 24 → r.box.y0 ≤ r.box.y1 → r.box.y1 < 24 → Quiet s.m →
    (∀ t ∈ r.box.cores, LinksUp s.m (s.m.pathNodes (some p.src.toNat) (some (coreAt r.box.x0 r.box.y0)) ++ r.box.treePath t)) →
    (∀ t ∈ r.box.cores, s.m.siteStatus p.src.toNat (.scratch t o) p.len = St.ok) → o + p.len ≤ 2 ^ 22 →
    (∀ i ∈ [Instr.mwrite p [], .meshWrite p], Does i s fun m' => (∀ t ∈ r.box.cores, m'.bytes (scrKey t o) p.len = p.data) ∧
      m'.net.mw = s.m.net.mw ++ [⟨p.src.toNat, p.tag, r.box.cores, none, false⟩] ∧
      ∃ l, m'.net.resp = s.m.net.resp ++ l ∧ (l.map (·.target)).Perm r.box.cores ∧
        ∀ a ∈ l, a.src = p.src.toNat ∧ a.tag = p.tag ∧ a.read = false ∧ a.status = St.ok) ∧
    (∀ blocked : List (CoreId × Fin 3), (∀ t ∈ r.box.cores, ∃ b ∈ blocked, b.1.val = t) → (∀ b ∈ blocked, b.2 = 0) → p.len ≤ 448 →
      Does (.mwrite p blocked) s fun m' => SameMem s.m m' ∧ m'.net.resp = s.m.net.resp ∧
        ∀ t ∈ r.box.cores, ∃ e, Tbl.get [] m'.net.ret t = [e] ∧ e.packet.data = p.data ∧ e.branch = 0 ∧ e.stalled = false ∧
          e.flits = 1 + p.len / 64 ∧ e.scratch = true ∧ e.off = o)) ∧
  (∀ (b : Branch) (x : Retained) (l : List Retained), Tbl.get [] s.m.net.ret b.router.val = x :: l → b.branch = 0 → x.branch = 0 →
    x.packet.vc = b.vc → x.stalled = false → To (.retentionRetry b) s
      (((s.m.setRet b.router l).noteFlits [b.router.val] b.vc (1 + x.packet.len / 64)).copyTo x b.router).rePass)

/-- Answers at a requester interface (R32, R339, R341, R342, R346, R474, R513): the first answer of a tag on its way completes its request, the
companion's at its port (R487), is absorbed at a position that absorbs, is discarded where a reset made the request stale, and is counted as
late where none is outstanding; one whose way is held waits; a multicast write completes with its last WACK, with the status of the
lowest-numbered target that answered other than OK, and one made stale by a reset frees its tag alone; a timeout completes a request TIMEOUT and
counts it. Here the module is not TRIPPED. -/
def Sys2Proof.Claim.AnswerResults : Prop := ∀ (src : Requester) (tag : Nat) (target : CoreId) (s : State), s.m.tripped = false →
  let a := src.toNat
  (∀ read r l, takeResp (fun x => x.read == read && x.src == a && x.tag == tag) [] s.m.net.resp = some (r, l) →
    (read = false → ∀ w ∈ s.m.net.mw, w.src ≠ a ∨ w.tag ≠ tag) →
    let i := if read then Instr.rdata src tag else .wack src tag target
    let m := s.m.leaveMesh r l
    (s.m.pathTests r.path = true → To i s s.m) ∧
    (s.m.pathTests r.path = false → s.m.absorbsAnswers a = true → To i s ((m.bump F.NOC_ABSORB_CNT_COUNT a).dropOutst a tag)) ∧
    (s.m.pathTests r.path = false → s.m.absorbsAnswers a = false →
      (s.m.net.tagState a tag = some false →
        let m' := (m.dropOutst a tag).emit (.complete a tag r.status r.data)
        To i s (if a = reqCompanion then m'.ucpReturn r.read tag r.status r.data r.poison (Fin.ofNat 4 r.vc) else m')) ∧
      (s.m.net.tagState a tag = some true → To i s (m.dropOutst a tag)) ∧
      (s.m.net.tagState a tag = none → a < 576 → To i s (m.bump F.NOC_LATE_CNT_COUNT a)))) ∧
  (∀ w r l, s.m.net.mw = [w] → w.src = a → w.tag = tag → s.m.absorbsAnswers a = false →
    takeResp (fun x => (!x.read && x.src == a && x.tag == tag) && x.target == target.val) [] s.m.net.resp = some (r, l) →
    s.m.pathTests r.path = false →
    let worst := if r.status = 0 then w.worst else match w.worst with
      | none => some (target.val, r.status)
      | some (t, st) => if target.val < t then some (target.val, r.status) else some (t, st)
    let left := w.waiting.filter (· != target.val)
    Does (.wack src tag target) s fun m' => m'.net.resp = l ∧
      if left = [] then m'.net.mw = [] ∧ m'.outbox = (if w.stale = true then s.m.outbox
        else .completeMulti a tag (match worst with | some (_, st) => st | none => 0) :: s.m.outbox)
      else m'.net.mw = [{ w with waiting := left, worst := worst }] ∧ m'.outbox = s.m.outbox) ∧
  (s.m.net.tagState a tag = some false → (∀ w ∈ s.m.net.mw, w.src ≠ a ∨ w.tag ≠ tag) → a < 576 → Does (.requestTimeout src tag) s fun m' =>
    m'.net.has a tag = false ∧ m'.outbox = .complete a tag St.timeout [] :: s.m.outbox ∧
    m'.rd F.NOC_TIMEOUT_CNT_COUNT a = min (2 ^ 32 - 1) (s.m.rd F.NOC_TIMEOUT_CNT_COUNT a + 1) ∧ SameMem s.m m')

/-- Requests that the mesh refuses, and what an answer does at its requester. -/
def Obligations.RefusalsAndAnswers : Prop := Claim.MeshRefusals ∧ Claim.AnswerResults

/-- The end of a drain (R342, R513): the answers with data that the position's core owes go out poisoned, and what has not left of a multicast
write of its own that is held at its router, each counted, and its interface forgets what it had outstanding and what waited there (that an
answer on the mesh counts as one not yet sent: the model's choice, log entry 52); and the sources' COND records of a link, as they stand from
then on (R337). -/
def Sys2Proof.Claim.DrainAndRoutes : Prop := ∀ (s : State),
  (∀ c : CoreId, s.m.absorbs c = true → Does (.drainEnd c) s fun m' => SameMem s.m m' ∧
    (∀ r ∈ m'.net.resp, r.owedBy c = true → r.status = St.poisoned ∧ ∀ b ∈ r.poison, b = true) ∧
    m'.net.resp.length = s.m.net.resp.length ∧ (∀ o ∈ m'.net.outst, o.src = c → o.stale = true) ∧
    (∀ w ∈ m'.net.mw, w.src = c → w.stale = true) ∧ (∀ r ∈ m'.fabOut, r.src = c → r.stale = true) ∧
    (∀ x ∈ Tbl.get [] m'.net.ret c.val, x.cutAt c = true → ∀ i, x.flits ≤ i + 1 → i < x.packet.poison.length →
      x.packet.poison.getD i false = true) ∧
    (∀ v, v < 4 → Tbl.get [] m'.qos.held (c.val * 4 + v) = []) ∧
    m'.rd F.NOC_DRAIN_POISON_CNT_COUNT c =
      min (2 ^ 32 - 1) (s.m.rd F.NOC_DRAIN_POISON_CNT_COUNT c + (s.m.net.resp.filter (·.owedBy c)).length +
        ((Tbl.get [] s.m.net.ret c.val).filter (·.cutAt c)).length)) ∧
  (∀ link : Fin 6, Does (.routeCondApply link) s fun m' => SameMem s.m m' ∧ SameRegs s.m m' [] ∧
    ∀ l, l ∈ m'.net.cond ↔ if l = link.val then s.m.d2dUp link = false else l ∈ s.m.net.cond)

/-! ### Regulators and register space -/

/-- Regulators (R362, R364, R370, R376, R379, R444): a draw takes a request's charge from a bucket that holds it; the first request held at an
interface's channel, or the first packet at a fabric port's, leaves where the bucket holds its charge and its way is free, and waits else; a
packet in transit goes as things then stand. A window clears every budget of its target. The hub's source registers are written by the
physical function and Ostler, and a write makes the published sums stale until they are recomputed. -/
def Sys2Proof.Claim.RegulatorResults : Prop := ∀ (s : State),
  (∀ i v n, (s.m.srcReg i v).1 ≠ 0 → s.m.bucketHolds i v n = true →
    Tbl.get 0 (s.m.draw i v n).qos.drawn (bucketKey i v) = Tbl.get 0 s.m.qos.drawn (bucketKey i v) + n * 5120) ∧
  (∀ (kind : Fin 5) (p q : Packet) (v : Fin 4) (op : Nat) (t : List (Nat × Packet)),
    let i := srcIface p.src.toNat none
    (p.src.toNat < 576 ∨ v = 0) →
    (∀ v' : Fin 4, Tbl.get [] s.m.qos.held (bucketKey i v') = if bucketKey i v' = bucketKey i v then (op, q) :: t else []) →
    s.m.kindOf op q = kind → q.src = p.src → q.tag = p.tag → q.addr = p.addr →
    (s.m.bucketHolds i v (s.m.charged op q) = true → To (.regulatorRelease kind p none) s
      ({ s.m with qos := { s.m.qos with held := Tbl.set [] s.m.qos.held (bucketKey i v) t } }.launch op q [])) ∧
    (s.m.bucketHolds i v (s.m.charged op q) = false → To (.regulatorRelease kind p none) s s.m)) ∧
  (∀ (kind : Fin 5) (p : Packet) (port : PortId) (out : Nat) (x : FabMsg) (t : List (Nat × FabMsg)),
    let k := port.val * 4 + p.vc.val
    let m := { s.m with transit := Tbl.set [] s.m.transit k t }
    let free := !(s.m.transitUp port out x.control && s.m.transitHolds port out x.control) && s.m.transitTokens port x
    Tbl.get [] s.m.transit k = (out, x) :: t →
    (free = false → To (.regulatorRelease kind p (some port)) s s.m) ∧
    (free = true →
      (s.m.ready = true → s.m.portUsable out = true → s.m.transitUp port out x.control = true →
        To (.regulatorRelease kind p (some port)) s ((m.transitDraw port x).transitGo port out x)) ∧
      (s.m.ready = true → s.m.portUsable out = false → s.m.fabRoute x.x.dunit.toNat = .none →
        To (.regulatorRelease kind p (some port)) s ((m.fabStop (some F.TWP_NOROUTE_CNT_COUNT) port x FSt.noRoute).leaveRx port x)) ∧
      (s.m.ready = false → To (.regulatorRelease kind p (some port)) s ((m.fabReply x FSt.notReady).leaveRx port x)))) ∧
  (∀ t : Fin 597, Does (.targetWindow t) s fun m' => SameMem s.m m' ∧ SameRegs s.m m' [] ∧
    ∀ k, Tbl.get 0 m'.qos.spent k = if k / 4352 = t.val then 0 else Tbl.get 0 s.m.qos.spent k) ∧
  (∀ (req : Requester) (r : Fin 11) (cfg : Bool) (v : Word),
    (privileged req.toNat = false → To (.qosHubsrcWrite req r cfg v) s s.m) ∧
    (privileged req.toNat = true → (cfg = true ∨ v.toNat % 65536 = 0 ∨ 10 ≤ v.toNat / 65536) → Does (.qosHubsrcWrite req r cfg v) s fun m' =>
      m'.rd F.QOS_PUB_STS_STALE 4 = 1 ∧ SameMem s.m m' ∧
      SameRegs s.m m' [(.QOS_HUBSRC_CFG, 4), (.QOS_HUBSRC_REG, 4), (.QOS_PUB_STS, 4)] ∧
      (cfg = false → m'.word .QOS_HUBSRC_REG 4 r = v))) ∧
  (s.m.rd F.QOS_PUB_STS_STALE 4 = 1 → Does .qosSumsRecomputed s fun m' => m'.rd F.QOS_PUB_STS_STALE 4 = 0 ∧ SameMem s.m m' ∧
    SameRegs s.m m' [(.QOS_VC_BSUM, 4), (.QOS_VC_RSUM, 4), (.QOS_PUB_STS, 4)])

/-- What a memory target does with requests (R364 to R368): one that it begins is charged to its fare; of two that wait it begins one whose
fare has budget left before one whose fare has none; within a fare the earlier deadline, and one with a deadline before one without. -/
def Sys2Proof.Claim.TargetOrder : Prop := ∀ (m : Module) (t : Nat) (a b : Want),
  (∀ k, Tbl.get 0 (m.charge t a.fare a.addr a.size).qos.spent k =
    Tbl.get 0 m.qos.spent k + if k = t * 4352 + a.fare then m.chargeOf t a.size (m.streams t a.fare a.addr) else 0) ∧
  (a.fare ≠ b.fare → Tbl.get 0 m.qos.spent (t * 4352 + a.fare) < m.budget t a.fare →
    m.budget t b.fare ≤ Tbl.get 0 m.qos.spent (t * 4352 + b.fare) → (m.pick t [a, b]).2 = 0 ∧ (m.pick t [b, a]).2 = 1) ∧
  (a.fare = b.fare → ∀ x y, a.deadline = some x → b.deadline = some y → (x - y).toInt < 0 →
    (m.pick t [a, b]).2 = 0 ∧ (m.pick t [b, a]).2 = 1) ∧
  (a.fare = b.fare → ∀ x, a.deadline = some x → b.deadline = none → (m.pick t [a, b]).2 = 0 ∧ (m.pick t [b, a]).2 = 1) ∧
  (a.fare = b.fare → a.deadline = b.deadline → (m.pick t [a, b]).2 = 0)

/-- Drains, dropped routes, and the regulators of traffic. -/
def Obligations.RoutesAndRegulators : Prop := Claim.DrainAndRoutes ∧ Claim.RegulatorResults ∧ Claim.TargetOrder

/-- Writes of register space (R12, R14, R15): one aligned word changes each field of a plain register as its access type says, where the
physical function or Ostler writes it, and nothing else; from any other requester it is discarded (R167, R197, R242, R284, R305, R313, R466,
R573; of PLT_SRC the model's choice, log entry 47). A read gives the word as it stands. -/
def Sys2Proof.Claim.RegisterWrites : Prop := ∀ (req : Requester) (a : Nat) (v : DWord) (s : State) (r : RegId),
  regAt a = some r → aligned4 a 4 = true → queueWindow a = none →
  r.reg ∈ [.SCB_START_LO, .SCB_START_HI, .SCB_LEN_LO, .SCB_LEN_HI, .SCB_SUM_LO, .SCB_SUM_HI, .SCB_RPR_PAGE, .ATN_RELAY_CFG, .FBK_FILTER,
    .PLT_SRC_LO, .PLT_SRC_HI, .PLT_SRC_LEN, .SLC_BUSY_CAP, .MXA_FLAGS, .VEC_FLAGS, .BNK_FLAGS, .DAT_LOST_CNT] →
  (privileged req.toNat = true → Does (.registerWrite req a 4 v) s fun m' => SameMem s.m m' ∧
    (∀ f ∈ r.reg.fields, m'.rd f r.unit r.idx = (match f.acc with
      | .rw => f.of (v.setWidth 32)
      | .w1c => s.m.rd f r.unit r.idx - (s.m.rd f r.unit r.idx &&& f.of (v.setWidth 32))
      | .w1s => s.m.rd f r.unit r.idx ||| f.of (v.setWidth 32)
      | .ro | .wo => s.m.rd f r.unit r.idx)) ∧
    ∀ g u i, u < 1024 → i < 2048 → ¬(g = r.reg ∧ u = r.unit ∧ i = r.idx) → m'.word g u i = s.m.word g u i) ∧
  (privileged req.toNat = false → To (.registerWrite req a 4 v) s s.m) ∧
  s.m.readSpace req.toNat a 4 = (s.m, leBytes 4 (s.m.word r.reg r.unit r.idx).toNat, [])

/-- A hole of register space (R15): it reads 0, and a write is discarded; neither raises an error. -/
def Obligations.RegisterHoles : Prop := ∀ (req : Requester) (a : Nat) (v : DWord) (s : State), regDie a ≠ none → regAt a = none →
  queueWindow a = none → a % 4 = 0 → s.m.readSpace req.toNat a 4 = (s.m, [0, 0, 0, 0], []) ∧ To (.registerWrite req a 4 v) s s.m

/-- An access of register space that is not an aligned 32-bit one (R14, R41): it reads 0 or is discarded, and the die counts it and
captures it where ERR is 0; where ERR is 1 it sets OVF and keeps the capture. -/
def Sys2Proof.Claim.RegisterErrors : Prop := ∀ (req : Requester) (a n d : Nat) (v : DWord) (s : State), regDie a = some d →
  queueWindow a = none → aligned4 a n = false → n ≤ 8 →
  let k := if n < 4 then 0 else if 4 < n then 1 else 2
  Does (.registerWrite req a n v) s fun m' => SameMem s.m m' ∧
    SameRegs s.m m' [(.BRG_RAERR_STS, d), (.BRG_RAERR_ADDR_LO, d), (.BRG_RAERR_ADDR_HI, d), (.BRG_RAERR_CNT, d)] ∧
    m'.rd F.BRG_RAERR_CNT_COUNT d = min (2 ^ 32 - 1) (s.m.rd F.BRG_RAERR_CNT_COUNT d + 1) ∧ m'.rd F.BRG_RAERR_STS_ERR d = 1 ∧
    (s.m.rd F.BRG_RAERR_STS_ERR d = 0 → m'.rd F.BRG_RAERR_STS_KIND d = k ∧ m'.rd F.BRG_RAERR_STS_WRITE d = 1 ∧
      m'.rd F.BRG_RAERR_STS_REQUESTER d = req.toNat ∧ m'.rd F.BRG_RAERR_ADDR_LO_ADDR_LO d = a % 2 ^ 32 ∧
      m'.rd F.BRG_RAERR_ADDR_HI_ADDR_HI d = a / 2 ^ 32) ∧
    (s.m.rd F.BRG_RAERR_STS_ERR d = 1 → m'.rd F.BRG_RAERR_STS_OVF d = 1 ∧ m'.rd F.BRG_RAERR_STS_KIND d = s.m.rd F.BRG_RAERR_STS_KIND d ∧
      m'.rd F.BRG_RAERR_STS_REQUESTER d = s.m.rd F.BRG_RAERR_STS_REQUESTER d ∧
      m'.rd F.BRG_RAERR_ADDR_LO_ADDR_LO d = s.m.rd F.BRG_RAERR_ADDR_LO_ADDR_LO d ∧
      m'.rd F.BRG_RAERR_ADDR_HI_ADDR_HI d = s.m.rd F.BRG_RAERR_ADDR_HI_ADDR_HI d)

/-- Accesses of registers: the write that takes effect and the ones that are refused. -/
def Obligations.RegisterAccesses : Prop := Claim.RegisterWrites ∧ Claim.RegisterErrors

/-! ### The module loader -/

/-- The plat commands of a write of PLT_CMD (R74), by OP. -/
def Sys2Proof.Claim.platCommands (req : Requester) (part : PartId) : List (Nat × Instr) :=
  [(1, .loadModuleScope req), (2, .loadPartitionScope req part), (3, .pltStop req part), (4, .pltRemove req part),
    (5, .pltCmdReserved req 0 part), (6, .pltCmdReserved req 1 part), (7, .pltCmdReserved req 2 part)]

/-- A PLT_CMD write while BUSY is 1 (R73): it is discarded, and CMD_LOST is set; the load under way is as it was. -/
def Obligations.PlatCommandLost : Prop := ∀ (req : Requester) (part : PartId) (s : State) (op : Nat) (i : Instr),
  (op, i) ∈ platCommands req part → privileged req.toNat = true → Stage.awaitPlat ≤ s.m.stage → s.m.rd F.PLT_STS_BUSY 4 = 1 →
  Does i s fun m' => m' = s.m.wr F.PLT_STS_CMD_LOST 4 1 ∧ m'.load = s.m.load ∧ m'.rd F.PLT_STS_CMD_LOST 4 = 1 ∧
    m'.rd F.PLT_STS_BUSY 4 = 1

/-- A plat command has ended with a result and details (R74): DONE, and no load in progress. -/
def Sys2Proof.Claim.PlatEnded (m' : Module) (result d1 d2 : Nat) : Prop :=
  m'.load = none ∧ m'.rd F.PLT_STS_BUSY 4 = 0 ∧ m'.rd F.PLT_STS_DONE 4 = 1 ∧ m'.rd F.PLT_STS_STEP 4 = 0 ∧
    m'.rd F.PLT_STS_RESULT 4 = result % 256 ∧ m'.rd F.PLT_DETAIL_VALUE 4 = d1 % 2 ^ 32 ∧ m'.rd F.PLT_DETAIL2_VALUE 4 = d2 % 2 ^ 32

/-- Plat commands while no load runs (R56, R69, R74, R78): a load checks its header and directory and goes on to its digest, or ends with
the first failure: SOURCE of the header, a check of the header, SOURCE of the directory, a check of the directory (that SOURCE of what is read
comes before the checks of what was read is the model's choice, log entry 78); a STOP of a running partition begins its stop; a REMOVE of a stopped or failed one frees it; a reserved command ends
BAD_COMMAND; from any requester but the physical function and Ostler a command does nothing. -/
def Sys2Proof.Claim.PlatCommands : Prop := ∀ (req : Requester) (part : PartId) (s : State),
  (privileged req.toNat = false → ∀ op i, (op, i) ∈ platCommands req part → To i s s.m) ∧
  (privileged req.toNat = true → Stage.awaitPlat ≤ s.m.stage → s.m.rd F.PLT_STS_BUSY 4 = 0 →
    (∀ op i, (op, i) ∈ [(1, Instr.loadModuleScope req), (2, .loadPartitionScope req part)] →
      let p := if op = 1 then 0 else part.val
      let src := s.m.rd F.PLT_SRC_LO_ADDR_LO 4 * 64 + s.m.rd F.PLT_SRC_HI_ADDR_HI 4 * 2 ^ 32
      let len := s.m.rd F.PLT_SRC_LEN_LEN 4
      let g := s.m.img src
      (∀ e, s.m.sourceErr op p src 0x60 = some e → Does i s fun m' => PlatEnded m' e.1 e.2.1 e.2.2 ∧ SameMem s.m m' ∧
        m'.plat = s.m.plat) ∧
      (∀ e, s.m.sourceErr op p src 0x60 = none →
        headerErr g op p len = some e ∨
          (headerErr g op p len = none ∧ (s.m.sourceErr op p src (min len (dirEnd g)) = some e ∨
            (s.m.sourceErr op p src (min len (dirEnd g)) = none ∧ step1 g op p len = .error e))) →
        Does i s fun m' => PlatEnded m' e.1 e.2.1 e.2.2 ∧ SameMem s.m m' ∧ m'.plat = s.m.plat) ∧
      (∀ l, s.m.sourceErr op p src 0x60 = none → headerErr g op p len = none → step1 g op p len = .ok l → s.m.sourceErr op p src (min len (dirEnd g)) = none →
        Does i s fun m' => m'.rd F.PLT_STS_BUSY 4 = 1 ∧ m'.rd F.PLT_STS_STEP 4 = 2 ∧ SameMem s.m m' ∧ m'.plat = s.m.plat ∧
          ∃ x, m'.load = some x ∧ x.op = op ∧ x.part = p ∧ x.step = 2 ∧ x.src = src ∧ x.len = len)) ∧
    (s.m.partState part = PSt.running → NoneHeld s.m → Does (.pltStop req part) s fun m' => m'.partState part = PSt.stopping ∧
      m'.rd F.PLT_STS_BUSY 4 = 1 ∧ SameMem s.m m' ∧ (∀ c ∈ s.m.partCores part, m'.absorbs c = true ∧ (m'.core c).st = .held) ∧
      m'.load = some { op := 3, part := part, step := 4, src := 0, len := 0 }) ∧
    (s.m.partState part ≠ PSt.running → Does (.pltStop req part) s fun m' => PlatEnded m' Plt.notFound part (s.m.partState part)) ∧
    (s.m.partState part = PSt.stopped ∨ s.m.partState part = PSt.failed → Does (.pltRemove req part) s fun m' => PlatEnded m' 0 0 0 ∧
      m'.partState part = PSt.absent ∧ m'.part part = none ∧ (∀ r ∈ m'.plat.memmap, r.part ≠ part) ∧ SameMem s.m m') ∧
    (s.m.partState part ≠ PSt.stopped → s.m.partState part ≠ PSt.failed → Does (.pltRemove req part) s fun m' =>
      PlatEnded m' Plt.notFound part (s.m.partState part)) ∧
    ∀ op : Fin 3, Does (.pltCmdReserved req op part) s fun m' => PlatEnded m' Plt.badCommand (5 + op) 0 ∧ SameMem s.m m')

/-- The steps of a load (R69, R78, R87): a failing check ends it with the plat in force as it was; an image that is read whole and matches the
DIGEST read in step 1, its own DIGEST field among what must match, leads to the checks and the quiesce, and one that does not ends BAD_DIGEST
whatever else has changed in it; at its end a STOP leaves its partition STOPPED; a write failure of a die makes the load's partitions FAILED, and a load
whose image stands as it was checked makes them RUNNING, with its programs' good cores RUNNING at their entries. -/
def Sys2Proof.Claim.PlatLoads : Prop := ∀ (s : State) (l : LoadRun), s.m.load = some l →
  (l.step = 2 → ∀ e, s.m.sourceErr l.op l.part l.src l.len = some e →
    Does .digestVerified s fun m' => PlatEnded m' e.1 e.2.1 e.2.2 ∧ m'.plat = s.m.plat ∧ SameMem s.m m') ∧
  (l.step = 2 → s.m.sourceErr l.op l.part l.src l.len = none →
    s.m.imgDigest l.src l.len ≠ l.digest ∨ s.m.imgDigestField l.src ≠ l.digest →
    Does .digestVerified s fun m' => PlatEnded m' Plt.badDigest 0 0 ∧ m'.plat = s.m.plat ∧ SameMem s.m m') ∧
  (l.step = 2 → NoneHeld s.m → s.m.sourceErr l.op l.part l.src l.len = none → s.m.imgDigest l.src l.len = l.digest →
    s.m.imgDigestField l.src = l.digest → Does .digestVerified s fun m' => SameMem s.m m' ∧
      match step1 (s.m.img l.src) l.op l.part l.len with
      | .error e => PlatEnded m' e.1 e.2.1 e.2.2 ∧ m'.plat = s.m.plat
      | .ok x =>
        match s.m.sectionsErr (s.m.img l.src) l.op l.part x with
        | none => m'.rd F.PLT_STS_STEP 4 = 4 ∧ ∃ y, m'.load = some y ∧ y.step = 4 ∧ y.op = l.op ∧
          y.plat = s.m.merged l.op l.part (readPlat (s.m.img l.src) x)
        | some e => PlatEnded m' e.1 e.2.1 e.2.2 ∧ m'.plat = s.m.plat) ∧
  (l.step = 4 → l.op = 3 → l.part < 16 → NoneHeld s.m → (∀ t, (s.m.slice t).bop = none) → Does .quiesceDone s fun m' => PlatEnded m' 0 0 0 ∧
    m'.partState l.part = PSt.stopped ∧ SameMem s.m m' ∧ m'.cores = s.m.cores ∧ m'.resetting = s.m.resetting ∧
    ∀ o ∈ m'.net.outst, o.src ∈ s.m.partCores l.part → o.stale = true) ∧
  (l.step = 4 → l.op ≠ 3 → Does .quiesceDone s fun m' => m'.rd F.PLT_STS_STEP 4 = 5 ∧ m'.plat.parts = l.plat.parts ∧
    ∃ y, m'.load = some y ∧ y.step = 5 ∧ y.op = l.op ∧ y.plat = l.plat) ∧
  (l.step = 5 → NoneHeld s.m → ∀ d : LogicDie, Does (.loadWriteDone (some d)) s fun m' => PlatEnded m' Plt.writeFault d 0 ∧
    m'.rd F.PLT_DIE_STS_FAULT d = 1 ∧ ∀ p, p < 16 → s.m.partState p = PSt.loading ∨ s.m.partState p = PSt.stopping →
      m'.partState p = PSt.failed) ∧
  (l.step = 5 → (∀ i, i < (l.len + 63) / 64 → s.m.imgBad l.src i = false) → s.m.imgDigest l.src l.len = l.digest →
    s.m.imgDigestField l.src = l.digest → l.plat.pools = [] → s.m.lockLost = [] → Does (.loadWriteDone none) s fun m' => PlatEnded m' 0 0 0 ∧ m'.plat = l.plat ∧
      (∀ p ∈ s.m.targets, m'.partState p = PSt.running) ∧
      ∀ e ∈ l.plat.progs, l.plat.progs.find? (fun x => x.core == e.core) = some e → s.m.good e.core = true →
        (∃ p ∈ s.m.targets, e.core ∈ s.m.partCores p) →
        (m'.core e.core).st = .running ∧ (m'.core e.core).pc = BitVec.ofNat 64 e.entry ∧ (m'.core e.core).g = [])

/-- The plat loader: its commands and the steps of a load. -/
def Obligations.PlatOperations : Prop := Claim.PlatCommands ∧ Claim.PlatLoads

/-! ### Clocks -/

/-- Loss and return of lock (R32): a second loss, a return of a lock that was not lost and any loss without power change nothing; a loss
marks its domain and stops the cores of its die with the clock-loss fault (that a module without power has no clock to lose is the model's
choice, log entry 4); a loss of domain S resets the module; a return lets what was held
for the domain go on; a far device whose lock does not return is lost. -/
def Obligations.ClockResults : Prop := ∀ (d : Domain) (s : State),
  (s.m.stage = 0 ∨ domainId d ∈ s.m.lockLost → To (.clockLoss d) s s.m) ∧
  (domainId d ∉ s.m.lockLost → To (.clockLockReturn d) s s.m) ∧
  (s.m.stage ≠ 0 → domainId d ∉ s.m.lockLost →
    (d = .s → To (.clockLoss d) s (s.m.moduleReset true)) ∧
    (d ≠ .s → Does (.clockLoss d) s fun m' => domainId d ∈ m'.lockLost ∧ SameMem s.m m' ∧
      ∀ e : LogicDie, d = .a e ∨ d = .m e ∨ (∃ x : DieId, d = .n x ∧ x.val = e.val) → ∀ i, i < 144 →
        (s.m.core (144 * e + i)).st = .running ∨ (s.m.core (144 * e + i)).st = .waiting →
        (m'.core (144 * e + i)).st = .faulted ∧ m'.rd F.SEQ_FAULT_CODE (144 * e + i) = 7)) ∧
  (domainId d ∈ s.m.lockLost →
    let x := { s.m with lockLost := NSet.erase s.m.lockLost (domainId d) }
    (∀ j, d = .f j → To (.clockLockReturn d) s (x.flushFar j)) ∧
    (d = .p ∨ d = .s ∨ d = .u ∨ (∃ k, d = .k k) → To (.clockLockReturn d) s x) ∧
    (∀ e : LogicDie, d = .a e ∨ d = .m e ∨ (∃ y : DieId, d = .n y ∧ y.val = e.val) →
      To (.clockLockReturn d) s ((x.settle s.m .other e).lockBack e)) ∧
    (∀ y : DieId, d = .n y → y.val = 4 → To (.clockLockReturn d) s ((x.settle s.m .other 4).flushClock)) ∧
    ((∀ j, d ≠ .f j) → NoneHeld s.m → Does (.clockLockReturn d) s fun m' => domainId d ∉ m'.lockLost ∧ SameMem s.m m' ∧
      m'.cores = s.m.cores)) ∧
  ∀ f : FarId, (32 + f.val ∈ s.m.lockLost → (s.m.far f).lost = false →
      To (.farLockTimeout f) s (s.m.loseFar f) ∧ ((s.m.far f).held = [] → s.m.slowOf f = [] → Tbl.get [] s.m.slowBack f.val = [] →
        ((s.m.loseFar f).far f).lost = true)) ∧
    (32 + f.val ∉ s.m.lockLost ∨ (s.m.far f).lost = true → To (.farLockTimeout f) s s.m)

/-! ### Resets, fences and self-tests -/

/-- The commands of the reset blocks, each with its block, its OP and the unit that it names (R522, R601). -/
def Sys2Proof.Claim.ResetCommand (req : Requester) (c : CoreId) (d : LogicDie) (cl : Fin 36) (p : PartId) (tc ts lend : Bool)
    (k op u : Nat) (i : Instr) : Prop :=
  (k, op, u, i) ∈ [(c.val, 1, c.val, .coreReset req c), (c.val, 2, c.val, .fence req c), (c.val, 3, c.val, .fenceLend req c),
    (c.val, 4, c.val, .unfence req c), (c.val, 5, c.val, .selftest req c tc ts lend),
    (576 + d.val, 1, cl.val, .clusterReset req d cl), (576 + d.val, 2, cl.val, .clusterFence req d cl),
    (576 + d.val, 4, cl.val, .clusterUnfence req d cl), (576 + d.val, 5, cl.val, .clusterSelftest req d cl tc ts),
    (580, 1, p.val, .partitionReset req p)]

/-- BUSY of a reset block's status, by block. -/
def Sys2Proof.Claim.rstBusy (m : Module) (k : Nat) : Nat := let (busy, _, _, _, _, u) := rstSts k; m.rd busy u

/-- A block's command has ended with a result (R522): DONE, and no longer BUSY or held. -/
def Sys2Proof.Claim.RstEnded (m : Module) (k result : Nat) : Prop :=
  let (busy, done, _, pend, res, u) := rstSts k
  m.run k = none ∧ m.rd busy u = 0 ∧ m.rd done u = 1 ∧ m.rd pend u = 0 ∧ m.rd res u = result

/-- No command in progress has nothing left to wait for: such a command has ended. -/
def Sys2Proof.Claim.RstTidy (m : Module) : Prop := ∀ e ∈ m.rst, ∀ r, e.2 = some r → ¬(r.phase = 4 ∧ r.waits = [])

/-- Commands of the reset blocks (R511, R515, R519, R522): from any requester but the physical function and Ostler a command does nothing;
while BUSY is 1 it is lost; a command that something holds is PENDING (that a self-test of a position holds back the other commands of
that position is the model's choice, log entry 105); a reset or a fence of good positions begins to drain them, with their
cores HELD; a core command of a good position joins a larger reset that drives it. -/
def Sys2Proof.Claim.ResetCommands : Prop := ∀ (req : Requester) (c : CoreId) (d : LogicDie) (cl : Fin 36) (p : PartId) (tc ts lend : Bool)
  (s : State), ∀ k op u i, ResetCommand req c d cl p tc ts lend k op u i →
  let (busy, _, lost, pend, _, ru) := rstSts k
  (privileged req.toNat = false → To i s s.m) ∧
  (privileged req.toNat = true → rstBusy s.m k = 1 → To i s (s.m.wr lost ru 1)) ∧
  (privileged req.toNat = true → rstBusy s.m k = 0 →
    (s.m.rstHeld k op u = true → Does i s fun m' => m'.rd busy ru = 1 ∧ m'.rd pend ru = 1 ∧ m'.cores = s.m.cores ∧ SameMem s.m m' ∧
      ∃ r, m'.run k = some r ∧ r.op = op ∧ r.unit = u ∧ r.phase = 0) ∧
    (s.m.rstHeld k op u = false → op ≤ 3 → RstTidy s.m → NoneHeld s.m → s.m.slow = [] → (k = 580 → s.m.partState u = PSt.running) →
      let goods := (s.m.rstCores k u).filter s.m.good
      (goods ≠ [] → (∀ x ∈ goods, s.m.owner x = none) → Does i s fun m' => m'.rd busy ru = 1 ∧
        ∀ x ∈ goods, x ∈ m'.resetting ∧ (m'.core x).st = .held) ∧
      (∀ o q, k = c.val → goods = [c.val] → s.m.owner c = some (o, q) → 576 ≤ o → Does i s fun m' =>
        m'.rd busy ru = 1 ∧ m'.cores = s.m.cores ∧ ∃ r, m'.run k = some r ∧ r.op = op ∧ r.phase = 4 ∧ r.waits = [o])) ∧
    (s.m.rstHeld k op u = false → op = 1 → (s.m.rstCores k u).filter s.m.good = [] → k < 580 → Does i s fun m' =>
      RstEnded m' k RSt.fenced ∧ m'.codes = s.m.codes ∧ SameMem s.m m') ∧
    (s.m.partState u ≠ PSt.running → s.m.rstHeld k op u = false → k = 580 → Does i s fun m' => RstEnded m' k RSt.notRunning ∧
      m'.cores = s.m.cores ∧ SameMem s.m m'))

/-- Commands on a position that is FENCED, LODGER or DEAD (R515, R517, R518): a fence, a lent fence, an unfence or a self-test ends at once
with the result that the position's code gives, and leaves the code that it gives; a self-test that may run begins. -/
def Obligations.FencedPositions : Prop := ∀ (req : Requester) (c : CoreId) (tc ts lend : Bool) (s : State),
  privileged req.toNat = true → rstBusy s.m c = 0 → (∀ op, s.m.rstHeld c op c = false) → (s.m.slice c).held = [] → s.m.slow = [] →
  let code := s.m.code c
  let st := code % 4
  let p := Tbl.get 0 s.m.passed c.val
  let ends (i : Instr) (result new : Nat) : Prop := Does i s fun m' => RstEnded m' c result ∧ m'.code c = new ∧ m'.cores = s.m.cores
  (st = 1 → ends (.fence req c) RSt.ok code ∧ ends (.fenceLend req c) (if code / 4 = 0 then RSt.ok else RSt.fenced)
    (if code / 4 = 0 then 2 else code)) ∧
  (st = 2 → ends (.fence req c) RSt.ok (code - 1) ∧ ends (.fenceLend req c) RSt.ok code) ∧
  (st = 3 → ∀ i ∈ [Instr.fence req c, .fenceLend req c, .unfence req c, .selftest req c tc ts lend], ends i RSt.dead code) ∧
  (st = 0 → ∀ i ∈ [Instr.unfence req c, .selftest req c tc ts lend], ends i RSt.notFenced code) ∧
  (st = 1 ∨ st = 2 →
    (Nat.testBit code 3 = true → ends (.unfence req c) RSt.factory code) ∧
    (Nat.testBit code 3 = false → Nat.testBit code 2 = true → (Nat.testBit p 0 = false ∨ (st = 1 ∧ Nat.testBit p 1 = false)) →
      ends (.unfence req c) RSt.notTested code) ∧
    (Nat.testBit code 3 = false → (Nat.testBit code 2 = true → Nat.testBit p 0 = true ∧ (st = 1 → Nat.testBit p 1 = true)) →
      ends (.unfence req c) RSt.ok 0)) ∧
  (st = 2 → ends (.selftest req c tc true lend) RSt.lodgerBusy code) ∧
  (st = 1 ∨ (st = 2 ∧ ts = false) → Does (.selftest req c tc ts lend) s fun m' => rstBusy m' c = 1 ∧ m'.rd F.RST_STS_TEST c = 1 ∧
    m'.code c = code ∧ ∃ r, m'.run c = some r ∧ r.op = 5 ∧ r.phase = 3 ∧ r.cores = [c.val])

/-- Cluster commands on the fenced positions of a cluster (R601), and command words that are reserved (R522). -/
def Sys2Proof.Claim.ClusterCommands : Prop := ∀ (req : Requester) (d : LogicDie) (cl : Fin 36) (tc ts : Bool) (v : Word) (s : State),
  privileged req.toNat = true →
  let k := 576 + d.val
  let cores := s.m.rstCores k cl
  let fenced := cores.filter fun c => s.m.code c % 4 == 1 || s.m.code c % 4 == 2
  (rstBusy s.m k = 0 →
    (s.m.rstHeld k 4 cl = false →
      (fenced = [] → Does (.clusterUnfence req d cl) s fun m' => RstEnded m' k RSt.notFenced ∧ m'.codes = s.m.codes) ∧
      (fenced ≠ [] → Does (.clusterUnfence req d cl) s fun m' => rstBusy m' k = 0 ∧ m'.run k = none ∧
        ∀ c ∈ fenced, m'.code c = if (s.m.unfencePos c).2 = RSt.ok then 0 else s.m.code c)) ∧
    (s.m.rstHeld k 5 cl = false →
      (fenced = [] → Does (.clusterSelftest req d cl tc ts) s fun m' => RstEnded m' k RSt.notFenced) ∧
      (fenced ≠ [] → Does (.clusterSelftest req d cl true ts) s fun m' => rstBusy m' k = 1 ∧
        (∀ c ∈ fenced, m'.rd F.RST_STS_TEST c = 1) ∧ ∃ r, m'.run k = some r ∧ r.phase = 3 ∧ r.cores = fenced)) ∧
    (6 ≤ v.toNat % 8 → Does (.rstClCmdReserved req d v) s fun m' => RstEnded m' k RSt.invalid ∧ m'.codes = s.m.codes ∧ SameMem s.m m')) ∧
  (∀ c : CoreId, (v = 0 → To (.rstCmdReserved req c v) s s.m) ∧ (6 ≤ v.toNat % 8 ∨ 64 ≤ v.toNat → rstBusy s.m c = 0 →
    Does (.rstCmdReserved req c v) s fun m' => RstEnded m' c RSt.invalid ∧ m'.codes = s.m.codes ∧ SameMem s.m m')) ∧
  (2 ≤ v.toNat % 4 → rstBusy s.m 580 = 0 → Does (.rstPartCmdReserved req v) s fun m' => RstEnded m' 580 RSt.invalid ∧
    m'.codes = s.m.codes ∧ SameMem s.m m')

/-- Reset commands, and the commands of a cluster's block. -/
def Obligations.ClusterResets : Prop := Claim.ResetCommands ∧ Claim.ClusterCommands

/-- The steps of a reset (R253, R511, R512, R513, R519): its drain ends, and a fence changes the codes and loses the contents of the slices,
which hold free values from now on (the model's choice that these have good codes, log entry 89); it releases the
cores that their running partitions hold and ends; a command that was held is performed once nothing holds it. -/
def Sys2Proof.Claim.ResetSteps : Prop := ∀ (u : RstUnit) (s : State) (r : RstRun), s.m.run (rstKey u) = some r →
  (r.phase = 1 → NoneHeld s.m → s.m.slow = [] → (∀ t b, (s.m.slice t).bop = some b → b.abandoned = false) →
    Does (.resetDrainDone u) s fun m' => m'.run (rstKey u) = some { r with phase := 2 } ∧
    (∀ o ∈ m'.net.outst, o.src ∈ r.cores → o.stale = true) ∧
    (r.op = 1 → m'.codes = s.m.codes) ∧ (r.op = 2 ∨ r.op = 3 → ∀ c ∈ r.cores, m'.code c = if r.op = 3 then 2 else 1) ∧
    (r.op = 2 → ∀ c ∈ r.cores, c < 576 → ∃ n, (m'.slice c).fill = some (some n) ∧
      ∀ o, o < 2 ^ 31 → m'.byte (nearKey c o) = Config.freeByte (n + o))) ∧
  (r.phase ≠ 1 → To (.resetDrainDone u) s s.m) ∧
  (r.phase = 2 → r.waits = [] → RstTidy s.m → (∀ e ∈ s.m.rst, ∀ x, e.2 = some x → rstKey u ∉ x.waits) →
    Does (.resetRelease u) s fun m' => RstEnded m' (rstKey u) RSt.ok ∧ (∀ c ∈ r.cores, c ∉ m'.resetting) ∧
      ∀ c ∈ r.cores, c < 576 → r.op = 1 → ∀ e, s.m.mayRelease c = true → s.m.coreUnclocked c = false → s.m.prog c = some e →
        (m'.core c).st = .running ∧ (m'.core c).pc = BitVec.ofNat 64 e.entry ∧ (m'.core c).g = []) ∧
  (r.phase ≠ 2 → To (.resetRelease u) s s.m) ∧
  (r.phase = 0 → s.m.rstHeld (rstKey u) r.op r.unit = false →
    To (.heldCommandResume u) s (s.m.rstPerform (rstKey u) r.op r.bits r.unit)) ∧
  (r.phase ≠ 0 ∨ s.m.rstHeld (rstKey u) r.op r.unit = true → To (.heldCommandResume u) s s.m)

/-- The end of a self-test of a position (R518), and a forced fence (R516). -/
def Sys2Proof.Claim.SelfTestResults : Prop := ∀ (c : CoreId) (cf sf : Bool) (s : State),
  (∀ r, s.m.run c = some r → r.phase = 3 → r.cores = [c.val] →
    let code := s.m.code c
    let tc := Nat.testBit r.bits 3
    let ts := Nat.testBit r.bits 4 && code % 4 == 1
    let x := tc && cf
    let y := ts && sf
    Does (.selftestDone c cf sf) s fun m' => RstEnded m' c RSt.ok ∧
      m'.rd F.RST_STS_TEST c = 2 + (if x then 1 else 0) + (if y then 2 else 0) ∧
      (x = false → y = false → m'.code c = code) ∧
      (x = true ∨ y = true → m'.code c = code / 8 * 8 + 4 +
        if x && !y && Nat.testBit r.bits 5 && code % 4 == 1 then (if ts then 2 else 1) else code % 4)) ∧
  (s.m.good c = false ∨ s.m.ueRose c = false → To (.forcedFence c) s s.m) ∧
  (s.m.good c = true → s.m.ueRose c = true → s.m.load = none → s.m.rst = [] → NoneHeld s.m → s.m.slow = [] →
    (∀ t, (s.m.slice t).bop = none) → Does (.forcedFence c) s fun m' =>
    m'.code c = 5 ∧ (m'.core c).st = .held ∧ c.val ∉ m'.resetting ∧ Nat.testBit (m'.rd F.PCE_EVSTS_EVENTS 0) 10 = true)

/-- The steps that end a reset, and the self-tests. -/
def Obligations.ResetAndTest : Prop := Claim.ResetSteps ∧ Claim.SelfTestResults

/-! ### Bring-up, module reset, the Ledger -/

/-- Bytes of memory in a range of keys read 0, and every other byte as before. -/
def Sys2Proof.Claim.Cleared (m m' : Module) (lo hi : Nat) : Prop := ∀ a, m'.byte a = if lo ≤ a ∧ a < hi then 0 else m.byte a

/-- The steps of bring-up (R501, R502, R503, R505): each takes the module to its next stage, and a local machine leaves its memories
cleared; that a tripped module waits for its restart and takes no POWER_GOOD is the model's choice (log entry 71); the fast path goes on by its own steps, clears the live slices, keeps far memory, and falls back on a failure. -/
def Obligations.BringUpSteps : Prop := ∀ (s : State),
  (s.m.stage = 0 → s.m.svc.trip = none → Does .powerGood s fun m' => m'.stage = Stage.firmware ∧ m'.fwOk = false ∧
    m'.rd F.BRG_MOD_STS_READY 4 = 0 ∧ SameMem s.m m') ∧
  (s.m.stage ≠ 0 ∨ s.m.svc.trip ≠ none → To .powerGood s s.m) ∧
  (s.m.stage = Stage.fuses → s.m.boot.fast = false → Does .fusesRead s fun m' => m'.stage = Stage.localTests ∧ m'.lanes = [] ∧
    m'.lockLost = [] ∧ SameMem s.m m' ∧ (∀ d, d < 4 → m'.rd F.BRG_LOCAL_STS_MACHINES d = 0x555) ∧
    ∀ l, l < 6 → m'.d2dState l = if s.m.d2dState l = D2d.down then D2d.train else s.m.d2dState l) ∧
  (∀ (d : LogicDie) (k : Fin 6) (failed : List Nat), s.m.stage = Stage.localTests → s.m.machine d k = 1 →
    Does (.localMachineDone d k failed) s fun m' => m'.stage = Stage.localTests ∧ m'.machine d k = (if failed = [] then 2 else 3) ∧
      (∀ j, j < 6 → j ≠ k.val → m'.machine d j = s.m.machine d j) ∧
      (k.val = 0 → Cleared s.m m' (nearKey (144 * d.val) 0) (nearKey (144 * d.val + 144) 0)) ∧
      (k.val = 1 → Cleared s.m m' (scrKey (144 * d.val) 0) (scrKey (144 * d.val + 144) 0)) ∧
      (k.val = 3 → Cleared s.m m' (farKey (5 * d.val) 0) (farKey (5 * d.val + 5) 0)) ∧
      (k.val = 2 ∨ 3 < k.val → SameMem s.m m')) ∧
  (s.m.stage = Stage.localTests → s.m.boot.fast = false → s.m.platLoaded = false → (∀ d k, d < 4 → k < 6 → 2 ≤ s.m.machine d k) →
    Does .floorplanPublish s fun m' => m'.stage = Stage.awaitPlat ∧ (∀ c, c < 576 → m'.code c = s.m.builtCode c) ∧ m'.flp.valid = true ∧
      m'.flp.gen = (s.m.flp.gen + 1) % 2 ^ 32 ∧ m'.rd F.BRG_MOD_STS_READY 4 = 0 ∧ m'.rd F.BRG_MOD_STS_WARM 4 = 0 ∧ SameMem s.m m') ∧
  (s.m.boot.fast = true →
    (Does (.fastPathStepDone false) s fun m' => m'.stage = Stage.fuses ∧ m'.boot.fast = false ∧ m'.rd F.BRG_MOD_STS_FALLBACK 4 = 1) ∧
    (s.m.boot.step = 0 → Does (.fastPathStepDone true) s fun m' => m'.stage = Stage.fuses ∧ m'.boot.step = 1) ∧
    (s.m.boot.step = 1 → Does (.fastPathStepDone true) s fun m' => m'.stage = Stage.localTests ∧ m'.boot.step = 2) ∧
    (s.m.boot.step = 2 → (∀ l, l < 6 → s.m.d2dUp l = true) → Does (.fastPathStepDone true) s fun m' => m'.stage = Stage.floorplan ∧
      (∀ c k, c < 576 → Tbl.get 0 s.m.ret.codes c % 2 = 0 → nearKey c 0 ≤ k → k < nearKey (c + 1) 0 → m'.byte k = 0) ∧
      ∀ k, farKey 0 0 ≤ k → m'.byte k = s.m.byte k) ∧
    (3 ≤ s.m.boot.step → s.m.platLoaded = false → Does (.fastPathStepDone true) s fun m' => m'.stage = Stage.awaitPlat ∧
      m'.codes = s.m.ret.codes ∧ m'.boot.fast = false ∧ m'.rd F.BRG_MOD_STS_WARM 4 = 1 ∧ SameMem s.m m'))

/-- Module reset and loss of power (R504, R509, R514, R523): a reset needs the key, a privileged requester and power; it returns every
register to its reset word but the bring-up's own and two that the Ledger gives, holds every core, gives the positions the fused codes, and
keeps far memory alone: scratch reads
zero, and slices read free values until bring-up clears them (the model's choice, log entry 89); a loss of power loses every register and all memory, and keeps the NOR, the
fuses and the Ledger's banks, whose newest records give the owner lock and the lifetime counters. -/
def Obligations.ModuleResets : Prop := ∀ (req : Requester) (cold : Bool) (key : BitVec 16) (s : State),
  (privileged req.toNat = false ∨ key ≠ 0x0940 ∨ s.m.stage = 0 → To (.moduleReset req cold key) s s.m) ∧
  (privileged req.toNat = true → key = 0x0940 → s.m.stage ≠ 0 → Does (.moduleReset req cold key) s fun m' =>
    (m'.stage = Stage.firmware ∨ m'.stage = Stage.fuses) ∧ m'.cores = [] ∧ m'.plat = {} ∧ m'.codes = s.m.fuses.factory ∧ m'.fuses = s.m.fuses ∧
    (∀ a, isFarKey a = true ∨ a < scrKey 576 0 ∨ (nearKey 0 0 ≤ a ∧ a < nearKey 576 0) → m'.byte a =
      if isFarKey a then s.m.byte a else if a < scrKey 576 0 then 0 else Config.freeByte (s.m.freeCtr + (a - nearKey 0 0))) ∧
    ∀ r u i, u < 1024 → i < 2048 → r ∉ [Reg.BRG_MOD_STS, .BRG_MOD_TIME, .FWU_OWNER, .LDG_STS] → m'.word r u i = r.resetWord i) ∧
  (Does .powerLoss s fun m' => m'.stage = 0 ∧ m'.cores = [] ∧ m'.mem = [] ∧ m'.nor = s.m.nor ∧ m'.fuses = s.m.fuses ∧
    m'.ledger.a = s.m.ledger.a ∧ m'.ledger.b = s.m.ledger.b ∧ m'.ret = {} ∧ m'.jr.state = s.m.jr.state ∧
    m'.life = s.m.ledger.life ∧ m'.rd F.FWU_OWNER_LOCK 4 = (if s.m.ledger.lock then 1 else 0) ∧
    ∀ r u i, u < 1024 → i < 2048 → r ≠ .FWU_OWNER → m'.word r u i = r.resetWord i)

/-- The Ledger (R591, R592, R593): the oldest record issued is appended with the next sequence number, or sets FAULT where it does not fit or its
write fails; a write that fails leaves an invalid record in its place, so that nothing after it in its bank is read (that it takes the place
and the sequence number of the one that should stand there is the model's choice, log entry 70); below 32 KiB a compaction begins in the
other bank, and its end makes that bank current. -/
def Sys2Proof.Claim.LedgerResults : Prop := ∀ (s : State),
  let l := s.m.ledger
  (∀ t p rest, l.queue = (t, p) :: rest →
    let r (ok : Bool) : LedRec := ⟨t, l.nextKey t, (l.seq + 1) % 2 ^ 32, p, ok⟩
    (∀ ok, (r ok).size ≤ l.free → Does (.ledgerAppend ok) s fun m' => m'.ledger.queue = rest ∧ m'.ledger.current = l.current ++ [r ok] ∧
      m'.ledger.bankB = l.bankB ∧ m'.ledger.seq = (l.seq + 1) % 2 ^ 32 ∧ SameMem s.m m' ∧ (ok = false → m'.rd F.LDG_STS_FAULT 4 = 1 ∧
        ∀ x, readable (m'.ledger.current ++ x) = readable l.current)) ∧
    (∀ ok, l.free < (r ok).size → Does (.ledgerAppend ok) s fun m' => m'.ledger = { l with queue := rest } ∧
      m'.rd F.LDG_STS_FAULT 4 = 1 ∧ SameMem s.m m')) ∧
  (l.compacting = false → l.free < 32768 → Does .ledgerCompact s fun m' => m'.ledger.compacting = true ∧ m'.ledger.current = l.current ∧
    (if l.bankB then m'.ledger.a else m'.ledger.b) = []) ∧
  (l.compacting = true ∨ 32768 ≤ l.free → To .ledgerCompact s s.m) ∧
  (l.compacting = true → Does .ledgerCompactionDone s fun m' => m'.ledger.compacting = false ∧ m'.ledger.bankB = !l.bankB ∧
    m'.ledger.seq = (l.seq + 1) % 2 ^ 32 ∧ ∃ kept, m'.ledger.current = kept ++ l.current.drop l.mark ++ [⟨9, 0, (l.seq + 1) % 2 ^ 32, [], true⟩]) ∧
  (Does .lifetimeWrite s fun m' => m'.ledger = { l with queue := l.queue ++ [(4, s.m.life.payload)] })

/-- The boot (R585, R586, R587): with no staged image a valid active one starts; a valid staged one begins its exchange; one that fails is
rejected; with no image to start the module is in recovery. A phase of the exchange copies one block and no other byte of the NOR, and
is journalled; that a flash fault in it leaves the module in recovery for this boot is the model's choice (log entry 69). -/
def Sys2Proof.Claim.BootResults : Prop := ∀ (s : State), s.m.stage = Stage.firmware →
  (s.m.boot.exch = 0 → s.m.rd F.SVC_STS_RECOVERY 4 = 0 →
    (s.m.jr.state = Slot.empty → Does .bootVerify s fun m' => m'.nor = s.m.nor ∧
      if s.m.imgVerify Nor.active = 0 then m'.stage = Stage.fuses ∧ m'.fwOk = true ∧ m'.jr = s.m.jr
      else m'.fwOk = false ∧ m'.rd F.SVC_STS_RECOVERY 4 = 1 ∧ m'.rd F.BRG_MOD_STS_REASON 4 = 7) ∧
    (s.m.jr.state = Slot.staged → s.m.svc.open' = false → s.m.svc.low = false → s.m.svc.locked = false →
      Does .bootVerify s fun m' => m'.nor = s.m.nor ∧
        if s.m.imgVerify Nor.staging = 0 then m'.stage = Stage.firmware ∧ m'.boot.exch = 1 ∧ m'.jr.state = Slot.exchanging ∧ m'.jr.dir = 0 ∧
          m'.jr.phase = 0 ∧ m'.jr.block = 0
        else m'.jr.state = Slot.rejected ∧ (m'.fwOk = true ↔ s.m.imgVerify Nor.active = 0) ∧
          (s.m.imgVerify Nor.active = 0 → m'.stage = Stage.fuses))) ∧
  (s.m.boot.exch = 1 → ∀ ok, To .bootVerify s s.m ∧ (ok = false → Does (.exchangePhase ok) s fun m' => m'.jr = s.m.jr ∧ m'.fwOk = false ∧
    m'.rd F.SVC_STS_RECOVERY 4 = 1)) ∧
  (s.m.boot.exch = 1 → Tbl.wf 255 s.m.nor = true →
    let j := s.m.jr
    let i := if j.phase = 3 then j.block + 1 else j.block
    let ph := if j.phase = 3 then 1 else j.phase + 1
    let a := Nor.active + i * norBlock
    let b := Nor.staging + i * norBlock
    let (src, dst) := if ph = 1 then (a, Nor.exchange) else if ph = 2 then (b, a) else (Nor.exchange, b)
    i < 512 → Does (.exchangePhase true) s fun m' => (∀ o, o < norBlock → m'.norByte (dst + o) = s.m.norByte (src + o)) ∧
      (∀ o, o < dst ∨ dst + norBlock ≤ o → m'.norByte o = s.m.norByte o) ∧ m'.jr = { j with block := i, phase := ph } ∧
      m'.boot.exch = if m'.jr.complete then 2 else 1)

/-- The Ledger, and what booting an image does. -/
def Obligations.LedgerAndBoot : Prop := Claim.LedgerResults ∧ Claim.BootResults

/-! ### Housekeeping -/

/-- A trip of housekeeping (R543, R544): the supplies are off, so every core and all memory is lost; the time is kept, a thermal record
waits to be written, and the trip is counted. -/
def Sys2Proof.Claim.Tripped (m m' : Module) : Prop :=
  m'.stage = 0 ∧ m'.cores = [] ∧ m'.mem = [] ∧ m'.svc.trip = some m.now ∧ m'.svc.record.isSome = true ∧ m'.life.trips = m.life.trips + 1

/-- The global stage of a round that read m and ends in m' (R533, R535, R536): over the limit G rises, to 12 at most, and 50 such rounds at 12
cap every far device; 8 rounds below 0.95 of it lower G and lift the cap; else G stays. Every core skips at G at least. -/
def Sys2Proof.Claim.GlobalStage (m m' : Module) : Prop :=
  let g := m.gLevel
  let unheld (x : Module) : Nat := x.rd F.THM_STS_POWER_UNHELD 4
  let noted : Prop := Nat.testBit (m'.rd F.PCE_EVSTS_EVENTS 0) 17 = true
  (m.overPower = true → m'.gLevel = (if g < 12 then g + 1 else g) ∧ m'.hsk.powLow = 0 ∧ (g = 0 → noted) ∧
    (50 ≤ m.hsk.powHigh → unheld m' = 1 ∧ (unheld m ≠ 1 → noted ∧ m'.hsk.capped = true ∧ ∀ j, 8 ≤ m'.farLevel j))) ∧
  (m.overPower = false → m.underPower = true →
    if m.hsk.powLow + 1 < 8 ∨ g = 0 then m'.gLevel = g ∧ m'.hsk.powLow = m.hsk.powLow + 1
    else m'.gLevel = g - 1 ∧ m'.hsk.powLow = 0 ∧ m'.hsk.capped = false ∧ unheld m' = 0 ∧ (g = 1 → noted)) ∧
  (m.overPower = false → m.underPower = false → m'.gLevel = g ∧ m'.hsk.powLow = 0) ∧
  ∀ c, m'.gLevel ≤ m'.skip c

/-- A housekeeping round (R526, R527, R535, R536, R543): every sensor of the logic dies shows its reading and the round is counted; where a
condition of a trip then holds, the module trips, and else the global stage follows the power. A comparator of a temperature sensor that it
watches trips the module, any other command of one changes nothing; the thermal record is then written. That nothing happens without power
(log entry 4) and that a reading the command does not give is 0 (log entry 72) are the model's choices. -/
def Sys2Proof.Claim.HousekeepingResults : Prop := ∀ (s : State),
  (∀ logic hub shorts, (s.m.stage = 0 → To (.housekeepingRound logic hub shorts) s s.m) ∧
    (s.m.stage ≠ 0 →
      let x := s.m.roundRead logic hub shorts
      (∀ t, x.tripCause = some t → To (.housekeepingRound logic hub shorts) s (x.trip t) ∧ Tripped s.m (x.trip t)) ∧
      (x.tripCause = none → Does (.housekeepingRound logic hub shorts) s fun m' => GlobalStage x m' ∧
        SameMem s.m m' ∧ m'.cores = s.m.cores ∧ m'.rd F.HSK_ROUND_ROUND 4 = (s.m.rd F.HSK_ROUND_ROUND 4 + 1) % 2 ^ 32 ∧
        ∀ d ch, d < 4 → ch < 70 → m'.rd F.HSK_CH_VALUE d ch = ((logic.getD d []).getD ch 0).toNat))) ∧
  (∀ (st : DieId) (ch : Fin 70),
    (s.m.stage ≠ 0 → chanKind st ch = 0 → (st.val = 4 ∨ ch.val < 52) → Does (.comparatorTrip st ch) s (Tripped s.m)) ∧
    (s.m.stage = 0 ∨ chanKind st ch ≠ 0 ∨ (st.val < 4 ∧ 52 ≤ ch.val) → To (.comparatorTrip st ch) s s.m)) ∧
  (∀ r, s.m.svc.record = some r → Does .thermalRecordWritten s fun m' => m'.svc.record = none ∧
    ((∃ k q, m'.ledger.current = s.m.ledger.current ++ [⟨1, k, q, r, true⟩]) ∨ m'.rd F.LDG_STS_FAULT 4 = 1)) ∧
  (s.m.svc.record = none → To .thermalRecordWritten s s.m)

/-- Throttling of a die (R532): at most one unit rises, one whose reading has reached its throttle point by the greatest excess, and by one
level; with no unit there, none rises. -/
def Sys2Proof.Claim.ThrottleRises : Prop := ∀ (m : Module) (d : Nat), d < 4 →
  let r := m.throttle d
  ((∀ u, u < 31 → m.unitTemp d u < throttleAt u) → r.2 = []) ∧
  (∀ x ∈ r.2, ∃ u, u < 31 ∧ r.2 = [d * 32 + u] ∧ throttleAt u ≤ m.unitTemp d u ∧ m.level d u < floorOf u ∧
    r.1.level d u = m.level d u + 1 ∧ ∀ v, v < 31 → m.unitTemp d v - throttleAt v ≤ m.unitTemp d u - throttleAt u) ∧
  ∀ u, u < 31 → throttleAt u ≤ m.unitTemp d u → r.2 ≠ [d * 32 + u] → r.1.level d u = m.level d u

/-- Rounds of the sensors, and the change of the global stage. -/
def Obligations.ThermalRounds : Prop := Claim.HousekeepingResults ∧ Claim.ThrottleRises

/-! ### The service port -/

/-- A control response leaves a port that has a dynamic address, after the in-band interrupt that announces it, and none leaves one that has not. -/
def Sys2Proof.Claim.Controls (m m' : Module) (cmd code : Nat) (data : List Byte) : Prop :=
  m'.outbox = (if m.reachable then .control cmd code data :: .ibi Config.ibiByte :: m.outbox else m.outbox) ∧ SameMem m m' ∧ m'.nor = m.nor

/-- Dynamic addresses and MCTP control (R575): an address is taken by a port without one, and a control message of the port is answered. The
response bytes and completion codes (log entry 75) and the silence of a port without an address (log entry 74) are the model's choices. -/
def Sys2Proof.Claim.ServiceControl : Prop := ∀ (s : State) (addr static : BitVec 7) (op : Fin 4) (e : Byte),
  (s.m.reachable = true → To (.entdaa addr) s s.m ∧ To (.setdasa static addr) s s.m) ∧
  (s.m.reachable = false →
    i3cPid / 2 ^ 16 % 2 ^ 16 = 0x0940 ∧ (Does (.entdaa addr) s fun m' => m'.rd F.SVC_STS_DYN_ADDR 4 = addr.toNat ∧ m'.outbox = .control 7 0 (leBytes 6 i3cPid) :: s.m.outbox) ∧
    (static = 0x4A → To (.setdasa static addr) s (s.m.wr F.SVC_STS_DYN_ADDR 4 addr.toNat)) ∧
    (static ≠ 0x4A → To (.setdasa static addr) s s.m)) ∧
  (s.m.reachable = true → op.val < 2 → e ≠ 0 → e ≠ 255 → Does (.setEndpointId op e) s fun m' => m'.svc.eid = e.toNat ∧
    Controls s.m m' 1 0 [0, e, 0]) ∧
  (2 ≤ op.val ∨ e = 0 ∨ e = 255 → Does (.setEndpointId op e) s fun m' => m'.svc = s.m.svc ∧ Controls s.m m' 1 2 []) ∧
  (Does .getEndpointId s fun m' => m'.svc = s.m.svc ∧ Controls s.m m' 2 0 [BitVec.ofNat 8 s.m.svc.eid, 0, 0]) ∧
  (e = 0 ∨ e = 0x7E ∨ e = 0xFF → Does (.getMctpVersionSupport e) s fun m' => ∃ v : List Byte, v.length = 4 ∧ Controls s.m m' 4 0 (1 :: v)) ∧
  (e ≠ 0 → e ≠ 0x7E → e ≠ 0xFF → Does (.getMctpVersionSupport e) s fun m' => Controls s.m m' 4 0x80 []) ∧
  (Does .getMessageTypeSupport s fun m' => Controls s.m m' 5 0 [1, 0x7E]) ∧
  (e = 0 → Does (.getVendorDefinedSupport e) s fun m' => ∃ v : List Byte, v.length = 2 ∧
    Controls s.m m' 6 0 ([0xFF, 0, BitVec.ofNat 8 (Config.vendorId.toNat / 256), BitVec.ofNat 8 Config.vendorId.toNat] ++ v)) ∧
  (e ≠ 0 → Does (.getVendorDefinedSupport e) s fun m' => Controls s.m m' 6 2 [])

/-- A service request is answered (R575, R576): the response leaves behind its in-band interrupt, and SVC_STS shows the command and its status. -/
def Sys2Proof.Claim.Replies (m m' : Module) (cmd : Nat) (inst : Byte) (status : Nat) (payload : List Byte) : Prop :=
  m'.outbox = .service cmd inst.toNat status payload :: .ibi Config.ibiByte :: m.outbox ∧ m'.rd F.SVC_STS_LAST_CMD 4 = cmd ∧
    m'.rd F.SVC_STS_LAST_STATUS 4 = status

/-- Service requests of a port that is reachable and free (R577, R583, R584, R588, R591): what each answers and what it leaves of the
staging slot; a refusal leaves the slot, or abandons the transfer of STAGE_DATA and STAGE_END. The order of the checks, R584's refusals before SEQUENCE and
SEQUENCE before RANGE, and STAGE_CANCEL with nothing to cancel ending SEQUENCE are the model's choices (log entry 74). -/
def Sys2Proof.Claim.ServiceRequests : Prop := ∀ (s : State) (inst : Byte), s.m.reachable = true → s.m.svcBusy = false →
  let j := s.m.jr
  let answers (i : Instr) (cmd st : Nat) (payload : List Byte) : Prop :=
    Does i s fun m' => Replies s.m m' cmd inst st payload ∧ m'.jr = j ∧ m'.nor = s.m.nor ∧ SameMem s.m m'
  (Does (.getInfo inst) s fun m' => m'.jr = j ∧ SameMem s.m m' ∧ ∃ p : List Byte, p.length = 48 ∧ Replies s.m m' 1 inst 0 p ∧
    p.take 4 = leBytes 4 (s.m.word .BRG_MOD_STS 4).toNat) ∧
  (∀ (len ver off : Word) (data digest : List Byte) (ok : Bool),
    (∀ r, s.m.refusal = some r → answers (.stageBegin inst len ver) 2 r [] ∧ answers (.rollback inst) 6 r [] ∧
      (64 ≤ data.length → data.length ≤ 4096 → data.length % 64 = 0 → Does (.stageData inst off data ok) s fun m' =>
        Replies s.m m' 3 inst r [] ∧ m'.jr = (if j.state = Slot.receiving then {} else j) ∧ m'.nor = s.m.nor) ∧
      (digest.length = 64 → Does (.stageEnd inst digest) s fun m' => Replies s.m m' 4 inst r [] ∧
        m'.jr = (if j.state = Slot.receiving then {} else j) ∧ m'.nor = s.m.nor)) ∧
    (s.m.refusal = none →
      (j.state = Slot.receiving ∨ j.state = Slot.exchanging → answers (.stageBegin inst len ver) 2 Sv.sequence []) ∧
      (j.state ≠ Slot.receiving → j.state ≠ Slot.exchanging →
        (65536 ≤ len.toNat → len.toNat ≤ 33554432 → Does (.stageBegin inst len ver) s fun m' => Replies s.m m' 2 inst 0 [] ∧
          m'.jr = { state := Slot.receiving, ver := ver.toNat, len := len.toNat } ∧ m'.nor = s.m.nor) ∧
        (len.toNat < 65536 ∨ 33554432 < len.toNat → answers (.stageBegin inst len ver) 2 Sv.range [])) ∧
      (64 ≤ data.length → data.length ≤ 4096 → data.length % 64 = 0 ∨ off.toNat + data.length = j.len → j.state = Slot.receiving →
        (off.toNat + data.length ≤ j.bytes → answers (.stageData inst off data ok) 3 0 []) ∧
        (j.bytes < off.toNat + data.length → off.toNat ≠ j.bytes → answers (.stageData inst off data ok) 3 Sv.sequence []) ∧
        (off.toNat = j.bytes → j.len < off.toNat + data.length → answers (.stageData inst off data ok) 3 Sv.range []) ∧
        (off.toNat + data.length ≤ j.len → off.toNat = j.bytes →
          answers (.stageData inst off data false) 3 Sv.flashFault [] ∧
          Does (.stageData inst off data true) s fun m' => Replies s.m m' 3 inst 0 [] ∧ m'.jr = { j with bytes := j.bytes + data.length } ∧
            ∀ i, i < data.length → m'.norByte (Nor.staging + off.toNat + i) = data.getD i 0)) ∧
      (digest.length = 64 → j.state = Slot.receiving →
        Does (.stageEnd inst digest) s fun m' => m'.nor = s.m.nor ∧ SameMem s.m m' ∧
          if s.m.stagedOk digest then Replies s.m m' 4 inst 0 [] ∧ m'.jr = { j with state := Slot.staged, digest := digest }
          else Replies s.m m' 4 inst Sv.digestMismatch [] ∧ m'.jr = j) ∧
      (j.state = Slot.previous → Does (.rollback inst) s fun m' => Replies s.m m' 6 inst 0 [] ∧ m'.jr.state = Slot.staged ∧ m'.jr.dir = 0 ∧
        m'.nor = s.m.nor ∧ m'.life.rollbacks = s.m.life.rollbacks + 1) ∧
      (j.state ≠ Slot.previous → answers (.rollback inst) 6 Sv.notFound []))) ∧
  (j.state = Slot.receiving ∨ j.state = Slot.staged → Does (.stageCancel inst) s fun m' => Replies s.m m' 5 inst 0 [] ∧ m'.jr = {}) ∧
  (j.state ≠ Slot.receiving → j.state ≠ Slot.staged → answers (.stageCancel inst) 5 Sv.sequence []) ∧
  (∀ (t rsvd : Byte) (i : BitVec 16),
    (rsvd ≠ 0 ∨ t = 0 ∨ 9 < t.toNat → answers (.readLedger inst t rsvd i) 7 Sv.invalid []) ∧
    (rsvd = 0 → t ≠ 0 → t.toNat ≤ 9 → i.toNat < max 1 (ledKeep t.toNat) →
      (∀ r, (s.m.ledger.records t.toNat)[i.toNat]? = some r → answers (.readLedger inst t rsvd i) 7 0 r.bytes) ∧
      ((s.m.ledger.records t.toNat)[i.toNat]? = none → answers (.readLedger inst t rsvd i) 7 Sv.notFound []))) ∧
  (∀ (off len : Word), 0 < len.toNat → len.toNat ≤ 4096 → Does (.readObject inst 0 0 off len) s fun m' => m'.jr = j ∧ SameMem s.m m' ∧
    if Config.certChain.length ≤ off.toNat then Replies s.m m' 8 inst Sv.range []
    else Replies s.m m' 8 inst 0 ((Config.certChain.drop off.toNat).take len.toNat)) ∧
  (∀ (off len : Word), s.m.svc.report = none → answers (.readObject inst 1 0 off len) 8 Sv.notFound []) ∧
  (∀ nonce : List Byte, (nonce.length ≠ 32 → answers (.attest inst nonce) 9 Sv.invalid []) ∧
    (nonce.length = 32 → s.m.svc.att = none → Does (.attest inst nonce) s fun m' => m'.outbox = s.m.outbox ∧ m'.jr = j ∧
      m'.svc.att = some ⟨false, inst.toNat, 0, s.m.attBody nonce⟩ ∧ m'.rd F.ATT_STS_BUSY 4 = 1)) ∧
  ∀ cmd : Fin 128, answers (.serviceReservedCommand inst cmd) cmd Sv.invalid []

/-- Service requests of a port that is busy or has no address (R575, R579): BUSY, or nothing. RESTART (R544, R588): with a mode
or reserved bytes out of range it is invalid; otherwise it is answered and resets the module, one without power too; within 30 s of a trip it
comes too early. That the silence is one of requests and that BUSY does not refuse RESTART are the model's choices (log entry 74). -/
def Sys2Proof.Claim.ServiceRefusals : Prop := ∀ (s : State) (inst : Byte) (a b c : Word) (data : List Byte) (ok : Bool) (x y : Byte)
  (i : BitVec 16) (z : BitVec 24) (n : Fin 128) (mode : Byte),
  (∀ cmd q, (cmd, q) ∈ [(1, Instr.getInfo inst), (2, .stageBegin inst a b), (3, .stageData inst c data ok), (4, .stageEnd inst data),
      (5, .stageCancel inst), (6, .rollback inst), (7, .readLedger inst x y i), (8, .readObject inst x z a b), (9, .attest inst data),
      (n.val, .serviceReservedCommand inst n)] →
    (s.m.reachable = false → To q s s.m) ∧
    (s.m.reachable = true → s.m.svcBusy = true → Does q s fun m' => Replies s.m m' cmd inst Sv.busy [] ∧ m'.jr = s.m.jr ∧ m'.nor = s.m.nor)) ∧
  (s.m.reachable = false → To (.restart inst mode z) s s.m) ∧
  (s.m.reachable = true →
    (1 < mode.toNat ∨ z ≠ 0 → Does (.restart inst mode z) s fun m' => Replies s.m m' 10 inst Sv.invalid [] ∧ m'.cores = s.m.cores) ∧
    (mode.toNat ≤ 1 → z = 0 → s.m.svc.trip = none → s.m.stage ≠ 0 →
      To (.restart inst mode z) s ((s.m.svcAnswer 10 inst 0).moduleReset (mode == 1))) ∧
    (mode.toNat ≤ 1 → z = 0 → s.m.svc.trip = none → s.m.stage = 0 →
      To (.restart inst mode z) s ((s.m.svcAnswer 10 inst 0).kept true true).dropTransfer) ∧
    (∀ t, mode.toNat ≤ 1 → z = 0 → s.m.svc.trip = some t →
      (s.m.now < t + 30_000_000_000 → Does (.restart inst mode z) s fun m' => Replies s.m m' 10 inst Sv.tooEarly [] ∧ m'.svc.trip = some t) ∧
      (t + 30_000_000_000 ≤ s.m.now → Does (.restart inst mode z) s fun m' => m'.svc.trip = none ∧ m'.stage = Stage.firmware ∧
        m'.outbox = .service 10 inst.toNat 0 [] :: .ibi Config.ibiByte :: s.m.outbox)))

/-- The service port's control messages, and requests that it refuses. -/
def Obligations.ServicePort : Prop := Claim.ServiceControl ∧ Claim.ServiceRefusals

/-- The seating interlock, the owner lock and attestation (R594, R598, R599): only the physical function writes the lock, whose field reads
what was written and which takes effect when its record is valid; a report is written to its destination or held as the object, and answered; one that must wait for its destination goes on later. -/
def Sys2Proof.Claim.OwnerAndReports : Prop := ∀ (s : State) (req : Requester) (v : Word),
  (∀ o, To (.seatingInterlockChange o) s { s.m with svc := { s.m.svc with open' := o } }) ∧
  (req.toNat ≠ reqHost → To (.fwuOwnerWrite req v) s s.m) ∧
  (req.toNat = reqHost → Does (.fwuOwnerWrite req v) s fun m' => m'.svc.lock = some (v.toNat % 2 == 1) ∧
    m'.rd F.FWU_OWNER_LOCK 4 = v.toNat % 2 ∧ m'.svc.locked = s.m.svc.locked ∧ m'.ledger = { s.m.ledger with queue := s.m.ledger.queue ++ [(2, leBytes 4 (v.toNat % 2))] }) ∧
  (s.m.svc.lock ≠ none → (∀ r ∈ s.m.ledger.queue, r.1 ≠ 2) → Does .ownerLockValid s fun m' => m'.svc.lock = none ∧
    ∀ r, s.m.ledger.newest 2 = some r → m'.svc.locked = (leNat (r.payload.take 4) % 2 == 1)) ∧
  (privileged req.toNat = false → To (.attGo req) s s.m) ∧
  (privileged req.toNat = true →
    (s.m.svc.att ≠ none → To (.attGo req) s (s.m.wr F.ATT_STS_CMD_LOST 4 1)) ∧
    (s.m.svc.att = none → s.m.attPlace s.m.attDst 50240 = false → Does (.attGo req) s fun m' => m'.rd F.ATT_STS_RESULT 4 = 1 ∧
      m'.rd F.ATT_STS_DONE 4 = 1 ∧ m'.svc = s.m.svc ∧ SameMem s.m m') ∧
    (s.m.svc.att = none → s.m.attPlace s.m.attDst 50240 = true →
      let r := s.m.readSpan askNow 2 s.m.attDst 32
      (r.2.1 ≠ St.ok → Does (.attGo req) s fun m' => m'.rd F.ATT_STS_RESULT 4 = 2 ∧ m'.svc = r.1.svc) ∧
      (r.2.1 = St.ok → Does (.attGo req) s fun m' => m'.svc.att = some ⟨true, 0, s.m.attDst, s.m.attBody r.2.2.1⟩ ∧
        m'.rd F.ATT_STS_BUSY 4 = 1))) ∧
  (∀ x, s.m.svc.att = some x → x.host = false → Does .attestDone s fun m' => m'.svc.att = none ∧ m'.rd F.ATT_STS_BUSY 4 = 0 ∧
    ∃ sig : List Byte, sig.length = 49856 ∧ m'.svc.report = some (x.body ++ sig) ∧ Replies s.m m' 9 (BitVec.ofNat 8 x.inst) 0 []) ∧
  (∀ x, s.m.svc.att = some x → x.host = true → Does .attestDone s fun m' => ∃ sig : List Byte, sig.length = 49856 ∧
    let r := ({ s.m with svc := { s.m.svc with att := none } }.wr F.ATT_STS_BUSY 4 0).writeSpan askOstler (fun _ => false) 14 x.dst (x.body ++ sig)
    if r.2 = St.waits then m' = s.m.backOff r.1
    else if s.m.tokensFor r.1 ostlerIface = false then m' = s.m.starve ostlerIface
    else m'.svc.att = none ∧ m'.mem = r.1.mem ∧ m'.rd F.ATT_STS_BUSY 4 = 0 ∧ m'.rd F.ATT_STS_DONE 4 = 1 ∧
      if r.2 = St.ok then m'.rd F.ATT_STS_RESULT 4 = 0 ∧ m'.svc.report = some (x.body ++ sig)
      else m'.rd F.ATT_STS_RESULT 4 = 2 ∧ m'.svc.report = r.1.svc.report)

/-- Service requests, the owner's key, and the module's reports. -/
def Obligations.ServiceAndOwner : Prop := Claim.ServiceRequests ∧ Claim.OwnerAndReports

/-! ### Observation -/

/-- The freeze line is asserted with an instant and a source (R18, R555 to R557): a counter's visible value leaves out the increments stamped
at the instant or after, the counters themselves are untouched, and the hub and every logic die show FROZEN. -/
def Sys2Proof.Claim.Freezes (m m' : Module) (f source : Nat) : Prop :=
  m'.frozen = true ∧ m'.counters = m.counters ∧ (∀ c n, m'.counter c n + Tbl.get 0 (m.since f) (c * 64 + n) = Tbl.get 0 m.counters (c * 64 + n)) ∧
  (∀ c n, (∀ x ∈ m.incs, x.1 = c * 64 + n → before x.2.1 f = true) → m'.counter c n = Tbl.get 0 m.counters (c * 64 + n)) ∧
  m'.rd F.CTR_FRZ_STS_SOURCE 4 = source ∧ m'.rd F.CTR_FRZ_DATUM_LO_VALUE 4 = f % 2 ^ 32 ∧
  m'.rd F.CTR_FRZ_DATUM_HI_VALUE 4 = f / 2 ^ 32 % 2 ^ 32 ∧ (∀ d, d < 4 → m'.rd F.CTR_DIE_STS_FROZEN d = 1) ∧ SameMem m m'

/-- The freeze line (R556, R557, R573): only the physical function and Ostler command it; FREEZE and a scheduled freeze assert it unless it
is asserted, THAW alone releases it, and a reserved OP sets BAD_OP. -/
def Sys2Proof.Claim.FreezeResults : Prop := ∀ (req : Requester) (op : Fin 3) (s : State),
  let now := s.m.datumOf 4
  (privileged req.toNat = false → ∀ i ∈ [Instr.freeze req, .thaw req, .freezeAt req, .disarm req, .frzCmdReserved req op], To i s s.m) ∧
  (privileged req.toNat = true →
    (s.m.frozen = true → To (.freeze req) s s.m ∧ Does (.thaw req) s fun m' => m'.frozen = false ∧ m'.counters = s.m.counters ∧
      (∀ c n, m'.counter c n = Tbl.get 0 s.m.counters (c * 64 + n)) ∧ ∀ d, d < 4 → m'.rd F.CTR_DIE_STS_FROZEN d = 0) ∧
    (s.m.frozen = false → To (.thaw req) s s.m ∧ Does (.freeze req) s fun m' => Freezes s.m m' now 1) ∧
    (before s.m.frzAt now = false → To (.freezeAt req) s (s.m.wr F.CTR_FRZ_STS_ARMED 4 1)) ∧
    (before s.m.frzAt now = true → s.m.frozen = false → Does (.freezeAt req) s fun m' => Freezes s.m m' now 2) ∧
    To (.disarm req) s (s.m.wr F.CTR_FRZ_STS_ARMED 4 0) ∧ To (.frzCmdReserved req op) s (s.m.wr F.CTR_FRZ_STS_BAD_OP 4 1)) ∧
  (s.m.rd F.CTR_FRZ_STS_ARMED 4 = 1 → before now s.m.frzAt = false → s.m.frozen = false → Does .scheduledFreeze s fun m' =>
    Freezes s.m m' s.m.frzAt 2 ∧ m'.rd F.CTR_FRZ_STS_ARMED 4 = 0) ∧
  (s.m.rd F.CTR_FRZ_STS_ARMED 4 = 0 ∨ before now s.m.frzAt = true → To .scheduledFreeze s s.m)

/-- A sample instant (R558, R562): none passes while the sampler is off, COLLECT is 0 or its last instant stands; an instant that finds the record before not
wholly written is skipped with those passed over; another is recorded, or sets WFAULT and is skipped. -/
def Sys2Proof.Claim.SampleResults : Prop := ∀ (busy : Bool) (s : State),
  let p := s.m.plat.observe.intervalUs * 1000
  let k := s.m.obs.smp
  let i := s.m.datumOf 4 - s.m.datumOf 4 % p
  let passed := (BitVec.ofNat 64 i - BitVec.ofNat 64 k.last).toNat / p - 1
  let seq := (k.seq + passed + 1) % 2 ^ 64
  let skipped (n : Nat) : Sampler := ⟨seq, (k.skipped + n) % 2 ^ 32, k.written, i⟩
  (s.m.rd F.CTR_SMP_STS_ON 4 = 0 ∨ s.m.plat.observe.collect ≠ 1 ∨ p = 0 ∨ before k.last i = false → To (.sampleInstant busy) s s.m) ∧
  (s.m.rd F.CTR_SMP_STS_ON 4 = 1 → s.m.plat.observe.collect = 1 → p ≠ 0 → before k.last i = true →
    (busy = true → Does (.sampleInstant busy) s fun m' => m'.obs.smp = skipped (passed + 1) ∧ SameMem s.m m' ∧
      m'.rd F.CTR_SMP_SKIP_COUNT 4 = min (2 ^ 32 - 1) (s.m.rd F.CTR_SMP_SKIP_COUNT 4 + passed + 1)) ∧
    (busy = false → Does (.sampleInstant busy) s fun m' =>
      (m'.obs.smp = ⟨seq, 0, k.written + 1, i⟩ ∧ m'.rd F.CTR_SMP_SEQ_COUNT 4 = seq % 2 ^ 32) ∨
      (m'.obs.smp = skipped (passed + 1) ∧ m'.rd F.CTR_SMP_STS_WFAULT 4 = 1)))

/-- Freezes and thaws of the counters and the samples of cores. -/
def Obligations.FreezesAndSamples : Prop := Claim.FreezeResults ∧ Claim.SampleResults

/-- Which records a store records (R566): one of a type whose bit in FBK_FILTER is 0 leaves the input queue and nothing else changes; one
of a type whose bit is 1 is recorded in a slot, with the flag of a trigger that it fires; a GAP record is recorded whatever the filter.
A store that has stopped records nothing (R567). -/
def Obligations.RecordFilter : Prop := ∀ (d : DieId) (s : State),
  let x := s.m.store d
  (∀ r t, x.inq = r :: t →
    (Nat.testBit (s.m.rd F.FBK_FILTER_TYPES d * 4) r.type = false → To (.fieldbookRecord d) s (s.m.setStore d { x with inq := t })) ∧
    (Nat.testBit (s.m.rd F.FBK_FILTER_TYPES d * 4) r.type = true → s.m.rd F.FBK_STS_STOPPED d = 0 → Does (.fieldbookRecord d) s fun m' =>
      ∃ i f, Tbl.get none (m'.store d).slots i = some { r with flags := f })) ∧
  ∀ g, x.gap = some g → x.inq.length < 64 → s.m.rd F.FBK_STS_STOPPED d = 0 → Does (.gap d) s fun m' =>
    ∃ i r, Tbl.get none (m'.store d).slots i = some r ∧ r.type = 1 ∧ r.arg0 = g.count ∧ r.arg1 = g.first ∧ r.arg2 = g.last

/-- Where a store places a record that it records, by its mode (R567), while no trigger is configured: the slot, the pointer that moves, and
when recording stops; a store that has stopped counts it as lost. -/
def Obligations.StorePlaces : Prop := ∀ (d : DieId) (s : State) (r : FbRec) (t : List FbRec), (s.m.store d).inq = r :: t →
  Nat.testBit (s.m.rd F.FBK_FILTER_TYPES d * 4) r.type = true → s.m.rd F.FBK_TRIG_CFG_EN d = 0 →
  let n := storeSize d
  let w := s.m.rd F.FBK_WRPTR_VALUE d
  let q := s.m.rd F.FBK_POSTPTR_VALUE d
  let does (P : Module → Prop) : Prop := Does (.fieldbookRecord d) s fun m' => (m'.store d).inq = t ∧ SameMem s.m m' ∧ P m'
  let stored (m' : Module) (i : Nat) : Prop := ∀ j, Tbl.get none (m'.store d).slots j = if j = i then some r else Tbl.get none (s.m.store d).slots j
  (s.m.rd F.FBK_STS_STOPPED d = 1 → does fun m' => m'.rd F.FBK_LOST_VALUE d = min (2 ^ 20 - 1) (s.m.rd F.FBK_LOST_VALUE d + 1) ∧
    m'.rd F.FBK_WRPTR_VALUE d = w ∧ ∀ j, j < n - 1 → Tbl.get none (m'.store d).slots j = Tbl.get none (s.m.store d).slots j) ∧
  (s.m.rd F.FBK_STS_STOPPED d = 0 →
    (s.m.rd F.FBK_STS_MODE d = 0 → w + 1 < n → does fun m' => stored m' w ∧ m'.rd F.FBK_WRPTR_VALUE d = w + 1 ∧
      m'.rd F.FBK_STS_STOPPED d = if w + 1 = n - 1 then 1 else 0) ∧
    (s.m.rd F.FBK_STS_MODE d = 1 → w < n → does fun m' => stored m' w ∧ m'.rd F.FBK_WRPTR_VALUE d = (w + 1) % n ∧
      m'.rd F.FBK_STS_STOPPED d = 0 ∧ (w + 1 = n → m'.rd F.FBK_STS_WRAPPED d = 1)) ∧
    (s.m.rd F.FBK_STS_MODE d = 2 →
      ((∀ x, (s.m.store d).trig = some x → before r.datum x = true) → w < s.m.reserveAt d → does fun m' => stored m' w ∧
        m'.rd F.FBK_WRPTR_VALUE d = (w + 1) % s.m.reserveAt d ∧ m'.rd F.FBK_POSTPTR_VALUE d = q ∧ m'.rd F.FBK_STS_STOPPED d = 0) ∧
      (∀ x, (s.m.store d).trig = some x → before r.datum x = false → q + 1 < n → does fun m' => stored m' q ∧
        m'.rd F.FBK_POSTPTR_VALUE d = q + 1 ∧ m'.rd F.FBK_WRPTR_VALUE d = w ∧
        m'.rd F.FBK_STS_STOPPED d = if q + 1 = n - 1 then 1 else 0)))

/-- A Fieldbook command has ended with a result (R570). -/
def Sys2Proof.Claim.FbkEnded (m' : Module) (result : Nat) : Prop :=
  m'.rd F.FBK_CMD_STS_BUSY 4 = 0 ∧ m'.rd F.FBK_CMD_STS_DONE 4 = 1 ∧ m'.rd F.FBK_CMD_STS_RESULT 4 = result

/-- Commands of the Fieldbook (R568, R569, R570, R571, R573, R574): while BUSY is 1 a command is discarded and sets CMD_LOST; ARM, TRIGGER,
TRIGGER_AT, STOP, DUMP and MARK act, and what each writes is said here; only the physical function and Ostler command it. That a dump is copied
and ends at DUMP_DONE, where it has not ended while its destination waits (log entry 31), and the instant of a scheduled trigger (log entry
29) are the model's choices. -/
def Obligations.FieldbookCommands : Prop := ∀ (req : Requester) (st : Fin 8) (op : Fin 2) (v : Word) (s : State),
  (privileged req.toNat = false → ∀ i ∈ [Instr.arm req, .trigger req, .triggerAt req, .stop req, .dump req st, .fbkCmdReserved req op,
    .mark req v], To i s s.m) ∧
  (privileged req.toNat = true → s.m.rd F.FBK_CMD_STS_BUSY 4 = 1 → ∀ i ∈ [Instr.arm req, .trigger req, .triggerAt req, .stop req,
    .dump req st, .fbkCmdReserved req op], To i s (s.m.wr F.FBK_CMD_STS_CMD_LOST 4 1)) ∧
  (privileged req.toNat = true → s.m.rd F.FBK_CMD_STS_BUSY 4 = 0 →
    (Does (.arm req) s fun m' => FbkEnded m' 0 ∧ SameMem s.m m' ∧ ∀ d, d < 5 → m'.rd F.FBK_WRPTR_VALUE d = 0 ∧
      m'.rd F.FBK_POSTPTR_VALUE d = s.m.reserveAt d ∧ m'.rd F.FBK_STS_TRIGGERED d = 0 ∧ m'.rd F.FBK_STS_STOPPED d = 0 ∧
      m'.rd F.FBK_STS_WRAPPED d = 0 ∧ m'.rd F.FBK_LOST_VALUE d = 0 ∧ (m'.store d).slots = (s.m.store d).slots) ∧
    ((∀ d, d < 5 → s.m.rd F.FBK_STS_TRIGGERED d = 0) → Does (.trigger req) s fun m' => FbkEnded m' 0 ∧ ∀ d, d < 5 →
      m'.rd F.FBK_STS_TRIGGERED d = 1 ∧ m'.rd F.FBK_TRIG_DATUM_LO_VALUE d = s.m.datumOf 4 % 2 ^ 32 ∧
      (m'.store d).trig = some (s.m.datumOf 4)) ∧
    (∀ d, d < 5 → s.m.rd F.FBK_STS_TRIGGERED d = 1 → Does (.trigger req) s fun m' => FbkEnded m' 0 ∧ m'.obs = s.m.obs) ∧
    (Does (.triggerAt req) s fun m' => FbkEnded m' 0 ∧ m'.obs = { s.m.obs with schedTrig := true }) ∧
    (Does (.stop req) s fun m' => FbkEnded m' 0 ∧ m'.obs = s.m.obs ∧ ∀ d, d < 5 → m'.rd F.FBK_STS_STOPPED d = 1) ∧
    (let first := s.m.rd F.FBK_DUMP_FIRST_VALUE 4
     let count := s.m.rd F.FBK_DUMP_COUNT_VALUE 4
     (4 < st.val ∨ count = 0 → Does (.dump req st) s fun m' => FbkEnded m' 1 ∧ m'.obs = s.m.obs) ∧
     (st.val ≤ 4 → count ≠ 0 → storeSize st < first + count → Does (.dump req st) s fun m' => FbkEnded m' 2 ∧ m'.obs = s.m.obs) ∧
     (st.val ≤ 4 → count ≠ 0 → first + count ≤ storeSize st → Does (.dump req st) s fun m' => m'.rd F.FBK_CMD_STS_BUSY 4 = 1 ∧
       SameMem s.m m' ∧ ∃ x, m'.obs.dump = some x ∧ x.store = st.val ∧ x.first = first ∧ x.count = count)) ∧
    (Does (.fbkCmdReserved req op) s fun m' => FbkEnded m' 1 ∧ m'.obs = s.m.obs)) ∧
  (privileged req.toNat = true → (s.m.store 4).inq.length < 64 → Does (.mark req v) s fun m' => SameMem s.m m' ∧
    ∃ r, (m'.store 4).inq = (s.m.store 4).inq ++ [r] ∧ r.type = 0x0F ∧ r.arg0 = v.toNat) ∧
  (s.m.obs.schedTrig = true → before (s.m.datumOf 4) s.m.fbkAt = false → (∀ d, d < 5 → s.m.rd F.FBK_STS_TRIGGERED d = 0) →
    Does .scheduledTrigger s fun m' => m'.obs.schedTrig = false ∧ ∀ d, d < 5 → m'.rd F.FBK_STS_TRIGGERED d = 1 ∧
      (m'.store d).trig = some (s.m.datumOf 4)) ∧
  (s.m.obs.schedTrig = false ∨ before (s.m.datumOf 4) s.m.fbkAt = true → To .scheduledTrigger s s.m) ∧
  (s.m.obs.dump = none → To .dumpDone s s.m) ∧
  (∀ x, s.m.obs.dump = some x →
    let l := ((List.range x.count).map fun i => recBytes (Tbl.get none (s.m.store x.store).slots (x.first + i))).flatten
    let r := s.m.writeSpan askOstler (fun _ => false) (l.length / 4096 + 3) x.dst l
    Does .dumpDone s fun m' => if r.2 = St.waits then m' = s.m.backOff r.1
      else if s.m.tokensFor r.1 ostlerIface = false then m' = s.m.starve ostlerIface
      else m'.obs.dump = none ∧ m'.mem = r.1.mem ∧ FbkEnded m' (if r.2 = St.ok then 0 else 3))

/-! ### Arrival and departure queues -/

/-- The result word of R405. -/
def Sys2Proof.Claim.qWord (status words fare : Nat) (poison : Bool) : DWord :=
  BitVec.ofNat 64 (status + words % 512 * 256 + fare % 256 * 2 ^ 24 + if poison then 2 ^ 32 else 0)

/-- QTAKE and QTAKEW (R404, R405, R406): a misplaced buffer, a queue of another partition, a packet longer than the buffer and an empty
queue take nothing; a packet that fits is removed, its words stand in the buffer, and no byte outside it changes. No other core waits at the
queue here. That the core sees the host's side as it is now (log entry 33) and that NOT_OWNED comes before EMPTY and FULL (log entry 34) are the
model's choices. -/
def Sys2Proof.Claim.QueueTakes : Prop := ∀ (c : CoreId) (dst a b : GReg) (imm : Word) (s : State) (part : PartEntry), Fetches s.m c →
  imm.toNat < 256 → s.m.partOf c = some part → s.m.badParity = [] →
  let m := fetched s.m c
  let k := s.m.core c
  let q := (k.getG a).toNat % 64
  let at' := (k.getG b).toNat
  let cap := imm.toNat + 1
  let gives (i : Instr) (v : DWord) (m : Module) : Prop := To i s (m.retire c { k.setG dst v with wait := none })
  s.m.waiters q false = [] →
  ∀ i ∈ [Instr.qtake c dst a b imm, .qtakew c dst a b imm],
    (at' % 64 ≠ 0 ∨ 0x18_0000 < at' + 64 * cap → gives i (qWord QSt.range 0 0 false) m) ∧
    (at' % 64 = 0 → at' + 64 * cap ≤ 0x18_0000 →
      (Nat.testBit part.arqMap q = false → gives i (qWord QSt.notOwned 0 0 false) m) ∧
      (Nat.testBit part.arqMap q = true →
        (headPacket (s.m.arq q).words = none →
          (i = .qtake c dst a b imm → gives i (qWord QSt.empty 0 0 false) m) ∧
          (i = .qtakew c dst a b imm → Does i s fun m' => SameMem s.m m' ∧ m'.arqs = s.m.arqs ∧
            m'.core c = { k with st := .waiting, wait := some (.take dst q at' cap), lastPc := k.pc })) ∧
        (∀ p rest, headPacket (s.m.arq q).words = some (p, rest) →
          (cap < p.length → Does i s fun m' => SameMem s.m m' ∧ m'.arqs = s.m.arqs ∧ ∃ fare, m'.core c =
            { k.setG dst (qWord QSt.tooLong p.length fare false) with wait := none, lastPc := k.pc, pc := k.pc + 8 }) ∧
          (p.length ≤ cap → (∀ w ∈ p, w.data.length = 64) → Does i s fun m' => (m'.arq q).words = rest ∧
            m'.bytes (scrKey c at') (64 * p.length) = (p.map (·.data)).flatten ∧
            (∀ y, y < scrKey c at' ∨ scrKey c at' + 64 * p.length ≤ y → m'.byte y = s.m.byte y) ∧
            ∃ fare, m'.rd F.SEQ_FARE_FARE c = (if part.fareSource then fare % 256 else s.m.rd F.SEQ_FARE_FARE c) ∧
              m'.core c = { k.setG dst (qWord QSt.ok p.length fare (p.any (·.poison))) with wait := none, lastPc := k.pc, pc := k.pc + 8 }))))

/-- QPUT, QPUTW and QCOUNT (R404, R405, R407): a packet of the buffer's words joins a departure queue that has room, with its last word
marked; with no room QPUT ends FULL and QPUTW waits, and so they do behind a core that still waits at the queue (the model's choice, log entry 103);
QCOUNT gives packets and words, as they are now (log entries 33 and 34, as for QTAKE). -/
def Sys2Proof.Claim.QueuePuts : Prop := ∀ (c : CoreId) (dst a b : GReg) (imm : Word) (s : State) (part : PartEntry), Fetches s.m c →
  imm.toNat < 256 → s.m.partOf c = some part → s.m.badParity = [] →
  let m := fetched s.m c
  let k := s.m.core c
  let q := (k.getG a).toNat % 64
  let at' := (k.getG b).toNat
  let n := imm.toNat + 1
  let gives (i : Instr) (v : DWord) (m : Module) : Prop := To i s (m.retire c { k.setG dst v with wait := none })
  (s.m.waiters q true = [] → ∀ i ∈ [Instr.qput c dst a b imm, .qputw c dst a b imm],
    (at' % 64 ≠ 0 ∨ 0x18_0000 < at' + 64 * n → gives i (qWord QSt.range n 0 false) m) ∧
    (at' % 64 = 0 → at' + 64 * n ≤ 0x18_0000 →
      (Nat.testBit part.dpqMap q = false → gives i (qWord QSt.notOwned n 0 false) m) ∧
      (Nat.testBit part.dpqMap q = true →
        (1024 < (s.m.dpq q).words.length + n →
          (i = .qput c dst a b imm → gives i (qWord QSt.full n 0 false) m) ∧
          (i = .qputw c dst a b imm → Does i s fun m' => SameMem s.m m' ∧ m'.dpqs = s.m.dpqs ∧
            m'.core c = { k with st := .waiting, wait := some (.put dst q at' n), lastPc := k.pc })) ∧
        ((s.m.dpq q).words.length + n ≤ 1024 → Does i s fun m' => SameMem s.m m' ∧ ∃ ws poison,
          (m'.dpq q).words = (s.m.dpq q).words ++ ws ∧ ws.length = n ∧ (∀ j, j < n → ∃ w, ws[j]? = some w ∧
            w.data = s.m.bytes (scrKey c (at' + 64 * j)) 64 ∧ w.last = (j + 1 == n)) ∧
          m'.core c = { k.setG dst (qWord QSt.ok n 0 poison) with wait := none, lastPc := k.pc, pc := k.pc + 8 })))) ∧
  (at' % 64 = 0 → at' + 64 * n ≤ 0x18_0000 → let m1 := m.serveLine q true
    m1.ownsDpq c q = true → m1.waiters q true ≠ [] → m1.core c = k →
    gives (.qput c dst a b imm) (qWord QSt.full n 0 false) m1 ∧ Does (.qputw c dst a b imm) s fun m' => m'.dpqs = m1.dpqs ∧
      (m'.core c).st = .waiting ∧ (m'.core c).wait = some (.put dst q at' n)) ∧
  (imm = 0 → To (.qcount c dst a imm) s (m.retire c (k.setG dst
    (BitVec.ofNat 64 (packetCount (s.m.arq q).words + (s.m.arq q).words.length * 65536))))) ∧
  (imm = 1 → To (.qcount c dst a imm) s (m.retire c (k.setG dst
    (BitVec.ofNat 64 (packetCount (s.m.dpq q).words + (1024 - (s.m.dpq q).words.length) * 65536)))))

/-- Waiting queue instructions (R404, R406, R407): the first core in a queue's line that waits in QTAKEW or QPUTW goes on with the outcome of
its instruction once there is one; no other core does. -/
def Sys2Proof.Claim.QueueResumes : Prop := ∀ (c : CoreId) (s : State) (dst q a n : Nat),
  let k := s.m.core c
  (k.st ≠ .waiting → To (.qtakewResume c) s s.m ∧ To (.qputwResume c) s s.m) ∧
  (k.st = .waiting → k.wait = some (.take dst q a n) → To (.qputwResume c) s s.m ∧
    ((s.m.waiters q false).head? ≠ some c.val ∨ (s.m.take c q a n).2 = none → To (.qtakewResume c) s s.m) ∧
    ∀ v, (s.m.waiters q false).head? = some c.val → (s.m.take c q a n).2 = some v → Does (.qtakewResume c) s fun m' =>
      m'.core c = { k.setG dst v with st := .running, wait := none, lastPc := k.pc, pc := k.pc + 8 } ∧ m'.arqs = (s.m.take c q a n).1.arqs ∧
      m'.mem = (s.m.take c q a n).1.mem) ∧
  (k.st = .waiting → k.wait = some (.put dst q a n) → To (.qtakewResume c) s s.m ∧
    ((s.m.waiters q true).head? ≠ some c.val ∨ (s.m.putQ c q a n).2 = none → To (.qputwResume c) s s.m) ∧
    ∀ v, (s.m.waiters q true).head? = some c.val → (s.m.putQ c q a n).2 = some v → Does (.qputwResume c) s fun m' =>
      m'.core c = { k.setG dst v with st := .running, wait := none, lastPc := k.pc, pc := k.pc + 8 } ∧ m'.dpqs = (s.m.putQ c q a n).1.dpqs ∧
      m'.mem = s.m.mem)

/-- What a queue's reads and writes do, and the accesses that wait. -/
def Obligations.QueueTransfers : Prop := Claim.QueueTakes ∧ Claim.QueuePuts ∧ Claim.QueueResumes

/-- The endpoint answers a function at once (R362, R380, R386, R501): bring-up has reached AWAIT_PLAT, there is the function and it is in D0, no
access from outside waits, the mesh is clear, and its source interface is not regulated. -/
def Sys2Proof.Claim.Attends (m : Module) (f : FnId) : Prop :=
  m.answers = true ∧ m.fnOn f = true ∧ (m.fn f).d3 = false ∧ m.tx = [] ∧ m.parked = [] ∧ ClearWays m ∧
    Unregulated m (srcIface (reqHost + f) none) ∧ Tbl.get [] m.qos.held (bucketKey (srcIface (reqHost + f) none) 0) = []

/-- An access of a queue's window by the function that serves its partition comes to the queue (R382, R391): the endpoint answers, and the
partition holds the queue. -/
def Sys2Proof.Claim.Owns (m : Module) (f : FnId) (e : PartEntry) : Prop :=
  Attends m f ∧ f.val ≠ 0 ∧ m.partOfFn f = some e

/-- The host's side of queues (R399, R401, R402, R409) in native mode: APPEND stages words at their offset, COMMIT of a whole packet makes it
visible, ARQ_ABORT drops what is staged, DPQ_READ returns the head packet's bytes, and DPQ_POP removes it. -/
def Obligations.HostQueues : Prop := ∀ (f : FnId) (q : QueueId) (e : PartEntry) (s : State), Owns s.m f e →
  (Nat.testBit e.arqMap q = true → s.m.arqPart q = some e → e.compat = false →
    let x := s.m.arq q
    (∀ (o : Fin 16384) (w : List Byte), w.length = 64 → o.val % 64 = 0 → o.val + 64 ≤ 16384 → o.val / 64 < 1024 - x.words.length →
      Does (.arqAppend f q o w) s fun m' => (m'.arq q).words = x.words ∧ SameMem s.m m' ∧
        ∀ i, Tbl.get [] (m'.arq q).staged i = if i = o.val / 64 then w else Tbl.get [] x.staged i) ∧
    (∀ w : List Byte, w.length = 64 → x.words.length < 1024 → x.staged = [] → x.size = false → x.overrun = false → e.kind ≠ 2 →
      s.m.badParity = [] → leNat (w.take 4) < 512 → Does (.arqCommit f q 0 w) s fun m' =>
        (m'.arq q).words = x.words ++ [⟨w, false, true⟩] ∧ (m'.arq q).staged = [] ∧ SameMem s.m m')) ∧
  (∀ (req : Requester) (v : Word), queueWriter req.toNat (s.m.arqPart q) = true → v.toNat % 2 = 1 → Does (.arqAbort req q v) s fun m' =>
    (m'.arq q).staged = [] ∧ (m'.arq q).words = (s.m.arq q).words ∧ SameMem s.m m' ∧ SameRegs s.m m' []) ∧
  (∀ (req : Requester) (v : Word), queueWriter req.toNat (s.m.arqPart q) = false ∨ v.toNat % 2 = 0 → To (.arqAbort req q v) s s.m) ∧
  (∀ (req : Requester) (v : Word), queueWriter req.toNat (s.m.dpqPart q) = true → v.toNat % 2 = 1 →
    (∀ p r, headPacket (s.m.dpq q).words = some (p, r) → Does (.dpqPop req q v) s fun m' => (m'.dpq q).words = r ∧ SameMem s.m m') ∧
    (headPacket (s.m.dpq q).words = none → To (.dpqPop req q v) s s.m)) ∧
  (Nat.testBit e.dpqMap q = true → s.m.badParity = [] → ∀ p r, headPacket (s.m.dpq q).words = some (p, r) →
    (∀ w ∈ p, w.data.length = 64 ∧ w.poison = false) → ∀ j, j < p.length → ∀ (o : Fin 16384) (l : Fin 4096), o.val = 64 * j → l.val = 63 →
    Does (.dpqRead f q o l) s fun m' => m'.dpqs = s.m.dpqs ∧ SameMem s.m m' ∧
      ∃ w, p[j]? = some w ∧ m'.outbox = .cpl f 0 w.data false :: s.m.outbox)

/-! ### The host endpoint -/

/-- Configuration requests (R380, R501): of a function that there is not, Unsupported Request (the model's choice, log entry 35); Request Retry
Status before AWAIT_PLAT; then a read is answered with the value, and a write of Bus Master Enable, of the payload size or of VF Enable acts
and is answered. -/
def Sys2Proof.Claim.ConfigRequests : Prop := ∀ (f : FnId) (r : ConfigReg) (w : Option Nat) (s : State),
  (s.m.fnOn f = false → To (.configRequest f r w) s (s.m.emit (.cpl f 1 [] false))) ∧
  (s.m.fnOn f = true → s.m.answers = false → To (.configRequest f r w) s (s.m.emit (.cpl f 3 [] false))) ∧
  (s.m.fnOn f = true → s.m.answers = true →
    To (.configRequest f r none) s (s.m.emit (.cpl f 0 (leBytes 4 (s.m.configRead f r)) false)) ∧
    (∀ v, Does (.configRequest f .busMaster (some v)) s fun m' => (m'.fn f).busMaster = (v % 2 == 1) ∧ SameMem s.m m' ∧ SameRegs s.m m' []) ∧
    (∀ v, v ≤ 2 → To (.configRequest 0 .mps (some v)) s ((s.m.setFn 0 { s.m.fn 0 with mps := v }).emit (.cpl 0 0 [] false))) ∧
    (∀ v, v % 2 = 0 → To (.configRequest 0 .vfEnable (some v)) s (s.m.clearVfEnable.emit (.cpl 0 0 [] false))))

/-- Resets of functions and BAR sizes (R389, R393): a function level reset returns the function's page to reset, with its configuration and
MSI-X table, and drops the staged packets of its queues; one of the physical function, and a reset of the host link, does so for every
function and returns every BAR2 to 16 GiB; clearing VF Enable does so for the virtual functions; a resize closes the windows. What a reset does in configuration space is the model's reading of
the PCI standard (log entry 35). -/
def Sys2Proof.Claim.FunctionResets : Prop := ∀ (f : FnId) (s : State),
  let fresh (m' : Module) (g : Nat) : Prop := (∀ e ∈ pageRegs, ∀ i, i < e.2 → m'.word e.1 g i = e.1.resetWord i) ∧ (m'.fn g).msix = [] ∧
    (m'.fn g).msixEn = false ∧ (m'.fn g).busMaster = false ∧ (m'.fn g).pba = []
  (f.val ≠ 0 → Does (.functionLevelReset f) s fun m' => fresh m' f ∧ (m'.fn f).bar2 = (s.m.fn f).bar2 ∧ SameMem s.m m' ∧
    (∀ g, g ≠ f.val → m'.fn g = s.m.fn g) ∧ ∀ e ∈ s.m.served f, ∀ q, q < 64 → Nat.testBit e.arqMap q = true → (m'.arq q).staged = []) ∧
  (∀ i ∈ [Instr.functionLevelReset 0, .hostLinkReset], Does i s fun m' => SameMem s.m m' ∧ ∀ g, g ≤ 8 → fresh m' g ∧ (m'.fn g).bar2 = 0) ∧
  (Does .vfEnableClear s fun m' => (m'.fn 0).vfEn = false ∧ (m'.fn 0).msix = (s.m.fn 0).msix ∧ SameMem s.m m' ∧
    ∀ g, 1 ≤ g → g ≤ 8 → fresh m' g ∧ (m'.fn g).bar2 = (s.m.fn g).bar2) ∧
  ∀ k : Fin 16, (10 < k.val → To (.bar2Resize f k) s s.m) ∧
    (k.val ≤ 10 → Does (.bar2Resize f k) s fun m' => SameMem s.m m' ∧ ∀ g, g ≤ 8 →
      (g = 0 ↔ f.val = 0) → (m'.fn g).bar2 = k.val ∧ ∀ w, w < 64 → m'.rd F.PCE_WIN_LO_EN g w = 0)

/-- Host reads and writes that reach no place (R381, R382, R387, R388): a read completes Unsupported Request, a write is discarded and
counted, and both are logged, and captured where VALID is 0; an AtomicOp is answered Unsupported Request. Before AWAIT_PLAT, and at a function in
D3hot, a read is answered so without a capture, and a write is discarded and counted; a function that there is not answers Unsupported Request and
takes no write. A read behind a write that waits is held (R386). The model's choices here are AtomicOps and the accesses before AWAIT_PLAT without
a capture (log entry 37), D3hot and the bits of the error log (log entry 99) and virtual functions while VF Enable is 0 (log entry 35). -/
def Obligations.HostRefusals : Prop := ∀ (f : FnId) (bar : Fin 6) (off : Nat) (s : State), off < 2 ^ 44 →
  let captured (m' : Module) (write : Nat) : Prop := (m'.fn f).aerUr = true ∧ m'.rd F.PCE_ERR_STS_VALID f = 1 ∧
    (s.m.rd F.PCE_ERR_STS_VALID f = 1 → m'.rd F.PCE_ERR_STS_OVF f = 1) ∧
    (s.m.rd F.PCE_ERR_STS_VALID f = 0 → m'.rd F.PCE_ERR_STS_WRITE f = write ∧ m'.rd F.PCE_ERR_STS_STATUS f = St.unmapped ∧
      m'.rd F.PCE_ERR_ADDR_LO_OFFSET f = off % 2 ^ 32 ∧ m'.rd F.PCE_ERR_ADDR_HI_OFFSET f = off / 2 ^ 32)
  let refused (i : Instr) : Prop := Does i s fun m' => m'.outbox = .cpl f 1 [] false :: s.m.outbox ∧ (m'.fn f).aerUr = true ∧ SameMem s.m m' ∧
    SameRegs s.m m' []
  (s.m.fnOn f = false → ∀ (n : Fin 4096) (l : List Byte), To (.hostWrite f bar off l) s s.m ∧
    ∀ i ∈ [Instr.hostRead f bar off n, .hostAtomicop f bar off], To i s (s.m.emit (.cpl f 1 [] false))) ∧
  (s.m.fnOn f = true → refused (.hostAtomicop f bar off) ∧ ∀ (n : Fin 4096) (l : List Byte),
    To (.hostWrite f bar off []) s s.m ∧
    (s.m.answers = false ∨ (s.m.fn f).d3 = true → refused (.hostRead f bar off n) ∧ (l ≠ [] → Does (.hostWrite f bar off l) s fun m' =>
      m'.outbox = s.m.outbox ∧ (m'.fn f).aerUr = true ∧ SameMem s.m m' ∧
      m'.rd F.PCE_PWDROP_CNT_COUNT f = min (2 ^ 32 - 1) (s.m.rd F.PCE_PWDROP_CNT_COUNT f + 1))) ∧
    (s.m.answers = true → (s.m.fn f).d3 = false →
      (s.m.writeWaits f = true →
        To (.hostRead f bar off n) s { s.m with parked := s.m.parked ++ [.read f bar off (n + 1)] }) ∧
      (bar.val = 0 ∨ bar.val = 2 →
        (s.m.writeWaits f = false → s.m.hostTo f bar off (n + 1) false = none → Does (.hostRead f bar off n) s fun m' => SameMem s.m m' ∧
          m'.outbox = .cpl f 1 [] false :: s.m.outbox ∧ captured m' 0) ∧
        (l ≠ [] → s.m.hostTo f bar off l.length true = none → Does (.hostWrite f bar off l) s fun m' => SameMem s.m m' ∧
          m'.outbox = s.m.outbox ∧ captured m' 1 ∧
          m'.rd F.PCE_PWDROP_CNT_COUNT f = min (2 ^ 32 - 1) (s.m.rd F.PCE_PWDROP_CNT_COUNT f + 1)))))

/-- Host accesses of one word of 64 bytes of memory through BAR2 (R384, R386, R387): a read completes with the bytes and memory does
not change; a write stores its bytes and no other byte, and is not answered. -/
def Obligations.HostAccesses : Prop := ∀ (f : FnId) (off a k : Nat) (free : Bool) (x : Site) (s : State), Attends s.m f →
  s.m.hostTo f 2 off 64 false = some (.space a free) → s.m.hostTo f 2 off 64 true = some (.space a free) → a % 64 = 0 →
  regDie a = none → x.key = some k → (∀ r, r = Right.read ∨ r = Right.write → s.m.gate (reqHost + f.val) a 64 r = .ok x) →
  ReadsWell s.m k 64 → Quiet s.m →
  (Does (.hostRead f 2 off 63) s fun m' => SameMem s.m m' ∧ m'.outbox = .cpl f 0 (s.m.bytes k 64) false :: s.m.outbox) ∧
  ∀ l : List Byte, l.length = 64 → Does (.hostWrite f 2 off l) s fun m' => m'.outbox = s.m.outbox ∧ m'.bytes k 64 = l ∧
    ∀ b, b < k ∨ k + 64 ≤ b → m'.byte b = s.m.byte b

/-- Count mirroring (R412): no instant passes while the mirror is off or its last instant stands; an instant that cannot be sent is skipped
with event 3, and another sends a record of 384 bytes with the instant's number. That one command takes the newest instant, and those passed over
count, is the model's choice (log entry 32). -/
def Sys2Proof.Claim.MirrorSamples : Prop := ∀ (f : FnId) (busy : Bool) (s : State),
  let x := s.m.fn f
  let p := s.m.rd F.PCE_MIR_CFG_INTERVAL f * 1000
  let i := s.m.datumOf 4 - s.m.datumOf 4 % p
  let n := (BitVec.ofNat 64 i - BitVec.ofNat 64 (x.mirLast - x.mirLast % p)).toNat / p
  let seq := (x.mirSeq + n) % 2 ^ 64
  (s.m.rd F.PCE_MIR_CFG_EN f = 0 ∨ p = 0 ∨ before x.mirLast i = false → To (.mirrorSample f busy) s s.m) ∧
  (s.m.rd F.PCE_MIR_CFG_EN f = 1 → p ≠ 0 → before x.mirLast i = true →
    (busy = true → Does (.mirrorSample f busy) s fun m' => (m'.fn f).mirSeq = seq ∧ (m'.fn f).mirLast = i ∧
      Nat.testBit (m'.rd F.PCE_EVSTS_EVENTS f) 3 = true ∧ SameMem s.m m') ∧
    (busy = false → s.m.fnSends f = true → Does (.mirrorSample f busy) s fun m' => (m'.fn f).mirSeq = seq ∧ (m'.fn f).mirLast = i ∧
      m'.rd F.PCE_MIR_SEQ_SEQ f = seq % 2 ^ 32 ∧ SameMem s.m m' ∧ ∃ (addr : Nat) (data : List Byte), m'.outbox.head? = some (.hostWrite f addr data) ∧
        data.length = 384 ∧ data.take 8 = leBytes 8 seq))

/-- Configuration requests, resets of functions, and the mirrors. -/
def Obligations.FunctionsAndMirrors : Prop := Claim.ConfigRequests ∧ Claim.FunctionResets ∧ Claim.MirrorSamples

/-! ### The fabric -/

/-- Fabric links (R421, R422, R424, R463): training starts from DOWN, completes with the width that locked, and fails to DOWN; RETRAIN
comes from its causes and from its control bit; DISABLE holds the link. From requesters but the physical function and Ostler, and in every
other state, nothing changes. When training starts and what of a link it forgets are the model's readings (log entries 56 and 100). -/
def Sys2Proof.Claim.FabricLinks : Prop := ∀ (p : PortId) (l : LinkIdx) (req : Requester) (s : State),
  let st := s.m.linkState p l
  let key := linkKey p l
  (st = LSt.down → Stage.localTests ≤ s.m.stage → s.m.rd F.TWL_CTL_DISABLE key = 0 → 64 + p.val ∉ s.m.lockLost →
    Does (.linkTrainStart p l) s fun m' => m'.linkState p l = LSt.train ∧ m'.link p l = {} ∧ m'.rd F.TWL_STS_FEC key = 1 ∧ SameMem s.m m') ∧
  (st ≠ LSt.down ∨ s.m.stage < Stage.localTests ∨ s.m.rd F.TWL_CTL_DISABLE key = 1 ∨ 64 + p.val ∈ s.m.lockLost →
    To (.linkTrainStart p l) s s.m) ∧
  (∀ w : Fin 3, (st = LSt.train ∨ st = LSt.retrain → Does (.linkTrainDone p l w) s fun m' => m'.linkState p l = LSt.active ∧
      m'.rd F.TWL_STS_WIDTH key = w.val + 1 ∧ SameMem s.m m') ∧
    (st ≠ LSt.train → st ≠ LSt.retrain → To (.linkTrainDone p l w) s s.m)) ∧
  (st = LSt.train → Does (.linkTrainTimeout p l) s fun m' => m'.linkState p l = LSt.down ∧ SameMem s.m m') ∧
  (st = LSt.retrain → To (.linkTrainTimeout p l) s ((s.m.setLinkState p l LSt.down 0).dropLink p l)) ∧
  (st ≠ LSt.train → st ≠ LSt.retrain → To (.linkTrainTimeout p l) s s.m) ∧
  (let retrains (i : Instr) : Prop := Does i s fun m' => m'.linkState p l = LSt.retrain ∧ m'.link p l = s.m.link p l ∧ SameMem s.m m' ∧
      m'.rd F.TWL_RETRAIN_CNT_COUNT key = min (2 ^ 32 - 1) (s.m.rd F.TWL_RETRAIN_CNT_COUNT key + 1)
   (st = LSt.active → (s.m.rd F.TWL_STS_REPLAY_RUN key = 8 → retrains (.linkRetrain p l 0)) ∧ retrains (.linkRetrain p l 1) ∧
      (s.m.bothWantL p = (s.m.rd F.TWL_STS_FEC key == 1) → retrains (.linkRetrain p l 2)) ∧
      (privileged req.toNat = true → s.m.rd F.TWL_CTL_DISABLE key = 0 → retrains (.twlRetrain req p l))) ∧
    (st ≠ LSt.active → ∀ c, To (.linkRetrain p l c) s s.m)) ∧
  (privileged req.toNat = false → To (.twlRetrain req p l) s s.m ∧ ∀ v, To (.twlDisable req p l v) s s.m) ∧
  (privileged req.toNat = true → (s.m.link p l).queue = [] → (s.m.link p l).replay = [] →
    (Does (.twlDisable req p l true) s fun m' => m'.linkState p l = LSt.disabled ∧ m'.rd F.TWL_CTL_DISABLE key = 1 ∧ SameMem s.m m') ∧
    (st = LSt.disabled → Does (.twlDisable req p l false) s fun m' => m'.linkState p l = LSt.down ∧ m'.rd F.TWL_CTL_DISABLE key = 0 ∧
      SameMem s.m m'))

/-- A link is ACTIVE and its port's domain has lock. -/
def Sys2Proof.Claim.Lives (m : Module) (p l : Nat) : Prop := m.linkState p l = LSt.active ∧ 64 + p ∉ m.lockLost

/-- The module after a frame whose link word passes its CRC: ACK, CCH and CCNT of the word are taken (R425, R426). -/
def Sys2Proof.Claim.word (m : Module) (p l : Nat) (w : BitVec 56) : Module :=
  m.linkWord p l (bitsAt w.toNat 15 10) (bitsAt w.toNat 25 3) (bitsAt w.toNat 28 4)

/-- Errors and replays of a link are counted: at a fabric port's link, or at the companion port (R483, R495). -/
def Sys2Proof.Claim.linkCounts (p l : Nat) : RegField × RegField × Nat :=
  if p = ucpPort then (F.UCP_CRC_ERR_COUNT, F.UCP_REPLAY_CNT_COUNT, 4) else (F.TWL_CRC_ERR_COUNT, F.TWL_REPLAY_CNT_COUNT, linkKey p l)

/-- The run of consecutive replays of a link. -/
def Sys2Proof.Claim.replayRun (m : Module) (p l : Nat) : Nat :=
  if p = ucpPort then (m.link p l).run else m.rd F.TWL_STS_REPLAY_RUN (linkKey p l)

/-- A link has replayed its buffer (R428): the replay and the run of replays are counted, from what m shows. -/
def Sys2Proof.Claim.Counted (m m' : Module) (p l : Nat) : Prop :=
  let (_, f, u) := linkCounts p l
  m'.rd f u = min (2 ^ 32 - 1) (m.rd f u + 1) ∧ replayRun m' p l = min 8 (replayRun m p l + 1)

/-- What comes on a link that does not live changes nothing; on one that lives, a frame of any type that fails its CRC is counted and
discarded (R425, R426). -/
def Sys2Proof.Claim.FrameGate (s : State) (p l : Nat) (w : BitVec 56) (payload : List Byte) (i : Instr) : Prop :=
  let (f, _, u) := linkCounts p l
  (s.m.linkState p l ≠ LSt.active ∨ 64 + p ∈ s.m.lockLost → To i s s.m) ∧
  (Lives s.m p l → frameOk w payload = false → To i s (s.m.bump f u))

/-- A module has sent a list of frames on a link, in order, each with its channel pair and sequence number. -/
def Sys2Proof.Claim.Resent (m m' : Module) (p l : Nat) (fs : List SentFrame) : Prop :=
  m'.outbox.length = m.outbox.length + fs.length ∧ m'.outbox.drop fs.length = m.outbox ∧
  ∀ i f, fs[i]? = some f → ∃ w, m'.outbox[fs.length - 1 - i]? = some (.frame p l w f.payload) ∧
    bitsAt w.toNat 0 15 = 1 + f.pair % 8 * 4 + f.seq % 1024 * 32

/-- Frames of the fabric's links and of the companion port (R419, R425, R426, R427, R428, R429, R448, R451, R483): what fails its CRC is counted and
discarded; a DATA frame in sequence is accepted; the first one out of sequence asks for a replay, and those that follow are discarded; an
acknowledgement frees the replay buffer and credits return; a link that may send DATA replays its buffer and counts that, another replays nothing;
codewords that end with wrong symbols are counted before their frame. The model's choices: what counts as a replay (log entry 57), that every frame's
link word is taken (log entry 58) and, of the frames, what log entry 101 says. -/
def Sys2Proof.Claim.FabricFrames : Prop := ∀ (p : FramePort) (l : LinkIdx) (payload : List Byte) (head : BitVec 15) (back : BitVec 17) (crc : BitVec 24)
  (frm : Fin 1024) (s : State),
  let k := s.m.link p l
  let key := linkKey p l
  let w := wordOf head back crc
  let v := wordOf 0 back crc
  let a : Arrival := ⟨l, back, crc⟩
  let data := Instr.dataFrame p l payload head back crc []
  let idle := Instr.idleFrame p l payload back crc []
  FrameGate s p l w payload data ∧ FrameGate s p l v payload idle ∧
  FrameGate s p l (arrivalWord a) (replayBytes frm) (.replay p a frm) ∧
  (s.m.linkState p l ≠ LSt.active → To (.replayTimeout p l) s s.m) ∧
  (∀ n ns, exec (.dataFrame p l payload head back crc (n :: ns)) s =
      exec (.dataFrame p l payload head back crc ns) { s with m := s.m.fecNote p l [n] } ∧
    (p.val ≠ ucpPort → s.m.linkState p l = LSt.active →
      let limit := if s.m.rd F.TWL_STS_FEC key = 0 then 4 else 12
      (n ≤ limit → (s.m.fecNote p l [n]).rd F.TWL_FEC_CORR_COUNT key = min (2 ^ 32 - 1) (s.m.rd F.TWL_FEC_CORR_COUNT key + n)) ∧
      (limit < n → (s.m.fecNote p l [n]).rd F.TWL_FEC_FAIL_COUNT key = min (2 ^ 32 - 1) (s.m.rd F.TWL_FEC_FAIL_COUNT key + 1)))) ∧
  (Lives s.m p l →
    (frameOk w payload = true → bitsAt head.toNat 0 2 = Ftype.data → s.m.linkCarries p l = true →
      p.val = ucpPort ∨ s.m.rd F.TWP_STS_EXCLUDED p = 0 →
      let seq := bitsAt head.toNat 5 10
      let pair := bitsAt head.toNat 2 3
      (seq = k.rxNext → (Tbl.get {} k.rx pair).frames.length < 32 → Does data s fun m' =>
        (m'.link p l).rxNext = (k.rxNext + 1) % 1024 ∧ (m'.link p l).rej = false) ∧
      (seq ≠ k.rxNext → k.rej = false → Does data s fun m' => (m'.link p l).rxNext = k.rxNext ∧ (m'.link p l).rej = true ∧
        ∃ u, m'.outbox.head? = some (.frame p l u (replayBytes k.rxNext))) ∧
      (seq ≠ k.rxNext → k.rej = true → To data s (word s.m p l w))) ∧
    (frameOk v payload = true → To idle s (word s.m p l v) ∧ (k.queue = [] →
      let ack := bitsAt v.toNat 15 10
      let cch := bitsAt v.toNat 25 3
      let n := (ack + 1 + 1024 - k.base) % 1024
      let m' := word s.m p l v
      Tbl.get 0 (m'.link p l).spent cch = Tbl.get 0 k.spent cch - bitsAt v.toNat 28 4 ∧ (m'.link p l).rxNext = k.rxNext ∧
        if n ≠ 0 ∧ n ≤ (k.next + 1024 - k.base) % 1024 then (m'.link p l).base = (ack + 1) % 1024 ∧
          (m'.link p l).replay = k.replay.filter (fun f => decide (n ≤ (f.seq + 1024 - k.base) % 1024)) ∧ replayRun m' p l = 0
        else (m'.link p l).base = k.base ∧ (m'.link p l).replay = k.replay)) ∧
    (k.replay ≠ [] → (s.m.sendsData p l = false → To (.replayTimeout p l) s s.m) ∧
      (s.m.sendsData p l = true → Does (.replayTimeout p l) s fun m' => Resent s.m m' p l k.replay ∧ (m'.link p l).replay = k.replay ∧
        (m'.link p l).next = k.next ∧ (m'.link p l).base = k.base ∧ Counted s.m m' p l)) ∧
    (frameOk (arrivalWord a) (replayBytes frm) = true →
      let m1 := word s.m p l (arrivalWord a)
      (m1.sendsData p l = false → To (.replay p a frm) s m1) ∧
      (m1.sendsData p l = true → Does (.replay p a frm) s fun m' => Resent m1 m' p l (m1.link p l).replay ∧
        (m'.link p l).replay = (m1.link p l).replay ∧ Counted m1 m' p l)))

/-- The fabric's links and what a frame does at its port. -/
def Obligations.FabricTransport : Prop := Claim.FabricLinks ∧ Claim.FabricFrames

/-- Neighbours and routing tables (R438, R439, R448, R449): what a port's lowest ACTIVE link has heard three times is its neighbour, which
silence ends; distances heard give the entries of the group and member tables of a module with a plat. That one copy of the tables serves every
port and that VECTOR leaves by the lowest link that carries are the model's choices (log entry 59), as is taking every frame's link word (58). -/
def Sys2Proof.Claim.FabricNeighbours : Prop := ∀ (p : PortId) (a : Arrival) (unit master : BitVec 16) (nport ds : Fin 8) (fw rdy : Bool)
  (hops : Byte) (s : State),
  let l := a.link
  let hello := Instr.hello p a unit nport fw ds master hops rdy
  let payload := helloBytes unit.toNat nport l (if fw then 1 else 0) ds master.toNat hops.toNat (if rdy then 1 else 0)
  let tables (m' : Module) : Prop := s.m.platLoaded = true → ∀ i, i < 256 → ∀ r o, (r, o) ∈ [(Reg.TWP_GRP, 0), (.TWP_MBR, 256)] →
    let (pri, alt, d) := m'.tableEntry (o + i)
    m'.word r 0 i = BitVec.ofNat 32 (pri + alt * 16 + d * 256)
  let sends (m' : Module) (n : Nat) : Prop := { m' with outbox := s.m.outbox, links := s.m.links } = s.m ∧
    m'.outbox.length = s.m.outbox.length + n
  FrameGate s p l (arrivalWord a) payload hello ∧
  (Lives s.m p l → frameOk (arrivalWord a) payload = true → Does hello s fun m' =>
    (m'.link p l).heard = some (unit.toNat, nport.val) ∧ SameMem s.m m' ∧
    ((∀ i, i < l.val → s.m.linkState p i ≠ LSt.active) → (s.m.link p l).heard = some (unit.toNat, nport.val) → 2 ≤ (s.m.link p l).heardN →
      m'.rd F.TWP_NB_UNIT p = unit.toNat ∧ m'.rd F.TWP_NB_PORT p = nport.val ∧ m'.rd F.TWP_NB_VALID p = 1 ∧
      m'.rd F.TWP_NB_FEC_WANT p = (if fw then 1 else 0) ∧ (m'.port p).dstate = ds.val ∧ (m'.port p).master = master.toNat ∧
      (m'.port p).mhops = hops.toNat ∧ (m'.port p).ready = rdy)) ∧
  (Does (.helloSend p) s fun m' => sends m' ((List.range 12).filter fun i => s.m.linkState p i == LSt.active).length) ∧
  (Does (.neighbourTimeout p) s fun m' => m'.rd F.TWP_NB_VALID p = 0 ∧ m'.rd F.TWP_NB_UNIT p = 0xFFFF ∧ (m'.port p).dstate = 0 ∧
    (m'.port p).ready = false ∧ SameMem s.m m') ∧
  (∀ (part : Fin 4) (dist : List Byte),
    let vector := Instr.vector p a ⟨unit, part⟩ dist
    FrameGate s p l (arrivalWord a) (vectorBytes unit.toNat part dist) vector ∧
    (Lives s.m p l → frameOk (arrivalWord a) (vectorBytes unit.toNat part dist) = true →
      (s.m.rd F.TWP_STS_RESULT p ≠ 1 ∨ s.m.rd F.TWP_NB_VALID p = 0 ∨ s.m.rd F.TWP_NB_UNIT p ≠ unit.toNat →
        To vector s (word s.m p l (arrivalWord a))) ∧
      (s.m.rd F.TWP_STS_RESULT p = 1 → s.m.rd F.TWP_NB_VALID p = 1 → s.m.rd F.TWP_NB_UNIT p = unit.toNat →
        (part.val < 2 ∨ unit.toNat / 256 = s.m.unit / 256) → Does vector s fun m' => SameMem s.m m' ∧ tables m' ∧
          ∀ i, i < 128 → Tbl.get 0 (m'.port p).dist (part.val * 128 + i) =
            if (dist.getD i 255).toNat < 31 then (dist.getD i 255).toNat + 2 else 0))) ∧
  (∀ x : Fin 512, Does (.distanceExpiry p x) s fun m' => Tbl.get 0 (m'.port p).dist x = 0 ∧ tables m' ∧ SameMem s.m m') ∧
  (s.m.rd F.TWP_STS_RESULT p = 1 → s.m.carriers p ≠ [] → Does (.vectorSend p) s fun m' => sends m' 4) ∧
  (s.m.rd F.TWP_STS_RESULT p ≠ 1 ∨ s.m.carriers p = [] → To (.vectorSend p) s s.m)

/-- The survey check and the Datum exchange (R450, R451, R453, R455, R456, R458): the check sets every port's result and decides READY;
a port whose condition changes takes its new result; an exchange is sent, answered, and its sample kept, missed or, at the source of a
module that acquires, taken as a step of the module's Datum; at that of a locked module it sets a rate of at most 100 ppm and no step. The model's
choices: which samples move the Datum (log entry 54), sums rounded toward zero (55), a neighbour of the module's own unit (61) and the rate within
its bound (102). -/
def Sys2Proof.Claim.SurveyAndDatum : Prop := ∀ (p : PortId) (a : Arrival) (seq : BitVec 16) (t1 t2 t3 : DWord) (s : State),
  let l := a.link
  (s.m.stage ≠ Stage.survey → To .surveyCheck s s.m) ∧
  (s.m.stage = Stage.survey →
    let rs := s.m.ringResults ((List.range 8).map fun q => s.m.portCondition q (bitsAt (s.m.plat.survey.ports.getD q {}).flags 0 1 == 1))
    Does .surveyCheck s fun m' => (∀ q, q < 8 → m'.rd F.TWP_STS_RESULT q = rs.getD q 0) ∧
      (m'.surveyOk = true ↔ ∀ r ∈ rs, r < Sres.failShort) ∧ SameMem s.m m' ∧
      ((m'.rd F.BRG_MOD_STS_READY 4 = 1 ∧ m'.stage = Stage.ready) ∨ (m'.rd F.BRG_MOD_STS_READY 4 = 0 ∧ m'.stage = Stage.notReady))) ∧
  (let r := s.m.portCondition p true
   (s.m.surveyOk = true → r ≠ Sres.ok → Does (.portConditionChange p) s fun m' => m'.rd F.TWP_STS_RESULT p = r ∧ SameMem s.m m') ∧
    (s.m.surveyOk = true → r = Sres.ok → To (.portConditionChange p) s s.m ∧ Does (.portRecover p) s fun m' =>
      m'.rd F.TWP_STS_RESULT p = Sres.ok ∧ SameMem s.m m') ∧
    (s.m.surveyOk = false ∨ r ≠ Sres.ok → To (.portRecover p) s s.m)) ∧
  (s.m.rd F.TWP_STS_RESULT p = 1 → (s.m.port p).dreq = none → ∀ k t, s.m.carriers p = k :: t → Does (.datumExchange p) s fun m' =>
    let n := ((s.m.port p).seq + 1) % 65536
    (∃ w, m'.outbox = .frame p k w (dreqBytes n (s.m.datumOf 4)) :: s.m.outbox) ∧ (m'.port p).dreq = some (n, s.m.datumOf 4)) ∧
  (s.m.rd F.TWP_STS_RESULT p ≠ 1 ∨ (s.m.port p).dreq ≠ none ∨ s.m.carriers p = [] → To (.datumExchange p) s s.m) ∧
  FrameGate s p l (arrivalWord a) (dreqBytes seq.toNat t1.toNat) (.dreq p a seq t1) ∧
  (Lives s.m p l → frameOk (arrivalWord a) (dreqBytes seq.toNat t1.toNat) = true → To (.dreq p a seq t1) s
    ((word s.m p l (arrivalWord a)).sendLink p l (drspBytes seq.toNat t1.toNat (s.m.datumOf 4) (s.m.datumOf 4)))) ∧
  (let drsp := Instr.drsp p a seq t1 ⟨t2, t3⟩
   let ok := frameOk (arrivalWord a) (drspBytes seq.toNat t1.toNat t2.toNat t3.toNat)
   (s.m.linkState p l ≠ LSt.active → To drsp s s.m) ∧
   ((s.m.port p).dreq = none → To (.drspTimeout p) s s.m) ∧
   (Lives s.m p l → (s.m.port p).dreq = none → FrameGate s p l (arrivalWord a) (drspBytes seq.toNat t1.toNat t2.toNat t3.toNat) drsp ∧
     (ok = true → To drsp s (word s.m p l (arrivalWord a)))) ∧
   ∀ n t, (s.m.port p).dreq = some (n, t) →
    let now := s.m.datumOf 4
    let missed (m' : Module) : Prop := (m'.port p).dreq = none ∧ m'.rd F.TWP_DATUM_MISSES p = min 255 (s.m.rd F.TWP_DATUM_MISSES p + 1) ∧
      m'.datum = s.m.datum
    Does (.drspTimeout p) s missed ∧
    (Lives s.m p l →
      (ok = false → Does drsp s fun m' => missed m' ∧
        m'.rd F.TWL_CRC_ERR_COUNT (linkKey p l) = min (2 ^ 32 - 1) (s.m.rd F.TWL_CRC_ERR_COUNT (linkKey p l) + 1)) ∧
      (ok = true → n ≠ seq.toNat → To drsp s (word s.m p l (arrivalWord a))) ∧
      (ok = true → n = seq.toNat → (now : Int) - t > 1000 → Does drsp s missed) ∧
      (ok = true → n = seq.toNat → (now : Int) - t ≤ 1000 →
        let theta := (((t2.toNat : Int) - t) - ((now : Int) - t3.toNat)).tdiv 2
        Does drsp s fun m' => (m'.port p).dreq = none ∧ m'.rd F.TWP_DATUM_MISSES p = 0 ∧
          (s.m.rd F.DAT_STS_SRC_VALID 4 = 1 → s.m.rd F.DAT_STS_SRC_PORT 4 = p.val →
            (s.m.datState = DSt.acquire → s.m.dat.first = true →
              m'.word .DAT_OFFSET 4 = thetaWord theta ∧ ((m'.datumOf 4 : Int) - ((now : Int) + theta)) % 2 ^ 64 = 0) ∧
            (s.m.datState = DSt.locked → m'.word .DAT_OFFSET 4 = thetaWord theta ∧ m'.datum = s.m.datum ∧
              (theta.natAbs ≤ 64 → -100 ≤ m'.dat.rate ∧ m'.dat.rate ≤ 100 ∧
                (16 < (8 * theta).natAbs → 0 < theta * m'.dat.rate ∨ m'.datState ≠ DSt.locked)))) ∧
          (s.m.rd F.DAT_STS_SRC_VALID 4 = 0 ∨ s.m.rd F.DAT_STS_SRC_PORT 4 ≠ p.val → m'.datum = s.m.datum))))

/-- Neighbours, the survey, and the fabric's Datum. -/
def Obligations.FabricTopology : Prop := Claim.FabricNeighbours ∧ Claim.SurveyAndDatum

/-- A fabric request of operation op at port p is admitted by window w and served now by the memory at a site (R440, R441): `k` is its byte
key there. Nothing of its channel waits at the port, whose interface is not regulated (R362). -/
def Sys2Proof.Claim.FabServed (m : Module) (p w : Nat) (x : FabMsg) (op : Nat) (t : Site) (k : Nat) : Prop :=
  fabOp x = some op ∧ fabWf x = true ∧ m.ready = true ∧ m.rd F.TWP_STS_EXCLUDED p = 0 ∧ m.fabRoute x.x.dunit.toNat = .here ∧
  (List.range 16).find? (fun v => m.twpWindow p v x.x.p.addr x.x.p.len (opRight op)) = some w ∧
  m.rights (m.rd F.TWP_ADM_CFG_PART p w) x.x.p.addr x.x.p.len &&& opRight op = opRight op ∧ m.site x.x.p.addr = .ok t ∧ t.key = some k ∧
  (defaultLinks (some (portRouter p)) (destRouter x.x.p.addr t)).all m.d2dUp = true ∧ m.siteStatus reqFabric t x.x.p.len = St.ok ∧
  ReadsWell m k x.x.p.len ∧ Quiet m ∧ m.tx = [] ∧ m.transit = [] ∧ Unregulated m (srcIface 0 (some p))

/-- A packet of another module that came in at port p and leaves by port o (R440, R443, R444, R474): with no hop left it is counted and refused,
where the way is down it is refused; another leaves when nothing on its way holds it and, but for one of the control class, the port's bucket holds
its charge, and waits behind those that wait. It leaves with one hop less. -/
def Sys2Proof.Claim.Transits (s : State) (p : PortId) (o : Nat) (x : FabMsg) (i : Instr) : Prop :=
  let v := x.x.p.vc.val
  let b := srcIface 0 (some p.val)
  (x.x.hops = 0 → To i s (((s.m.bump F.TWP_HOPLIM_CNT_COUNT p).fabReply x FSt.hopLimit).leaveRx p x)) ∧
  (x.x.hops ≠ 0 → s.m.transitUp p o x.control = false → To i s ((s.m.fabReply x St.linkDown).leaveRx p x)) ∧
  (x.x.hops ≠ 0 → s.m.transitUp p o x.control = true →
    x.hop.x.hops.toNat + 1 = x.x.hops.toNat ∧ x.hop.x.p.data = x.x.p.data ∧
    (Tbl.get [] s.m.transit (p * 4 + v) = [] → s.m.transitHolds p o x.control = false →
      (x.control = true → To i s ((s.m.assign o x.hop).leaveRx p x)) ∧
      (x.control = false → s.m.txWaits (bucketKey b v) = false → s.m.bucketHolds b v x.charge = true →
        To i s ((((s.m.draw b v x.charge).noteFlits (portPath p o) x.x.p.vc x.units).assign o x.hop).leaveRx p x))) ∧
    (Tbl.get [] s.m.transit (p * 4 + v) ≠ [] ∨ s.m.transitHolds p o x.control = true ∨
        (x.control = false ∧ (s.m.txWaits (bucketKey b v) = true ∨ s.m.bucketHolds b v x.charge = false)) → Does i s fun m' =>
      { m' with transit := s.m.transit } = s.m ∧ ∃ y : FabMsg, y.kind = x.kind ∧ y.x.p.data = x.x.p.data ∧ y.x.dunit = x.x.dunit ∧
        Tbl.get [] m'.transit (p * 4 + v) = Tbl.get [] s.m.transit (p * 4 + v) ++ [(o, y)]))

/-- Fabric requests (R432, R440, R441, R443, R451): one that its port's windows admit reads memory, stores its data and no other byte, or
changes a value atomically, and is answered; it enters the mesh as one packet of its window's partition, fare and channel, which waits for the
port's tokens and on its way as every packet does; one for another module is forwarded; a posted one that is malformed, has no window or no route is
discarded and counted, and one before the module is ready is discarded; an excluded port takes none. The model's choices: the order of the checks at
entry (log entry 62), the requester of an admitted request (63) and when what waits goes on (98). -/
def Sys2Proof.Claim.FabricRequests : Prop := ∀ (p : PortId) (x : FabPacket) (s : State) (w k : Nat) (t : Site),
  let q := x.p
  (FabServed s.m p w ⟨8, x⟩ 0 t k → Does (.fread p x) s fun m' => (x.sunit.toNat ≠ s.m.unit → SameMem s.m m') ∧ ∃ m1 : Module,
    SameMem s.m m1 ∧ m1.links = s.m.links ∧ m1.outbox = s.m.outbox ∧
    m' = (m1.fabReply ⟨8, x⟩ St.ok (s.m.bytes k q.len) ((wordsOf k q.len).map fun _ => false)).leaveRx p ⟨8, x⟩) ∧
  (x.sunit.toNat ≠ s.m.unit →
    (FabServed s.m p w ⟨9, x⟩ 1 t k → Does (.fwrite p x) s fun m' => m'.bytes k q.len = q.data ∧
      ∀ a, a < k ∨ k + q.len ≤ a → m'.byte a = s.m.byte a) ∧
    (FabServed s.m p w ⟨11, x⟩ 5 t k → (∀ c o, t ≠ .scratch c o) → Does (.fatomic p x) s fun m' =>
      m'.num k q.len = (s.m.num k q.len + leNat (q.data.take q.len)) % 2 ^ (8 * q.len) ∧
      ∀ a, a < k ∨ k + q.len ≤ a → m'.byte a = s.m.byte a)) ∧
  (FabServed s.m p w ⟨10, x⟩ 2 t k → Does (.fpwrite p x) s fun m' => m'.bytes k q.len = q.data ∧
    (∀ a, a < k ∨ k + q.len ≤ a → m'.byte a = s.m.byte a) ∧
    ∃ m1 : Module, m1.links = s.m.links ∧ m1.outbox = s.m.outbox ∧ m' = m1.leaveRx p ⟨10, x⟩) ∧
  (∀ kind i, (kind, i) ∈ [(8, Instr.fread p x), (9, .fwrite p x), (10, .fpwrite p x), (11, .fatomic p x)] →
    (s.m.rd F.TWP_STS_EXCLUDED p = 1 → To i s s.m) ∧
    (fabWf ⟨kind, x⟩ = true → s.m.ready = true → s.m.rd F.TWP_STS_EXCLUDED p ≠ 1 →
      (∀ o, s.m.fabRoute x.dunit.toNat = .out o → Transits s p o ⟨kind, x⟩ i) ∧
      ∀ op, fabOp ⟨kind, x⟩ = some op → s.m.fabRoute x.dunit.toNat = .here →
        (List.range 16).find? (fun v => s.m.twpWindow p v q.addr q.len (opRight op)) = some w →
        let part := s.m.rd F.TWP_ADM_CFG_PART p w
        let fare := s.m.rd F.TWP_ADM_CFG_FARE p w
        let y := TxKind.fabric p ⟨kind, x⟩ part fare
        let v := s.m.classOf part fare
        s.m.rights part q.addr q.len &&& opRight op = opRight op →
          To i s (s.m.txStart y [(q.addr, q.len)]).fabRun ∧
          (s.m.tx = [] → s.m.bucketBusy y = true ∨ s.m.bucketHolds (srcIface 0 (some p.val)) v (flitCharge (min op 3) q.len 1) = false →
            To i s (s.m.txStart y [(q.addr, q.len)])))) ∧
  (s.m.rd F.TWP_STS_EXCLUDED p ≠ 1 →
    let counted (f : RegField) : Prop := To (.fpwrite p x) s ((s.m.bump f p).leaveRx p ⟨10, x⟩)
    (fabWf ⟨10, x⟩ = false → counted F.TWP_MALFORMED_CNT_COUNT) ∧
    (fabWf ⟨10, x⟩ = true →
      (s.m.ready = false → To (.fpwrite p x) s (s.m.leaveRx p ⟨10, x⟩)) ∧
      (s.m.ready = true →
        (s.m.fabRoute x.dunit.toNat = .none → counted F.TWP_NOROUTE_CNT_COUNT) ∧
        (s.m.fabRoute x.dunit.toNat = .here → (∀ v, v < 16 → s.m.twpWindow p v q.addr q.len Right.write = false) →
          counted F.TWP_NOWIN_CNT_COUNT))))

/-- Answers of the fabric (R328, R432, R435, R474, R513): a malformed one is discarded and counted; one for another module is forwarded; one of this
module waits where a link of its way holds it, and ends its outstanding request, whose DMA descriptor goes on by the status; one that nothing
awaits is counted, and one of a request issued before a reset of its core is discarded; a request with no answer in time completes TIMEOUT. That an
answer is taken before readiness is asked (log entry 62), that a timeout counts nothing (64) and that a waiting answer goes on in an idle
nanosecond (98) are the model's choices. -/
def Sys2Proof.Claim.FabricAnswers : Prop := ∀ (p : PortId) (x : FabPacket) (c : CoreId) (tag : Nat) (s : State),
  (∀ kind i, (kind, i) ∈ [(12, Instr.frdata p x), (13, .fwack p x)] →
    let src := x.p.src.toNat
    let held := s.m.pathTests (defaultPath src (some (portRouter p)))
    (s.m.rd F.TWP_STS_EXCLUDED p = 1 → To i s s.m) ∧
    (s.m.rd F.TWP_STS_EXCLUDED p ≠ 1 → fabWf ⟨kind, x⟩ = false → To i s ((s.m.bump F.TWP_MALFORMED_CNT_COUNT p).leaveRx p ⟨kind, x⟩)) ∧
    (s.m.rd F.TWP_STS_EXCLUDED p ≠ 1 → fabWf ⟨kind, x⟩ = true →
      (s.m.ready = true → ∀ o, s.m.fabRoute x.dunit.toNat = .out o → Transits s p o ⟨kind, x⟩ i) ∧
      (s.m.fabRoute x.dunit.toNat = .here → src < 576 → held = true →
        To i s { s.m with parked := s.m.parked ++ [.answer p ⟨kind, x⟩] }) ∧
      (s.m.fabRoute x.dunit.toNat = .here → src < 576 → held = false →
        ((∀ r ∈ s.m.fabOut, ¬(r.src = src ∧ r.tag = x.p.tag)) → Does i s fun m' => SameMem s.m m' ∧ m'.cores = s.m.cores ∧
          m'.rd F.NOC_LATE_CNT_COUNT src = min (2 ^ 32 - 1) (s.m.rd F.NOC_LATE_CNT_COUNT src + 1)) ∧
        (∀ role relay, s.m.fabOut = [⟨src, x.p.tag, role, relay, true⟩] → Does i s fun m' => m'.fabOut = [] ∧ SameMem s.m m' ∧
          m'.cores = s.m.cores) ∧
        (∀ role d, s.m.fabOut = [⟨src, x.p.tag, role, false, false⟩] → (s.m.core src).dma = some d →
          (role = .seal → Does i s fun m' => m'.fabOut = [] ∧ SameMem s.m m' ∧ ∃ e, (m'.core src).dma = some e ∧ e.phase = .done ∧
            e.status = if x.status = 0 then 0 else 0x0C) ∧
          (role = .header → x.status ≠ 0 → Does i s fun m' => m'.fabOut = [] ∧ SameMem s.m m' ∧ ∃ e, (m'.core src).dma = some e ∧
            e.phase = .done ∧ e.status = 0x0C ∧ e.detail = x.status.toNat) ∧
          (role = .header → x.status = 0 → x.p.data.getD 4 0 = 1 → Does i s fun m' => m'.fabOut = [] ∧ SameMem s.m m' ∧
            ∃ e, (m'.core src).dma = some e ∧ e.phase = .full))))) ∧
  ((∀ r ∈ s.m.fabOut, ¬(r.src = c.val ∧ r.tag = tag)) → To (.fabricTimeout c tag) s s.m) ∧
  (∀ d, s.m.fabOut = [⟨c.val, tag, .seal, false, false⟩] → (s.m.core c).dma = some d → Does (.fabricTimeout c tag) s fun m' => m'.fabOut = [] ∧
    SameMem s.m m' ∧ ∃ e, (m'.core c).dma = some e ∧ e.phase = .done ∧ e.status = 0x0C ∧ e.detail = St.timeout)

/-- Requests from and to other modules, and their answers. -/
def Obligations.FabricAccesses : Prop := Claim.FabricRequests ∧ Claim.FabricAnswers

/-! ### Die-to-die links, the companion port, test access -/

/-- Die-to-die links (R471, R472, R473, R496): a group that crosses its threshold puts its link into TEST; a test, a training and a
retraining mark the lanes that failed and leave the state that the marks give; TRAIN that does not complete goes DOWN, and in a cold bring-up trains again up to twice (R502); replays, RETRAIN
and DISABLE act as the table of states has it. From any other state nothing but the count of replays changes. That DTD_REPLAYS itself counts the 8
replays is the model's choice (log entry 41). -/
def Sys2Proof.Claim.DieLinks : Prop := ∀ (link : Fin 6) (st : Fin 12) (g : Fin 80) (bad : Fin 1024) (lanes : List LaneId) (req : Requester)
  (s : State),
  let l := stationLink st
  let runs := s.m.d2dState l = D2d.full ∨ s.m.d2dState l = D2d.narrow
  (runs → s.m.groupCode st g = 0 → Does (.laneParityThreshold st g) s fun m' => m'.d2dState l = D2d.test ∧ SameMem s.m m' ∧
    Tbl.get 0 m'.d2dTest l = 1 + st.val * 80 + g.val ∧
    m'.rd F.DTD_SWAP_CNT_COUNT st = min (2 ^ 32 - 1) (s.m.rd F.DTD_SWAP_CNT_COUNT st + 1)) ∧
  (¬runs ∨ s.m.groupCode st g ≠ 0 → To (.laneParityThreshold st g) s s.m) ∧
  (s.m.d2dState link = D2d.test → Tbl.get 0 s.m.d2dTest link = 1 + st.val * 80 + g.val → Does (.laneTestDone link bad) s fun m' =>
    SameMem s.m m' ∧ m'.d2dState link = (m'.d2dOutcome link).1 ∧
    (∀ i, i < 10 → Nat.testBit bad.val i = true → Nat.testBit (m'.badLanes st g) i = true) ∧
    ∀ x h, (x, h) ≠ (st.val, g.val) → x < 12 → h < 80 → m'.badLanes x h = s.m.badLanes x h) ∧
  (s.m.d2dState link ≠ D2d.test → To (.laneTestDone link bad) s s.m) ∧
  (s.m.d2dState link = D2d.train ∨ s.m.d2dState link = D2d.retrain → Does (.dtdTrainDone link lanes) s fun m' => SameMem s.m m' ∧
    m'.d2dState link = (if (m'.d2dOutcome link).1 = D2d.down ∧ s.m.d2dState link = D2d.train ∧ s.m.trainsAgain link = true then D2d.train
      else (m'.d2dOutcome link).1) ∧
    ∀ x ∈ lanes, stationLink x.station = link → x.lane.val < 10 → Nat.testBit (m'.badLanes x.station x.group) x.lane = true) ∧
  (s.m.d2dState link ≠ D2d.train → s.m.d2dState link ≠ D2d.retrain → To (.dtdTrainDone link lanes) s s.m) ∧
  (s.m.d2dState link = D2d.train → Does (.dtdTrainTimeout link) s fun m' => SameMem s.m m' ∧
    m'.d2dState link = if s.m.trainsAgain link then D2d.train else D2d.down) ∧
  (s.m.d2dState link ≠ D2d.train → To (.dtdTrainTimeout link) s s.m) ∧
  (Does (.dtdReplays st) s fun m' => SameMem s.m m' ∧ (runs → m'.d2dState l = D2d.retrain) ∧ (¬runs → m'.d2dState l = s.m.d2dState l) ∧
    m'.rd F.DTD_REPLAY_CNT_COUNT st = min (2 ^ 32 - 1) (s.m.rd F.DTD_REPLAY_CNT_COUNT st + 8)) ∧
  (privileged req.toNat = false → To (.dtdRetrain req st) s s.m ∧ ∀ on, To (.dtdDisable req st on) s s.m) ∧
  (privileged req.toNat = true →
    ((∀ x ∈ linkStations l, s.m.rd F.DTD_CTL_DISABLE x = 0) → Does (.dtdRetrain req st) s fun m' => SameMem s.m m' ∧
      (runs → m'.d2dState l = D2d.retrain) ∧ (s.m.d2dState l = D2d.down → m'.d2dState l = D2d.train)) ∧
    (Does (.dtdDisable req st true) s fun m' => m'.d2dState l = D2d.disabled ∧ m'.rd F.DTD_CTL_DISABLE st = 1 ∧ SameMem s.m m') ∧
    ((∀ x ∈ linkStations l, x ≠ st.val → s.m.rd F.DTD_CTL_DISABLE x = 0) → s.m.d2dState l = D2d.disabled →
      Does (.dtdDisable req st false) s fun m' => m'.d2dState l = D2d.down ∧ m'.rd F.DTD_CTL_DISABLE st = 0 ∧ SameMem s.m m'))

/-- The stop of partitions behind a link that is down (R476): while no plat command runs, the lowest-numbered RUNNING one whose path no
record covers begins to stop and is noted. What a path is here is the model's reading (log entry 42). -/
def Sys2Proof.Claim.LinkStops : Prop := ∀ (link : Fin 6) (s : State),
  (s.m.d2dState link ≠ D2d.down ∨ s.m.rd F.PLT_STS_BUSY 4 = 1 ∨
    (∀ p, p < 16 → s.m.partState p = PSt.running → s.m.plat.affected p link = false) → To (.linkDownPartitionStop link) s s.m) ∧
  ∀ p, p < 16 → s.m.d2dState link = D2d.down → s.m.rd F.PLT_STS_BUSY 4 = 0 → Stage.awaitPlat ≤ s.m.stage → s.m.partState p = PSt.running →
    s.m.plat.affected p link = true → (∀ q, q < p → s.m.partState q = PSt.running → s.m.plat.affected q link = false) → NoneHeld s.m →
    Does (.linkDownPartitionStop link) s fun m' => m'.partState p = PSt.stopping ∧ m'.rd F.PLT_STS_BUSY 4 = 1 ∧
      Nat.testBit (m'.rd F.DTD_PSTOP_PARTS 4) p = true ∧ m'.rd F.DTD_PSTOP_LINK 4 = link.val ∧ SameMem s.m m' ∧ ∃ x, m'.load = some x ∧
      x.op = 3 ∧ x.part = p

/-- The companion port (R482, R484, R485, R487): training leads to IDENT, where the module sends its own as a frame; a valid IDENT leads to UP with the
companion's identity, an invalid or missing one to DOWN with IDENT_ERR; leaving UP ends the companion's requests, answers ABSENT those that the
companion had to answer, and counts the posted packets of the replay buffer; RETRAIN and DISABLE act as the table of states has it. -/
def Sys2Proof.Claim.CompanionPort : Prop := ∀ (mods : Fin 3) (x8 : Bool) (rate : Fin 6) (v pr cap : BitVec 16) (rev w fl : Byte)
  (req : Requester) (s : State),
  let st := s.m.ucpState
  let leaves (m' : Module) : Prop := m'.ucpState = Ucp.down ∧ m'.rd F.UCP_STS_MODULES 4 = 0 ∧ SameMem s.m m'
  (st = Ucp.down → Does .ucpTrainStart s fun m' => m'.ucpState = Ucp.train ∧ SameMem s.m m') ∧
  (st ≠ Ucp.down → To .ucpTrainStart s s.m) ∧
  (st = Ucp.train → rate.val < 4 ∨ s.m.rd F.DTD_LEVEL_LEVEL 4 ≠ 0 → Does (.ucpTrainDone mods x8 rate) s fun m' => m'.ucpState = Ucp.ident ∧
    m'.rd F.UCP_STS_MODULES 4 = mods.val + 1 ∧ m'.rd F.UCP_STS_X8 4 = (if x8 then 1 else 0) ∧ m'.rd F.UCP_STS_RATE 4 = rate.val + 1 ∧
    SameMem s.m m' ∧ ∃ u, m'.outbox = .frame ucpPort 0 u (identBytes Config.vendorId.toNat 0x0940 (Tbl.get 0 s.m.fuses.revs 4) 48 0 3) :: s.m.outbox) ∧
  (st ≠ Ucp.train → To (.ucpTrainDone mods x8 rate) s s.m ∧ To .ucpTrainTimeout s s.m) ∧
  (st = Ucp.train → Does .ucpTrainTimeout s leaves) ∧
  (st ≠ Ucp.ident → To (.ident v pr rev w cap fl) s s.m ∧ To .identTimeout s s.m) ∧
  (st = Ucp.ident →
    (20 ≤ w.toNat → w.toNat ≤ 40 → cap ≠ 0 → fl.toNat < 4 → Does (.ident v pr rev w cap fl) s fun m' => m'.ucpState = Ucp.up ∧
      m'.rd F.UCP_ID_VENDOR 4 = v.toNat ∧ m'.rd F.UCP_ID_PRODUCT 4 = pr.toNat ∧ m'.rd F.UCP_CAP_REVISION 4 = rev.toNat ∧
      m'.rd F.UCP_CAP_WINDOW_LOG2 4 = w.toNat ∧ m'.rd F.UCP_CAP_ATOMICS 4 = fl.toNat % 2 ∧ m'.rd F.UCP_CAP_REQUESTS 4 = fl.toNat / 2 ∧
      SameMem s.m m') ∧
    (w.toNat < 20 ∨ 40 < w.toNat ∨ cap = 0 ∨ 4 ≤ fl.toNat → Does (.ident v pr rev w cap fl) s fun m' => leaves m' ∧
      m'.rd F.UCP_STS_IDENT_ERR 4 = 1) ∧
    Does .identTimeout s fun m' => leaves m' ∧ m'.rd F.UCP_STS_IDENT_ERR 4 = 1) ∧
  (∀ r, (st = Ucp.up → (r = true → (s.m.link ucpPort 0).run = 8) → Does (.ucpDown r) s fun m' => leaves m' ∧ m'.rd F.UCP_CAP_ADMIT 4 = 0 ∧
      m'.link ucpPort 0 = {} ∧ m'.compOut = [] ∧ (∀ e ∈ m'.compEng, e.ans.isSome = true) ∧
      (∀ o ∈ m'.net.outst, o.src ≠ reqCompanion) ∧
      (∀ o ∈ m'.net.resp, o.src = reqCompanion → ∃ h ∈ s.m.compOut, h.packet.src.toNat = reqCompanion) ∧
      (∀ o ∈ m'.net.resp, o.target = 596 → o.status = St.absent) ∧
      (∀ h ∈ s.m.compOut, h.op ≠ 2 → h.packet.tag < txTag → (pathCross h.path).all s.m.d2dUp = true →
        ∃ o ∈ m'.net.resp, o.src = h.packet.src.toNat ∧ o.tag = h.packet.tag ∧ o.status = St.absent) ∧
      m'.rd F.UCP_LOST_CNT_COUNT 4 = min (2 ^ 32 - 1) (s.m.rd F.UCP_LOST_CNT_COUNT 4 +
        (((List.range 8).flatMap (s.m.link ucpPort 0).lostOf).filter FabMsg.posted).length)) ∧
    (st ≠ Ucp.up ∨ (r = true ∧ (s.m.link ucpPort 0).run ≠ 8) → To (.ucpDown r) s s.m)) ∧
  (privileged req.toNat = false → To (.ucpRetrain req) s s.m ∧ ∀ on, To (.ucpDisable req on) s s.m) ∧
  (privileged req.toNat = true →
    (st = Ucp.down ∨ st = Ucp.up → s.m.rd F.UCP_CTL_DISABLE 4 = 0 → Does (.ucpRetrain req) s fun m' => m'.ucpState = Ucp.train ∧
      SameMem s.m m') ∧
    (st ≠ Ucp.absent → Does (.ucpDisable req true) s fun m' => m'.ucpState = Ucp.disabled ∧ SameMem s.m m') ∧
    (st = Ucp.disabled → Does (.ucpDisable req false) s fun m' => m'.ucpState = Ucp.down ∧ SameMem s.m m') ∧
    (st = Ucp.absent → ∀ on, Does (.ucpDisable req on) s fun m' => m'.ucpState = Ucp.absent ∧ SameMem s.m m'))

/-- The companion's request p is refused at the hub (R328, R488), from module m: a counter rises, and where the request has an answer it leaves by the
port, RDATA for a read and WACK else. -/
def Sys2Proof.Claim.HubRefuses (i : Instr) (s : State) (m : Module) (f : RegField) (answered read : Bool) (p : Packet) (status : Nat) : Prop :=
  Does i s fun m' => SameMem s.m m' ∧ m'.rd f 4 = min (2 ^ 32 - 1) (s.m.rd f 4 + 1) ∧
    if answered then
      m' = (((m.bump f 4).dropOutst reqCompanion p.tag).emit (.complete reqCompanion p.tag status [])).ucpReturn read p.tag status [] [] p.vc
    else m' = m.bump f 4

/-- What the hub does with a well-formed request of the companion while the port is UP (R361, R362, R488), from module m: none is made where its IDENT
says so; one that no window admits is UNMAPPED, one that the window's partition lacks the right for OUT-OF-MAP; another goes on as requester 0x900. -/
def Sys2Proof.Claim.HubTakes (i : Instr) (s : State) (m : Module) (op : Nat) (p : Packet) : Prop :=
  let q : Packet := { p with src := BitVec.ofNat 12 0x900 }
  let x : Packet := { q with fare := BitVec.ofNat 8 (s.m.rd F.QOS_HUBSRC_CFG_FARE 4 9), vc := Fin.ofNat 4 (s.m.rd F.QOS_HUBSRC_CFG_VC 4 9) }
  let place := srcIface 0x900 none * 4 + x.vc.val
  let win (w : Nat) : Bool := s.m.ucpWindow w p.addr p.len (opRight op)
  let right (w : Nat) : Prop := s.m.rights (s.m.rd F.UCP_ADM_CFG_PART 4 w) p.addr p.len &&& opRight op = opRight op
  (s.m.rd F.UCP_CAP_REQUESTS 4 = 0 → HubRefuses i s m F.UCP_MALFORMED_CNT_COUNT (op != 2) (op == 0) p St.malformed) ∧
  (s.m.rd F.UCP_CAP_REQUESTS 4 = 1 →
    ((∀ w, w < 4 → win w = false) → HubRefuses i s m F.UCP_NOWIN_CNT_COUNT (op != 2) (op == 0) p St.unmapped) ∧
    ∀ w, w < 4 → win w = true → (∀ v, v < w → win v = false) →
      (¬right w → HubRefuses i s m F.UCP_NOWIN_CNT_COUNT (op != 2) (op == 0) p St.outOfMap) ∧
      (right w → To i s (m.inject op q) ∧ (m.mayIssue op q = true →
        (Tbl.get [] s.m.qos.held place = [] → m.txWaits place = false → m.bucketHolds (srcIface 0x900 none) x.vc (m.charged op x) = true →
          m.inject op q = m.launch op x []) ∧
        (Tbl.get [] s.m.qos.held place ≠ [] ∨ m.txWaits place = true ∨ m.bucketHolds (srcIface 0x900 none) x.vc (m.charged op x) = false →
          Tbl.get [] (m.inject op q).qos.held place = Tbl.get [] s.m.qos.held place ++ [(op, x)] ∧
          { m.inject op q with qos := s.m.qos } = { m with qos := s.m.qos }))))

/-- Requests and answers of the companion (R328, R339, R483, R487, R488): while the port is not UP nothing arrives; a packet leaves the port's receive
buffer; one against R325 and R327 is counted, and answered where it is a request that is not posted; a request goes through the windows, also one that
a mesh command names with the companion as its requester; an answer ends the request that waits for it, and another is late. The model's
choices: the channel of a response at the port (log entry 45), and which kinds that R327 does not list are answered (log entry 46). -/
def Sys2Proof.Claim.CompanionRequests : Prop := ∀ (kind : Fin 256) (atop : Fin 32) (p : Packet) (s : State),
  let i := Instr.companionRequest kind atop p
  let m1 := s.m.leaveRx ucpPort ⟨kind, { dunit := 0, sunit := 0, hops := 0, op := BitVec.ofNat 8 atop.val, status := p.head.status, p := p }⟩
  let mine (h : HeldReq) : Bool := h.packet.src == p.src && h.packet.tag % 16384 == p.tag && (h.op == 0) == (kind.val == 6)
  let counted : Prop := Does i s fun m' => SameMem s.m m' ∧ m'.net = s.m.net ∧ m'.compOut = s.m.compOut ∧
    m'.rd F.UCP_MALFORMED_CNT_COUNT 4 = min (2 ^ 32 - 1) (s.m.rd F.UCP_MALFORMED_CNT_COUNT 4 + 1)
  (s.m.ucpState ≠ Ucp.up → To i s s.m) ∧
  (s.m.ucpState = Ucp.up → SameMem s.m m1 ∧ m1.regs = s.m.regs ∧ m1.net = s.m.net ∧
    (kind.val ≠ 6 → kind.val ≠ 7 →
      (kindOp kind atop = none → HubRefuses i s m1 F.UCP_MALFORMED_CNT_COUNT (kindAnswered kind) false p St.malformed) ∧
      (∀ op, kindOp kind atop = some op → kindWf kind atop p = false →
        HubRefuses i s m1 F.UCP_MALFORMED_CNT_COUNT (kindAnswered kind) (kind.val == 1) p St.malformed) ∧
      (∀ op, kindOp kind atop = some op → kindWf kind atop p = true → HubTakes i s m1 op p)) ∧
    (kind.val = 6 ∨ kind.val = 7 →
      (responseWf kind p = false → counted) ∧
      (responseWf kind p = true →
        (∀ h, s.m.compOut.find? mine = some h →
          (kind.val = 6 → p.data ≠ [] → p.data.length ≠ h.size → counted) ∧
          ((kind.val = 7 ∨ p.data = [] ∨ p.data.length = h.size) → Does i s fun m' => m'.compOut = s.m.compOut.eraseP mine ∧
            (h.op ≠ 2 → h.packet.tag < txTag → (pathCross h.path).all s.m.d2dUp = true → ∃ o, m'.net.resp = s.m.net.resp ++ [o] ∧
              o.src = h.packet.src.toNat ∧ o.tag = h.packet.tag ∧ o.status = p.head.status.toNat ∧ o.data = p.data))) ∧
        (s.m.compOut.find? mine = none → (∀ e ∈ s.m.compEng, e.src ≠ p.src.toNat ∨ e.tag ≠ p.tag ∨ e.sent = false ∨ e.ans ≠ none) →
          p.src.toNat < 576 → Does i s fun m' => SameMem s.m m' ∧ m'.net = s.m.net ∧
            m'.rd F.NOC_LATE_CNT_COUNT p.src.toNat = min (2 ^ 32 - 1) (s.m.rd F.NOC_LATE_CNT_COUNT p.src.toNat + 1))))) ∧
  (p.src.toNat = reqCompanion →
    let hub (j : Instr) (op : Nat) : Prop := packetWf p op = true → (s.m.ucpState ≠ Ucp.up → To j s s.m) ∧
      (s.m.ucpState = Ucp.up → HubTakes j s s.m op p)
    hub (.meshRead p) 0 ∧ hub (.meshWrite p) 1 ∧ hub (.pwrite p) 2 ∧ hub (.atomicSwap p) 3 ∧ hub (.atomicCas p) 4 ∧ hub (.atomicAdd p) 5 ∧
    hub (.atomicAnd p) 6 ∧ hub (.atomicOr p) 7 ∧ hub (.atomicXor p) 8 ∧ hub (.smax p) 9 ∧ hub (.smin p) 10 ∧ hub (.umax p) 11 ∧ hub (.umin p) 12 ∧
    hub (.fadd p) 13)

/-- The companion port and the companion's requests. -/
def Obligations.Companion : Prop := Claim.CompanionPort ∧ Claim.CompanionRequests

/-- The test access port under the lock (R489, R490, R492): one chain of five dies, whose instruction register of 40 bits shows each die's capture and
the lock; a die's instruction enters its own 8 bits and BYPASS the others; IDCODE selects the die's identification, the instructions that the lock
turns into BYPASS and every reserved code select the bypass bit; each die in BYPASS before TDO delays the die's data by one bit, and nothing but the
port changes. What a scan leaves in the other dies and captures beside the lock is the model's choice (log entries 43 and 116). -/
def Sys2Proof.Claim.TestAccess : Prop := ∀ (d : DieId) (code : Byte) (s : State),
  let taps (i : Instr) (c : Nat) (P : Nat → Prop) : Prop := Does i s fun m' => ∃ dr, P dr ∧ Tbl.get 1 m'.tapIr d = c ∧ Tbl.get 0 m'.tapDr d = dr ∧
    (∀ e, e < 5 → e ≠ d.val → Tbl.get 1 m'.tapIr e = 0xFF ∧ Tbl.get 0 m'.tapDr e = 0) ∧
    m'.outbox = .tdo 0x05_05_05_05_05 (dr * 2 ^ (if d.val = 4 then 4 else 3 - d.val)) :: s.m.outbox ∧
    SameMem s.m m' ∧ SameRegs s.m m' [] ∧ m'.cores = s.m.cores
  taps (.idcode d) 1 (fun n => n = s.m.idcode d ∧ n % 2 = 1) ∧ taps (.sample d) 2 (fun _ => True) ∧
  taps (.preload d) 3 (fun n => n = 0) ∧ taps (.extest d) 4 (fun n => n = 0) ∧ taps (.clamp d) 5 (fun n => n = 0) ∧
  taps (.highz d) 6 (fun n => n = 0) ∧ taps (.ijtagRo d) 0x10 (fun _ => True) ∧ taps (.ijtag d) 0x11 (fun n => n = 0) ∧
  taps (.bypass d code) code.toNat (fun n => n = 0)

/-- The states of die-to-die links, the stop of partitions behind one, and the dies' test access ports. -/
def Obligations.LinksAndTest : Prop := Claim.DieLinks ∧ Claim.LinkStops ∧ Claim.TestAccess

/-! ### The whole module -/

/-- A step takes the command at the front of the queue and gives exec's outcome with the rest of the queue; with no command waiting one
nanosecond passes. The queue and the idle nanosecond are the model's choices (log entries 1 and 2). -/
def Obligations.StepRunsFront : Prop :=
  (∀ (c : Instr) (rest : List Instr) (m : Module), step ⟨m, c :: rest⟩ = exec c ⟨m, rest⟩) ∧
  ∀ m : Module, step ⟨m, []⟩ = .next ⟨m.tick, []⟩

/-- One nanosecond with no command waiting, the model's choice (log entry 2): the Datum of the hub, and of every die that tracks it, rises by 1, or
by none or 2 where the correction of its rate has gathered a whole count (R458); while nothing waits at the mesh, the hub or a port, no byte of memory
and no core changes, and no register but the counters of what is held (R353, R378) and of the die-to-die replays, free numbers (log entry 8). Without
power nothing changes but the time that a tripped module's service side counts (R544). -/
def Obligations.IdleTick : Prop := ∀ s : State, s.pending = [] → ∃ t, step s = .next t ∧ t.pending = [] ∧
  (s.m.stage = 0 → t.m = if s.m.tripped then { s.m with now := s.m.now + 1 } else s.m) ∧
  (s.m.stage ≠ 0 → s.m.parked = [] → s.m.net.wait = [] → s.m.tx = [] → s.m.transit = [] → s.m.compEng = [] →
    t.m.now = s.m.now + 1 ∧ t.m.cores = s.m.cores ∧ SameMem s.m t.m ∧
    (∀ r u i, r ≠ .QOS_SRC_HOLD_CNT → r ≠ .NOC_RET_STALL_CNT → r ≠ .DTD_REPLAY_CNT → t.m.word r u i = s.m.word r u i) ∧
    (s.m.qos.held = [] → s.m.qos.starved = [] → s.m.net.ret = [] →
      (∀ x, x < 12 → s.m.rd F.DTD_STS_STATE x ≠ D2d.full ∧ s.m.rd F.DTD_STS_STATE x ≠ D2d.narrow) → t.m.regs = s.m.regs) ∧
    let corrects := (s.m.datState = DSt.locked ∧ s.m.dat.todo ≠ 0) ∨ s.m.datState = DSt.holdover
    let gathered := s.m.dat.part + if corrects then s.m.dat.rate else 0
    let n := if 1000000 ≤ gathered then 2 else if gathered ≤ -1000000 then 0 else 1
    t.m.datumOf 4 = (s.m.datumOf 4 + n) % 2 ^ 64 ∧
      ∀ d, d < 4 → t.m.datumOf d = (s.m.datumOf d + if s.m.rd F.DAT_DSTS_TRACK d = 1 then n else 1) % 2 ^ 64)

/-- Every command ends in a next state and leaves the commands that wait as they are: no command of the module faults or is refused. -/
def Obligations.CommandsComplete : Prop := ∀ (i : Instr) (s : State), ∃ t, exec i s = .next t ∧ t.pending = s.pending

/-- The state after reset (R501): every register has its reset word, every core is HELD at its reset values, the stage is IDLE and the module not
ready, nothing is queued, and memory is in its canonical form. That power is off, the values that the manual does not give, and that unwritten memory
reads as 0 are the model's choices (log entries 3 to 7). -/
def Obligations.ResetState : Prop :=
  (∀ r u i, State.reset.m.word r u i = r.resetWord i) ∧ (∀ c, State.reset.m.core c = {}) ∧ State.reset.m.stage = 0 ∧
  State.reset.m.ready = false ∧ State.reset.pending = [] ∧ State.reset.memWf ∧ (∀ k, State.reset.m.byte k = 0) ∧
  ∀ c, State.reset.m.good c = true

/-- Every step keeps memory in its canonical form: bytes, poisoned words, and the wrong symbols of stored codes and check words by rising
address, none at the value of an unlisted one. -/
def Obligations.MemoryStaysCanonical : Prop := ∀ s t : State, s.memWf → step s = .next t → t.memWf

/-- The security floor (R582) never falls, whatever the command: no step lowers the number of blown bits. -/
def Obligations.FloorNeverFalls : Prop := ∀ s t : State, step s = .next t → s.m.fuses.floor ≤ t.m.fuses.floor
end

