-- ==== Sys2Proof/Laws/Frames.lean ====
section
/-! SUPPORT. Frames: the CRC fits its field, and a frame that the module makes passes it. -/

namespace Sys2Proof.Machine

theorem crc24Byte_lt (c : Nat) (b : Byte) : crc24Byte c b < 2 ^ 24 := by
  simp only [crc24Byte, show List.range 8 = [0, 1, 2, 3, 4, 5, 6, 7] from rfl, List.foldl_cons, List.foldl_nil]
  exact Nat.mod_lt _ (by decide)

/-- The CRC has 24 bits. -/
theorem crc24_lt (l : List Byte) : crc24 l < 2 ^ 24 := by
  suffices h : ∀ (l : List Byte) (c : Nat), c < 2 ^ 24 → l.foldl crc24Byte c < 2 ^ 24 from h l _ (by decide)
  intro l
  induction l with
  | nil => exact fun _ h => h
  | cons b l ih => exact fun c _ => ih _ (crc24Byte_lt c b)

/-- The bits below the CRC of a link word. -/
def lowWord (type ch seq ack cch ccnt : Nat) : Nat :=
  type % 4 + ch % 8 * 4 + seq % 1024 * 2 ^ 5 + ack % 1024 * 2 ^ 15 + cch % 8 * 2 ^ 25 + ccnt % 16 * 2 ^ 28

theorem lowWord_lt (type ch seq ack cch ccnt : Nat) : lowWord type ch seq ack cch ccnt < 2 ^ 32 := by
  simp only [lowWord]; omega

/-- A link word as a number: the CRC above the rest. -/
theorem frameWord_toNat (type ch seq ack cch ccnt : Nat) (l : List Byte) :
    (frameWord type ch seq ack cch ccnt l).toNat =
      lowWord type ch seq ack cch ccnt + crc24 (l ++ leBytes 4 (lowWord type ch seq ack cch ccnt)) * 2 ^ 32 := by
  have h := lowWord_lt type ch seq ack cch ccnt
  have hc := crc24_lt (l ++ leBytes 4 (lowWord type ch seq ack cch ccnt))
  show (BitVec.ofNat 56 (lowWord type ch seq ack cch ccnt + crc24 (l ++ leBytes 4 (lowWord type ch seq ack cch ccnt)) * 2 ^ 32)).toNat = _
  rw [BitVec.toNat_ofNat, Nat.mod_eq_of_lt (by omega)]

/-- A frame that the module makes passes its CRC, unless its TYPE is 3. -/
theorem frameOk_frameWord (type ch seq ack cch ccnt : Nat) (l : List Byte) :
    frameOk (frameWord type ch seq ack cch ccnt l) l = (type % 4 != 3) := by
  have h := lowWord_lt type ch seq ack cch ccnt
  have hc := crc24_lt (l ++ leBytes 4 (lowWord type ch seq ack cch ccnt))
  have h1 : (frameWord type ch seq ack cch ccnt l).toNat % 2 ^ 32 = lowWord type ch seq ack cch ccnt := by
    rw [frameWord_toNat]; omega
  have h2 : bitsAt (frameWord type ch seq ack cch ccnt l).toNat 32 24 = crc24 (l ++ leBytes 4 (lowWord type ch seq ack cch ccnt)) := by
    rw [bitsAt, frameWord_toNat]; omega
  have h3 : bitsAt (frameWord type ch seq ack cch ccnt l).toNat 0 2 = type % 4 := by
    rw [bitsAt, frameWord_toNat]; simp only [lowWord]; omega
  unfold frameOk
  rw [h1, h2, h3]
  simp

/-- A link word is made of its three parts. -/
theorem wordOf_parts (w : BitVec 56) : wordOf (w.extractLsb' 0 15) (w.extractLsb' 15 17) (w.extractLsb' 32 24) = w := by
  ext i hi
  simp only [wordOf]
  grind

theorem wordOf_toNat (h : BitVec 15) (b : BitVec 17) (c : BitVec 24) :
    (wordOf h b c).toNat = h.toNat + b.toNat * 2 ^ 15 + c.toNat * 2 ^ 32 := by
  rw [wordOf, BitVec.toNat_append, BitVec.toNat_append, ← Nat.shiftLeft_add_eq_or_of_lt b.isLt, ← Nat.shiftLeft_add_eq_or_of_lt h.isLt,
    Nat.shiftLeft_eq, Nat.shiftLeft_eq]
  omega

/-- At most one CRC passes. -/
theorem frameOk_unique {h : BitVec 15} {b : BitVec 17} {c c' : BitVec 24} {l : List Byte} (hc : frameOk (wordOf h b c) l = true)
    (hc' : frameOk (wordOf h b c') l = true) : c = c' := by
  have hh := h.isLt
  have hb := b.isLt
  have low (x : BitVec 24) : (wordOf h b x).toNat % 2 ^ 32 = h.toNat + b.toNat * 2 ^ 15 := by rw [wordOf_toNat]; omega
  have top (x : BitVec 24) : bitsAt (wordOf h b x).toNat 32 24 = x.toNat := by
    have := x.isLt
    rw [bitsAt, wordOf_toNat]; omega
  simp only [frameOk, Bool.and_eq_true, beq_iff_eq, low, top] at hc hc'
  exact BitVec.eq_of_toNat_eq (hc.2.trans hc'.2.symm)

end Sys2Proof.Machine
end

