-- ==== Sys2Proof/Laws/State.lean ====
section
/-! SUPPORT. What each update of the module leaves as it was: one lemma per field and update. -/

namespace Sys2Proof.Machine

variable (m : Module)

/-! ### `setWord` -/

@[simp] theorem Module.setWord_mem (r : Reg) (u i : Nat) (w : Word) : (m.setWord r u i w).mem = m.mem := rfl
@[simp] theorem Module.setWord_poison (r : Reg) (u i : Nat) (w : Word) : (m.setWord r u i w).poison = m.poison := rfl
@[simp] theorem Module.setWord_scrErr (r : Reg) (u i : Nat) (w : Word) : (m.setWord r u i w).scrErr = m.scrErr := rfl
@[simp] theorem Module.setWord_ueAt (r : Reg) (u i : Nat) (w : Word) : (m.setWord r u i w).ueAt = m.ueAt := rfl
@[simp] theorem Module.setWord_wordErr (r : Reg) (u i : Nat) (w : Word) : (m.setWord r u i w).wordErr = m.wordErr := rfl
@[simp] theorem Module.setWord_ckErr (r : Reg) (u i : Nat) (w : Word) : (m.setWord r u i w).ckErr = m.ckErr := rfl
@[simp] theorem Module.setWord_ckOff (r : Reg) (u i : Nat) (w : Word) : (m.setWord r u i w).ckOff = m.ckOff := rfl
@[simp] theorem Module.setWord_nearLost (r : Reg) (u i : Nat) (w : Word) : (m.setWord r u i w).nearLost = m.nearLost := rfl
@[simp] theorem Module.setWord_cores (r : Reg) (u i : Nat) (w : Word) : (m.setWord r u i w).cores = m.cores := rfl
@[simp] theorem Module.setWord_slices (r : Reg) (u i : Nat) (w : Word) : (m.setWord r u i w).slices = m.slices := rfl
@[simp] theorem Module.setWord_fars (r : Reg) (u i : Nat) (w : Word) : (m.setWord r u i w).fars = m.fars := rfl
@[simp] theorem Module.setWord_slow (r : Reg) (u i : Nat) (w : Word) : (m.setWord r u i w).slow = m.slow := rfl
@[simp] theorem Module.setWord_slowBack (r : Reg) (u i : Nat) (w : Word) : (m.setWord r u i w).slowBack = m.slowBack := rfl
@[simp] theorem Module.setWord_clkHeld (r : Reg) (u i : Nat) (w : Word) : (m.setWord r u i w).clkHeld = m.clkHeld := rfl
@[simp] theorem Module.setWord_ran (r : Reg) (u i : Nat) (w : Word) : (m.setWord r u i w).ran = m.ran := rfl
@[simp] theorem Module.setWord_tried (r : Reg) (u i : Nat) (w : Word) : (m.setWord r u i w).tried = m.tried := rfl
@[simp] theorem Module.setWord_compOut (r : Reg) (u i : Nat) (w : Word) : (m.setWord r u i w).compOut = m.compOut := rfl
@[simp] theorem Module.setWord_compEng (r : Reg) (u i : Nat) (w : Word) : (m.setWord r u i w).compEng = m.compEng := rfl
@[simp] theorem Module.setWord_compTag (r : Reg) (u i : Nat) (w : Word) : (m.setWord r u i w).compTag = m.compTag := rfl
@[simp] theorem Module.setWord_tx (r : Reg) (u i : Nat) (w : Word) : (m.setWord r u i w).tx = m.tx := rfl
@[simp] theorem Module.setWord_txNext (r : Reg) (u i : Nat) (w : Word) : (m.setWord r u i w).txNext = m.txNext := rfl
@[simp] theorem Module.setWord_parked (r : Reg) (u i : Nat) (w : Word) : (m.setWord r u i w).parked = m.parked := rfl
@[simp] theorem Module.setWord_scrubs (r : Reg) (u i : Nat) (w : Word) : (m.setWord r u i w).scrubs = m.scrubs := rfl
@[simp] theorem Module.setWord_repairs (r : Reg) (u i : Nat) (w : Word) : (m.setWord r u i w).repairs = m.repairs := rfl
@[simp] theorem Module.setWord_net (r : Reg) (u i : Nat) (w : Word) : (m.setWord r u i w).net = m.net := rfl
@[simp] theorem Module.setWord_flits (r : Reg) (u i : Nat) (w : Word) : (m.setWord r u i w).flits = m.flits := rfl
@[simp] theorem Module.setWord_ctl (r : Reg) (u i : Nat) (w : Word) : (m.setWord r u i w).ctl = m.ctl := rfl
@[simp] theorem Module.setWord_qos (r : Reg) (u i : Nat) (w : Word) : (m.setWord r u i w).qos = m.qos := rfl
@[simp] theorem Module.setWord_plat (r : Reg) (u i : Nat) (w : Word) : (m.setWord r u i w).plat = m.plat := rfl
@[simp] theorem Module.setWord_platLoaded (r : Reg) (u i : Nat) (w : Word) : (m.setWord r u i w).platLoaded = m.platLoaded := rfl
@[simp] theorem Module.setWord_load (r : Reg) (u i : Nat) (w : Word) : (m.setWord r u i w).load = m.load := rfl
@[simp] theorem Module.setWord_codes (r : Reg) (u i : Nat) (w : Word) : (m.setWord r u i w).codes = m.codes := rfl
@[simp] theorem Module.setWord_resetting (r : Reg) (u i : Nat) (w : Word) : (m.setWord r u i w).resetting = m.resetting := rfl
@[simp] theorem Module.setWord_obs (r : Reg) (u i : Nat) (w : Word) : (m.setWord r u i w).obs = m.obs := rfl
@[simp] theorem Module.setWord_links (r : Reg) (u i : Nat) (w : Word) : (m.setWord r u i w).links = m.links := rfl
@[simp] theorem Module.setWord_ports (r : Reg) (u i : Nat) (w : Word) : (m.setWord r u i w).ports = m.ports := rfl
@[simp] theorem Module.setWord_transit (r : Reg) (u i : Nat) (w : Word) : (m.setWord r u i w).transit = m.transit := rfl
@[simp] theorem Module.setWord_fabOut (r : Reg) (u i : Nat) (w : Word) : (m.setWord r u i w).fabOut = m.fabOut := rfl
@[simp] theorem Module.setWord_fabTag (r : Reg) (u i : Nat) (w : Word) : (m.setWord r u i w).fabTag = m.fabTag := rfl
@[simp] theorem Module.setWord_dat (r : Reg) (u i : Nat) (w : Word) : (m.setWord r u i w).dat = m.dat := rfl
@[simp] theorem Module.setWord_surveyOk (r : Reg) (u i : Nat) (w : Word) : (m.setWord r u i w).surveyOk = m.surveyOk := rfl
@[simp] theorem Module.setWord_met (r : Reg) (u i : Nat) (w : Word) : (m.setWord r u i w).met = m.met := rfl
@[simp] theorem Module.setWord_metBuilt (r : Reg) (u i : Nat) (w : Word) : (m.setWord r u i w).metBuilt = m.metBuilt := rfl
@[simp] theorem Module.setWord_fwOk (r : Reg) (u i : Nat) (w : Word) : (m.setWord r u i w).fwOk = m.fwOk := rfl
@[simp] theorem Module.setWord_lockLost (r : Reg) (u i : Nat) (w : Word) : (m.setWord r u i w).lockLost = m.lockLost := rfl
@[simp] theorem Module.setWord_lanes (r : Reg) (u i : Nat) (w : Word) : (m.setWord r u i w).lanes = m.lanes := rfl
@[simp] theorem Module.setWord_d2dTest (r : Reg) (u i : Nat) (w : Word) : (m.setWord r u i w).d2dTest = m.d2dTest := rfl
@[simp] theorem Module.setWord_tapIr (r : Reg) (u i : Nat) (w : Word) : (m.setWord r u i w).tapIr = m.tapIr := rfl
@[simp] theorem Module.setWord_tapDr (r : Reg) (u i : Nat) (w : Word) : (m.setWord r u i w).tapDr = m.tapDr := rfl
@[simp] theorem Module.setWord_fuses (r : Reg) (u i : Nat) (w : Word) : (m.setWord r u i w).fuses = m.fuses := rfl
@[simp] theorem Module.setWord_flp (r : Reg) (u i : Nat) (w : Word) : (m.setWord r u i w).flp = m.flp := rfl
@[simp] theorem Module.setWord_ledger (r : Reg) (u i : Nat) (w : Word) : (m.setWord r u i w).ledger = m.ledger := rfl
@[simp] theorem Module.setWord_spares (r : Reg) (u i : Nat) (w : Word) : (m.setWord r u i w).spares = m.spares := rfl
@[simp] theorem Module.setWord_sparesTemp (r : Reg) (u i : Nat) (w : Word) : (m.setWord r u i w).sparesTemp = m.sparesTemp := rfl
@[simp] theorem Module.setWord_bringAt (r : Reg) (u i : Nat) (w : Word) : (m.setWord r u i w).bringAt = m.bringAt := rfl
@[simp] theorem Module.setWord_rst (r : Reg) (u i : Nat) (w : Word) : (m.setWord r u i w).rst = m.rst := rfl
@[simp] theorem Module.setWord_passed (r : Reg) (u i : Nat) (w : Word) : (m.setWord r u i w).passed = m.passed := rfl
@[simp] theorem Module.setWord_boot (r : Reg) (u i : Nat) (w : Word) : (m.setWord r u i w).boot = m.boot := rfl
@[simp] theorem Module.setWord_ret (r : Reg) (u i : Nat) (w : Word) : (m.setWord r u i w).ret = m.ret := rfl
@[simp] theorem Module.setWord_hsk (r : Reg) (u i : Nat) (w : Word) : (m.setWord r u i w).hsk = m.hsk := rfl
@[simp] theorem Module.setWord_nor (r : Reg) (u i : Nat) (w : Word) : (m.setWord r u i w).nor = m.nor := rfl
@[simp] theorem Module.setWord_jr (r : Reg) (u i : Nat) (w : Word) : (m.setWord r u i w).jr = m.jr := rfl
@[simp] theorem Module.setWord_life (r : Reg) (u i : Nat) (w : Word) : (m.setWord r u i w).life = m.life := rfl
@[simp] theorem Module.setWord_svc (r : Reg) (u i : Nat) (w : Word) : (m.setWord r u i w).svc = m.svc := rfl
@[simp] theorem Module.setWord_platDigests (r : Reg) (u i : Nat) (w : Word) : (m.setWord r u i w).platDigests = m.platDigests := rfl
@[simp] theorem Module.setWord_fns (r : Reg) (u i : Nat) (w : Word) : (m.setWord r u i w).fns = m.fns := rfl
@[simp] theorem Module.setWord_arqs (r : Reg) (u i : Nat) (w : Word) : (m.setWord r u i w).arqs = m.arqs := rfl
@[simp] theorem Module.setWord_dpqs (r : Reg) (u i : Nat) (w : Word) : (m.setWord r u i w).dpqs = m.dpqs := rfl
@[simp] theorem Module.setWord_line (r : Reg) (u i : Nat) (w : Word) : (m.setWord r u i w).line = m.line := rfl
@[simp] theorem Module.setWord_badParity (r : Reg) (u i : Nat) (w : Word) : (m.setWord r u i w).badParity = m.badParity := rfl
@[simp] theorem Module.setWord_counters (r : Reg) (u i : Nat) (w : Word) : (m.setWord r u i w).counters = m.counters := rfl
@[simp] theorem Module.setWord_incs (r : Reg) (u i : Nat) (w : Word) : (m.setWord r u i w).incs = m.incs := rfl
@[simp] theorem Module.setWord_frz (r : Reg) (u i : Nat) (w : Word) : (m.setWord r u i w).frz = m.frz := rfl
@[simp] theorem Module.setWord_frzBack (r : Reg) (u i : Nat) (w : Word) : (m.setWord r u i w).frzBack = m.frzBack := rfl
@[simp] theorem Module.setWord_after (r : Reg) (u i : Nat) (w : Word) : (m.setWord r u i w).after = m.after := rfl
@[simp] theorem Module.setWord_datum (r : Reg) (u i : Nat) (w : Word) : (m.setWord r u i w).datum = m.datum := rfl
@[simp] theorem Module.setWord_now (r : Reg) (u i : Nat) (w : Word) : (m.setWord r u i w).now = m.now := rfl
@[simp] theorem Module.setWord_freeCtr (r : Reg) (u i : Nat) (w : Word) : (m.setWord r u i w).freeCtr = m.freeCtr := rfl
@[simp] theorem Module.setWord_outbox (r : Reg) (u i : Nat) (w : Word) : (m.setWord r u i w).outbox = m.outbox := rfl

/-! ### `setCore` -/

@[simp] theorem Module.setCore_regs (c : Nat) (k : Core) : (m.setCore c k).regs = m.regs := rfl
@[simp] theorem Module.setCore_mem (c : Nat) (k : Core) : (m.setCore c k).mem = m.mem := rfl
@[simp] theorem Module.setCore_poison (c : Nat) (k : Core) : (m.setCore c k).poison = m.poison := rfl
@[simp] theorem Module.setCore_scrErr (c : Nat) (k : Core) : (m.setCore c k).scrErr = m.scrErr := rfl
@[simp] theorem Module.setCore_ueAt (c : Nat) (k : Core) : (m.setCore c k).ueAt = m.ueAt := rfl
@[simp] theorem Module.setCore_wordErr (c : Nat) (k : Core) : (m.setCore c k).wordErr = m.wordErr := rfl
@[simp] theorem Module.setCore_ckErr (c : Nat) (k : Core) : (m.setCore c k).ckErr = m.ckErr := rfl
@[simp] theorem Module.setCore_ckOff (c : Nat) (k : Core) : (m.setCore c k).ckOff = m.ckOff := rfl
@[simp] theorem Module.setCore_nearLost (c : Nat) (k : Core) : (m.setCore c k).nearLost = m.nearLost := rfl
@[simp] theorem Module.setCore_slices (c : Nat) (k : Core) : (m.setCore c k).slices = m.slices := rfl
@[simp] theorem Module.setCore_fars (c : Nat) (k : Core) : (m.setCore c k).fars = m.fars := rfl
@[simp] theorem Module.setCore_slow (c : Nat) (k : Core) : (m.setCore c k).slow = m.slow := rfl
@[simp] theorem Module.setCore_slowBack (c : Nat) (k : Core) : (m.setCore c k).slowBack = m.slowBack := rfl
@[simp] theorem Module.setCore_clkHeld (c : Nat) (k : Core) : (m.setCore c k).clkHeld = m.clkHeld := rfl
@[simp] theorem Module.setCore_ran (c : Nat) (k : Core) : (m.setCore c k).ran = m.ran := rfl
@[simp] theorem Module.setCore_tried (c : Nat) (k : Core) : (m.setCore c k).tried = m.tried := rfl
@[simp] theorem Module.setCore_compOut (c : Nat) (k : Core) : (m.setCore c k).compOut = m.compOut := rfl
@[simp] theorem Module.setCore_compEng (c : Nat) (k : Core) : (m.setCore c k).compEng = m.compEng := rfl
@[simp] theorem Module.setCore_compTag (c : Nat) (k : Core) : (m.setCore c k).compTag = m.compTag := rfl
@[simp] theorem Module.setCore_tx (c : Nat) (k : Core) : (m.setCore c k).tx = m.tx := rfl
@[simp] theorem Module.setCore_txNext (c : Nat) (k : Core) : (m.setCore c k).txNext = m.txNext := rfl
@[simp] theorem Module.setCore_parked (c : Nat) (k : Core) : (m.setCore c k).parked = m.parked := rfl
@[simp] theorem Module.setCore_scrubs (c : Nat) (k : Core) : (m.setCore c k).scrubs = m.scrubs := rfl
@[simp] theorem Module.setCore_repairs (c : Nat) (k : Core) : (m.setCore c k).repairs = m.repairs := rfl
@[simp] theorem Module.setCore_net (c : Nat) (k : Core) : (m.setCore c k).net = m.net := rfl
@[simp] theorem Module.setCore_flits (c : Nat) (k : Core) : (m.setCore c k).flits = m.flits := rfl
@[simp] theorem Module.setCore_ctl (c : Nat) (k : Core) : (m.setCore c k).ctl = m.ctl := rfl
@[simp] theorem Module.setCore_qos (c : Nat) (k : Core) : (m.setCore c k).qos = m.qos := rfl
@[simp] theorem Module.setCore_plat (c : Nat) (k : Core) : (m.setCore c k).plat = m.plat := rfl
@[simp] theorem Module.setCore_platLoaded (c : Nat) (k : Core) : (m.setCore c k).platLoaded = m.platLoaded := rfl
@[simp] theorem Module.setCore_load (c : Nat) (k : Core) : (m.setCore c k).load = m.load := rfl
@[simp] theorem Module.setCore_codes (c : Nat) (k : Core) : (m.setCore c k).codes = m.codes := rfl
@[simp] theorem Module.setCore_resetting (c : Nat) (k : Core) : (m.setCore c k).resetting = m.resetting := rfl
@[simp] theorem Module.setCore_obs (c : Nat) (k : Core) : (m.setCore c k).obs = m.obs := rfl
@[simp] theorem Module.setCore_links (c : Nat) (k : Core) : (m.setCore c k).links = m.links := rfl
@[simp] theorem Module.setCore_ports (c : Nat) (k : Core) : (m.setCore c k).ports = m.ports := rfl
@[simp] theorem Module.setCore_transit (c : Nat) (k : Core) : (m.setCore c k).transit = m.transit := rfl
@[simp] theorem Module.setCore_fabOut (c : Nat) (k : Core) : (m.setCore c k).fabOut = m.fabOut := rfl
@[simp] theorem Module.setCore_fabTag (c : Nat) (k : Core) : (m.setCore c k).fabTag = m.fabTag := rfl
@[simp] theorem Module.setCore_dat (c : Nat) (k : Core) : (m.setCore c k).dat = m.dat := rfl
@[simp] theorem Module.setCore_surveyOk (c : Nat) (k : Core) : (m.setCore c k).surveyOk = m.surveyOk := rfl
@[simp] theorem Module.setCore_met (c : Nat) (k : Core) : (m.setCore c k).met = m.met := rfl
@[simp] theorem Module.setCore_metBuilt (c : Nat) (k : Core) : (m.setCore c k).metBuilt = m.metBuilt := rfl
@[simp] theorem Module.setCore_fwOk (c : Nat) (k : Core) : (m.setCore c k).fwOk = m.fwOk := rfl
@[simp] theorem Module.setCore_lockLost (c : Nat) (k : Core) : (m.setCore c k).lockLost = m.lockLost := rfl
@[simp] theorem Module.setCore_lanes (c : Nat) (k : Core) : (m.setCore c k).lanes = m.lanes := rfl
@[simp] theorem Module.setCore_d2dTest (c : Nat) (k : Core) : (m.setCore c k).d2dTest = m.d2dTest := rfl
@[simp] theorem Module.setCore_tapIr (c : Nat) (k : Core) : (m.setCore c k).tapIr = m.tapIr := rfl
@[simp] theorem Module.setCore_tapDr (c : Nat) (k : Core) : (m.setCore c k).tapDr = m.tapDr := rfl
@[simp] theorem Module.setCore_fuses (c : Nat) (k : Core) : (m.setCore c k).fuses = m.fuses := rfl
@[simp] theorem Module.setCore_flp (c : Nat) (k : Core) : (m.setCore c k).flp = m.flp := rfl
@[simp] theorem Module.setCore_ledger (c : Nat) (k : Core) : (m.setCore c k).ledger = m.ledger := rfl
@[simp] theorem Module.setCore_spares (c : Nat) (k : Core) : (m.setCore c k).spares = m.spares := rfl
@[simp] theorem Module.setCore_sparesTemp (c : Nat) (k : Core) : (m.setCore c k).sparesTemp = m.sparesTemp := rfl
@[simp] theorem Module.setCore_bringAt (c : Nat) (k : Core) : (m.setCore c k).bringAt = m.bringAt := rfl
@[simp] theorem Module.setCore_rst (c : Nat) (k : Core) : (m.setCore c k).rst = m.rst := rfl
@[simp] theorem Module.setCore_passed (c : Nat) (k : Core) : (m.setCore c k).passed = m.passed := rfl
@[simp] theorem Module.setCore_boot (c : Nat) (k : Core) : (m.setCore c k).boot = m.boot := rfl
@[simp] theorem Module.setCore_ret (c : Nat) (k : Core) : (m.setCore c k).ret = m.ret := rfl
@[simp] theorem Module.setCore_hsk (c : Nat) (k : Core) : (m.setCore c k).hsk = m.hsk := rfl
@[simp] theorem Module.setCore_nor (c : Nat) (k : Core) : (m.setCore c k).nor = m.nor := rfl
@[simp] theorem Module.setCore_jr (c : Nat) (k : Core) : (m.setCore c k).jr = m.jr := rfl
@[simp] theorem Module.setCore_life (c : Nat) (k : Core) : (m.setCore c k).life = m.life := rfl
@[simp] theorem Module.setCore_svc (c : Nat) (k : Core) : (m.setCore c k).svc = m.svc := rfl
@[simp] theorem Module.setCore_platDigests (c : Nat) (k : Core) : (m.setCore c k).platDigests = m.platDigests := rfl
@[simp] theorem Module.setCore_fns (c : Nat) (k : Core) : (m.setCore c k).fns = m.fns := rfl
@[simp] theorem Module.setCore_arqs (c : Nat) (k : Core) : (m.setCore c k).arqs = m.arqs := rfl
@[simp] theorem Module.setCore_dpqs (c : Nat) (k : Core) : (m.setCore c k).dpqs = m.dpqs := rfl
@[simp] theorem Module.setCore_line (c : Nat) (k : Core) : (m.setCore c k).line = m.line := rfl
@[simp] theorem Module.setCore_badParity (c : Nat) (k : Core) : (m.setCore c k).badParity = m.badParity := rfl
@[simp] theorem Module.setCore_counters (c : Nat) (k : Core) : (m.setCore c k).counters = m.counters := rfl
@[simp] theorem Module.setCore_incs (c : Nat) (k : Core) : (m.setCore c k).incs = m.incs := rfl
@[simp] theorem Module.setCore_frz (c : Nat) (k : Core) : (m.setCore c k).frz = m.frz := rfl
@[simp] theorem Module.setCore_frzBack (c : Nat) (k : Core) : (m.setCore c k).frzBack = m.frzBack := rfl
@[simp] theorem Module.setCore_after (c : Nat) (k : Core) : (m.setCore c k).after = m.after := rfl
@[simp] theorem Module.setCore_datum (c : Nat) (k : Core) : (m.setCore c k).datum = m.datum := rfl
@[simp] theorem Module.setCore_now (c : Nat) (k : Core) : (m.setCore c k).now = m.now := rfl
@[simp] theorem Module.setCore_freeCtr (c : Nat) (k : Core) : (m.setCore c k).freeCtr = m.freeCtr := rfl
@[simp] theorem Module.setCore_outbox (c : Nat) (k : Core) : (m.setCore c k).outbox = m.outbox := rfl

/-! ### `setSlice` -/

@[simp] theorem Module.setSlice_regs (c : Nat) (x : Slice) : (m.setSlice c x).regs = m.regs := rfl
@[simp] theorem Module.setSlice_mem (c : Nat) (x : Slice) : (m.setSlice c x).mem = m.mem := rfl
@[simp] theorem Module.setSlice_poison (c : Nat) (x : Slice) : (m.setSlice c x).poison = m.poison := rfl
@[simp] theorem Module.setSlice_scrErr (c : Nat) (x : Slice) : (m.setSlice c x).scrErr = m.scrErr := rfl
@[simp] theorem Module.setSlice_ueAt (c : Nat) (x : Slice) : (m.setSlice c x).ueAt = m.ueAt := rfl
@[simp] theorem Module.setSlice_wordErr (c : Nat) (x : Slice) : (m.setSlice c x).wordErr = m.wordErr := rfl
@[simp] theorem Module.setSlice_ckErr (c : Nat) (x : Slice) : (m.setSlice c x).ckErr = m.ckErr := rfl
@[simp] theorem Module.setSlice_ckOff (c : Nat) (x : Slice) : (m.setSlice c x).ckOff = m.ckOff := rfl
@[simp] theorem Module.setSlice_nearLost (c : Nat) (x : Slice) : (m.setSlice c x).nearLost = m.nearLost := rfl
@[simp] theorem Module.setSlice_cores (c : Nat) (x : Slice) : (m.setSlice c x).cores = m.cores := rfl
@[simp] theorem Module.setSlice_fars (c : Nat) (x : Slice) : (m.setSlice c x).fars = m.fars := rfl
@[simp] theorem Module.setSlice_slow (c : Nat) (x : Slice) : (m.setSlice c x).slow = m.slow := rfl
@[simp] theorem Module.setSlice_slowBack (c : Nat) (x : Slice) : (m.setSlice c x).slowBack = m.slowBack := rfl
@[simp] theorem Module.setSlice_clkHeld (c : Nat) (x : Slice) : (m.setSlice c x).clkHeld = m.clkHeld := rfl
@[simp] theorem Module.setSlice_ran (c : Nat) (x : Slice) : (m.setSlice c x).ran = m.ran := rfl
@[simp] theorem Module.setSlice_tried (c : Nat) (x : Slice) : (m.setSlice c x).tried = m.tried := rfl
@[simp] theorem Module.setSlice_compOut (c : Nat) (x : Slice) : (m.setSlice c x).compOut = m.compOut := rfl
@[simp] theorem Module.setSlice_compEng (c : Nat) (x : Slice) : (m.setSlice c x).compEng = m.compEng := rfl
@[simp] theorem Module.setSlice_compTag (c : Nat) (x : Slice) : (m.setSlice c x).compTag = m.compTag := rfl
@[simp] theorem Module.setSlice_tx (c : Nat) (x : Slice) : (m.setSlice c x).tx = m.tx := rfl
@[simp] theorem Module.setSlice_txNext (c : Nat) (x : Slice) : (m.setSlice c x).txNext = m.txNext := rfl
@[simp] theorem Module.setSlice_parked (c : Nat) (x : Slice) : (m.setSlice c x).parked = m.parked := rfl
@[simp] theorem Module.setSlice_scrubs (c : Nat) (x : Slice) : (m.setSlice c x).scrubs = m.scrubs := rfl
@[simp] theorem Module.setSlice_repairs (c : Nat) (x : Slice) : (m.setSlice c x).repairs = m.repairs := rfl
@[simp] theorem Module.setSlice_net (c : Nat) (x : Slice) : (m.setSlice c x).net = m.net := rfl
@[simp] theorem Module.setSlice_flits (c : Nat) (x : Slice) : (m.setSlice c x).flits = m.flits := rfl
@[simp] theorem Module.setSlice_ctl (c : Nat) (x : Slice) : (m.setSlice c x).ctl = m.ctl := rfl
@[simp] theorem Module.setSlice_qos (c : Nat) (x : Slice) : (m.setSlice c x).qos = m.qos := rfl
@[simp] theorem Module.setSlice_plat (c : Nat) (x : Slice) : (m.setSlice c x).plat = m.plat := rfl
@[simp] theorem Module.setSlice_platLoaded (c : Nat) (x : Slice) : (m.setSlice c x).platLoaded = m.platLoaded := rfl
@[simp] theorem Module.setSlice_load (c : Nat) (x : Slice) : (m.setSlice c x).load = m.load := rfl
@[simp] theorem Module.setSlice_codes (c : Nat) (x : Slice) : (m.setSlice c x).codes = m.codes := rfl
@[simp] theorem Module.setSlice_resetting (c : Nat) (x : Slice) : (m.setSlice c x).resetting = m.resetting := rfl
@[simp] theorem Module.setSlice_obs (c : Nat) (x : Slice) : (m.setSlice c x).obs = m.obs := rfl
@[simp] theorem Module.setSlice_links (c : Nat) (x : Slice) : (m.setSlice c x).links = m.links := rfl
@[simp] theorem Module.setSlice_ports (c : Nat) (x : Slice) : (m.setSlice c x).ports = m.ports := rfl
@[simp] theorem Module.setSlice_transit (c : Nat) (x : Slice) : (m.setSlice c x).transit = m.transit := rfl
@[simp] theorem Module.setSlice_fabOut (c : Nat) (x : Slice) : (m.setSlice c x).fabOut = m.fabOut := rfl
@[simp] theorem Module.setSlice_fabTag (c : Nat) (x : Slice) : (m.setSlice c x).fabTag = m.fabTag := rfl
@[simp] theorem Module.setSlice_dat (c : Nat) (x : Slice) : (m.setSlice c x).dat = m.dat := rfl
@[simp] theorem Module.setSlice_surveyOk (c : Nat) (x : Slice) : (m.setSlice c x).surveyOk = m.surveyOk := rfl
@[simp] theorem Module.setSlice_met (c : Nat) (x : Slice) : (m.setSlice c x).met = m.met := rfl
@[simp] theorem Module.setSlice_metBuilt (c : Nat) (x : Slice) : (m.setSlice c x).metBuilt = m.metBuilt := rfl
@[simp] theorem Module.setSlice_fwOk (c : Nat) (x : Slice) : (m.setSlice c x).fwOk = m.fwOk := rfl
@[simp] theorem Module.setSlice_lockLost (c : Nat) (x : Slice) : (m.setSlice c x).lockLost = m.lockLost := rfl
@[simp] theorem Module.setSlice_lanes (c : Nat) (x : Slice) : (m.setSlice c x).lanes = m.lanes := rfl
@[simp] theorem Module.setSlice_d2dTest (c : Nat) (x : Slice) : (m.setSlice c x).d2dTest = m.d2dTest := rfl
@[simp] theorem Module.setSlice_tapIr (c : Nat) (x : Slice) : (m.setSlice c x).tapIr = m.tapIr := rfl
@[simp] theorem Module.setSlice_tapDr (c : Nat) (x : Slice) : (m.setSlice c x).tapDr = m.tapDr := rfl
@[simp] theorem Module.setSlice_fuses (c : Nat) (x : Slice) : (m.setSlice c x).fuses = m.fuses := rfl
@[simp] theorem Module.setSlice_flp (c : Nat) (x : Slice) : (m.setSlice c x).flp = m.flp := rfl
@[simp] theorem Module.setSlice_ledger (c : Nat) (x : Slice) : (m.setSlice c x).ledger = m.ledger := rfl
@[simp] theorem Module.setSlice_spares (c : Nat) (x : Slice) : (m.setSlice c x).spares = m.spares := rfl
@[simp] theorem Module.setSlice_sparesTemp (c : Nat) (x : Slice) : (m.setSlice c x).sparesTemp = m.sparesTemp := rfl
@[simp] theorem Module.setSlice_bringAt (c : Nat) (x : Slice) : (m.setSlice c x).bringAt = m.bringAt := rfl
@[simp] theorem Module.setSlice_rst (c : Nat) (x : Slice) : (m.setSlice c x).rst = m.rst := rfl
@[simp] theorem Module.setSlice_passed (c : Nat) (x : Slice) : (m.setSlice c x).passed = m.passed := rfl
@[simp] theorem Module.setSlice_boot (c : Nat) (x : Slice) : (m.setSlice c x).boot = m.boot := rfl
@[simp] theorem Module.setSlice_ret (c : Nat) (x : Slice) : (m.setSlice c x).ret = m.ret := rfl
@[simp] theorem Module.setSlice_hsk (c : Nat) (x : Slice) : (m.setSlice c x).hsk = m.hsk := rfl
@[simp] theorem Module.setSlice_nor (c : Nat) (x : Slice) : (m.setSlice c x).nor = m.nor := rfl
@[simp] theorem Module.setSlice_jr (c : Nat) (x : Slice) : (m.setSlice c x).jr = m.jr := rfl
@[simp] theorem Module.setSlice_life (c : Nat) (x : Slice) : (m.setSlice c x).life = m.life := rfl
@[simp] theorem Module.setSlice_svc (c : Nat) (x : Slice) : (m.setSlice c x).svc = m.svc := rfl
@[simp] theorem Module.setSlice_platDigests (c : Nat) (x : Slice) : (m.setSlice c x).platDigests = m.platDigests := rfl
@[simp] theorem Module.setSlice_fns (c : Nat) (x : Slice) : (m.setSlice c x).fns = m.fns := rfl
@[simp] theorem Module.setSlice_arqs (c : Nat) (x : Slice) : (m.setSlice c x).arqs = m.arqs := rfl
@[simp] theorem Module.setSlice_dpqs (c : Nat) (x : Slice) : (m.setSlice c x).dpqs = m.dpqs := rfl
@[simp] theorem Module.setSlice_line (c : Nat) (x : Slice) : (m.setSlice c x).line = m.line := rfl
@[simp] theorem Module.setSlice_badParity (c : Nat) (x : Slice) : (m.setSlice c x).badParity = m.badParity := rfl
@[simp] theorem Module.setSlice_counters (c : Nat) (x : Slice) : (m.setSlice c x).counters = m.counters := rfl
@[simp] theorem Module.setSlice_incs (c : Nat) (x : Slice) : (m.setSlice c x).incs = m.incs := rfl
@[simp] theorem Module.setSlice_frz (c : Nat) (x : Slice) : (m.setSlice c x).frz = m.frz := rfl
@[simp] theorem Module.setSlice_frzBack (c : Nat) (x : Slice) : (m.setSlice c x).frzBack = m.frzBack := rfl
@[simp] theorem Module.setSlice_after (c : Nat) (x : Slice) : (m.setSlice c x).after = m.after := rfl
@[simp] theorem Module.setSlice_datum (c : Nat) (x : Slice) : (m.setSlice c x).datum = m.datum := rfl
@[simp] theorem Module.setSlice_now (c : Nat) (x : Slice) : (m.setSlice c x).now = m.now := rfl
@[simp] theorem Module.setSlice_freeCtr (c : Nat) (x : Slice) : (m.setSlice c x).freeCtr = m.freeCtr := rfl
@[simp] theorem Module.setSlice_outbox (c : Nat) (x : Slice) : (m.setSlice c x).outbox = m.outbox := rfl

/-! ### `setFar` -/

@[simp] theorem Module.setFar_regs (j : Nat) (x : FarDev) : (m.setFar j x).regs = m.regs := rfl
@[simp] theorem Module.setFar_mem (j : Nat) (x : FarDev) : (m.setFar j x).mem = m.mem := rfl
@[simp] theorem Module.setFar_poison (j : Nat) (x : FarDev) : (m.setFar j x).poison = m.poison := rfl
@[simp] theorem Module.setFar_scrErr (j : Nat) (x : FarDev) : (m.setFar j x).scrErr = m.scrErr := rfl
@[simp] theorem Module.setFar_ueAt (j : Nat) (x : FarDev) : (m.setFar j x).ueAt = m.ueAt := rfl
@[simp] theorem Module.setFar_wordErr (j : Nat) (x : FarDev) : (m.setFar j x).wordErr = m.wordErr := rfl
@[simp] theorem Module.setFar_ckErr (j : Nat) (x : FarDev) : (m.setFar j x).ckErr = m.ckErr := rfl
@[simp] theorem Module.setFar_ckOff (j : Nat) (x : FarDev) : (m.setFar j x).ckOff = m.ckOff := rfl
@[simp] theorem Module.setFar_nearLost (j : Nat) (x : FarDev) : (m.setFar j x).nearLost = m.nearLost := rfl
@[simp] theorem Module.setFar_cores (j : Nat) (x : FarDev) : (m.setFar j x).cores = m.cores := rfl
@[simp] theorem Module.setFar_slices (j : Nat) (x : FarDev) : (m.setFar j x).slices = m.slices := rfl
@[simp] theorem Module.setFar_slow (j : Nat) (x : FarDev) : (m.setFar j x).slow = m.slow := rfl
@[simp] theorem Module.setFar_slowBack (j : Nat) (x : FarDev) : (m.setFar j x).slowBack = m.slowBack := rfl
@[simp] theorem Module.setFar_clkHeld (j : Nat) (x : FarDev) : (m.setFar j x).clkHeld = m.clkHeld := rfl
@[simp] theorem Module.setFar_ran (j : Nat) (x : FarDev) : (m.setFar j x).ran = m.ran := rfl
@[simp] theorem Module.setFar_tried (j : Nat) (x : FarDev) : (m.setFar j x).tried = m.tried := rfl
@[simp] theorem Module.setFar_compOut (j : Nat) (x : FarDev) : (m.setFar j x).compOut = m.compOut := rfl
@[simp] theorem Module.setFar_compEng (j : Nat) (x : FarDev) : (m.setFar j x).compEng = m.compEng := rfl
@[simp] theorem Module.setFar_compTag (j : Nat) (x : FarDev) : (m.setFar j x).compTag = m.compTag := rfl
@[simp] theorem Module.setFar_tx (j : Nat) (x : FarDev) : (m.setFar j x).tx = m.tx := rfl
@[simp] theorem Module.setFar_txNext (j : Nat) (x : FarDev) : (m.setFar j x).txNext = m.txNext := rfl
@[simp] theorem Module.setFar_parked (j : Nat) (x : FarDev) : (m.setFar j x).parked = m.parked := rfl
@[simp] theorem Module.setFar_scrubs (j : Nat) (x : FarDev) : (m.setFar j x).scrubs = m.scrubs := rfl
@[simp] theorem Module.setFar_repairs (j : Nat) (x : FarDev) : (m.setFar j x).repairs = m.repairs := rfl
@[simp] theorem Module.setFar_net (j : Nat) (x : FarDev) : (m.setFar j x).net = m.net := rfl
@[simp] theorem Module.setFar_flits (j : Nat) (x : FarDev) : (m.setFar j x).flits = m.flits := rfl
@[simp] theorem Module.setFar_ctl (j : Nat) (x : FarDev) : (m.setFar j x).ctl = m.ctl := rfl
@[simp] theorem Module.setFar_qos (j : Nat) (x : FarDev) : (m.setFar j x).qos = m.qos := rfl
@[simp] theorem Module.setFar_plat (j : Nat) (x : FarDev) : (m.setFar j x).plat = m.plat := rfl
@[simp] theorem Module.setFar_platLoaded (j : Nat) (x : FarDev) : (m.setFar j x).platLoaded = m.platLoaded := rfl
@[simp] theorem Module.setFar_load (j : Nat) (x : FarDev) : (m.setFar j x).load = m.load := rfl
@[simp] theorem Module.setFar_codes (j : Nat) (x : FarDev) : (m.setFar j x).codes = m.codes := rfl
@[simp] theorem Module.setFar_resetting (j : Nat) (x : FarDev) : (m.setFar j x).resetting = m.resetting := rfl
@[simp] theorem Module.setFar_obs (j : Nat) (x : FarDev) : (m.setFar j x).obs = m.obs := rfl
@[simp] theorem Module.setFar_links (j : Nat) (x : FarDev) : (m.setFar j x).links = m.links := rfl
@[simp] theorem Module.setFar_ports (j : Nat) (x : FarDev) : (m.setFar j x).ports = m.ports := rfl
@[simp] theorem Module.setFar_transit (j : Nat) (x : FarDev) : (m.setFar j x).transit = m.transit := rfl
@[simp] theorem Module.setFar_fabOut (j : Nat) (x : FarDev) : (m.setFar j x).fabOut = m.fabOut := rfl
@[simp] theorem Module.setFar_fabTag (j : Nat) (x : FarDev) : (m.setFar j x).fabTag = m.fabTag := rfl
@[simp] theorem Module.setFar_dat (j : Nat) (x : FarDev) : (m.setFar j x).dat = m.dat := rfl
@[simp] theorem Module.setFar_surveyOk (j : Nat) (x : FarDev) : (m.setFar j x).surveyOk = m.surveyOk := rfl
@[simp] theorem Module.setFar_met (j : Nat) (x : FarDev) : (m.setFar j x).met = m.met := rfl
@[simp] theorem Module.setFar_metBuilt (j : Nat) (x : FarDev) : (m.setFar j x).metBuilt = m.metBuilt := rfl
@[simp] theorem Module.setFar_fwOk (j : Nat) (x : FarDev) : (m.setFar j x).fwOk = m.fwOk := rfl
@[simp] theorem Module.setFar_lockLost (j : Nat) (x : FarDev) : (m.setFar j x).lockLost = m.lockLost := rfl
@[simp] theorem Module.setFar_lanes (j : Nat) (x : FarDev) : (m.setFar j x).lanes = m.lanes := rfl
@[simp] theorem Module.setFar_d2dTest (j : Nat) (x : FarDev) : (m.setFar j x).d2dTest = m.d2dTest := rfl
@[simp] theorem Module.setFar_tapIr (j : Nat) (x : FarDev) : (m.setFar j x).tapIr = m.tapIr := rfl
@[simp] theorem Module.setFar_tapDr (j : Nat) (x : FarDev) : (m.setFar j x).tapDr = m.tapDr := rfl
@[simp] theorem Module.setFar_fuses (j : Nat) (x : FarDev) : (m.setFar j x).fuses = m.fuses := rfl
@[simp] theorem Module.setFar_flp (j : Nat) (x : FarDev) : (m.setFar j x).flp = m.flp := rfl
@[simp] theorem Module.setFar_ledger (j : Nat) (x : FarDev) : (m.setFar j x).ledger = m.ledger := rfl
@[simp] theorem Module.setFar_spares (j : Nat) (x : FarDev) : (m.setFar j x).spares = m.spares := rfl
@[simp] theorem Module.setFar_sparesTemp (j : Nat) (x : FarDev) : (m.setFar j x).sparesTemp = m.sparesTemp := rfl
@[simp] theorem Module.setFar_bringAt (j : Nat) (x : FarDev) : (m.setFar j x).bringAt = m.bringAt := rfl
@[simp] theorem Module.setFar_rst (j : Nat) (x : FarDev) : (m.setFar j x).rst = m.rst := rfl
@[simp] theorem Module.setFar_passed (j : Nat) (x : FarDev) : (m.setFar j x).passed = m.passed := rfl
@[simp] theorem Module.setFar_boot (j : Nat) (x : FarDev) : (m.setFar j x).boot = m.boot := rfl
@[simp] theorem Module.setFar_ret (j : Nat) (x : FarDev) : (m.setFar j x).ret = m.ret := rfl
@[simp] theorem Module.setFar_hsk (j : Nat) (x : FarDev) : (m.setFar j x).hsk = m.hsk := rfl
@[simp] theorem Module.setFar_nor (j : Nat) (x : FarDev) : (m.setFar j x).nor = m.nor := rfl
@[simp] theorem Module.setFar_jr (j : Nat) (x : FarDev) : (m.setFar j x).jr = m.jr := rfl
@[simp] theorem Module.setFar_life (j : Nat) (x : FarDev) : (m.setFar j x).life = m.life := rfl
@[simp] theorem Module.setFar_svc (j : Nat) (x : FarDev) : (m.setFar j x).svc = m.svc := rfl
@[simp] theorem Module.setFar_platDigests (j : Nat) (x : FarDev) : (m.setFar j x).platDigests = m.platDigests := rfl
@[simp] theorem Module.setFar_fns (j : Nat) (x : FarDev) : (m.setFar j x).fns = m.fns := rfl
@[simp] theorem Module.setFar_arqs (j : Nat) (x : FarDev) : (m.setFar j x).arqs = m.arqs := rfl
@[simp] theorem Module.setFar_dpqs (j : Nat) (x : FarDev) : (m.setFar j x).dpqs = m.dpqs := rfl
@[simp] theorem Module.setFar_line (j : Nat) (x : FarDev) : (m.setFar j x).line = m.line := rfl
@[simp] theorem Module.setFar_badParity (j : Nat) (x : FarDev) : (m.setFar j x).badParity = m.badParity := rfl
@[simp] theorem Module.setFar_counters (j : Nat) (x : FarDev) : (m.setFar j x).counters = m.counters := rfl
@[simp] theorem Module.setFar_incs (j : Nat) (x : FarDev) : (m.setFar j x).incs = m.incs := rfl
@[simp] theorem Module.setFar_frz (j : Nat) (x : FarDev) : (m.setFar j x).frz = m.frz := rfl
@[simp] theorem Module.setFar_frzBack (j : Nat) (x : FarDev) : (m.setFar j x).frzBack = m.frzBack := rfl
@[simp] theorem Module.setFar_after (j : Nat) (x : FarDev) : (m.setFar j x).after = m.after := rfl
@[simp] theorem Module.setFar_datum (j : Nat) (x : FarDev) : (m.setFar j x).datum = m.datum := rfl
@[simp] theorem Module.setFar_now (j : Nat) (x : FarDev) : (m.setFar j x).now = m.now := rfl
@[simp] theorem Module.setFar_freeCtr (j : Nat) (x : FarDev) : (m.setFar j x).freeCtr = m.freeCtr := rfl
@[simp] theorem Module.setFar_outbox (j : Nat) (x : FarDev) : (m.setFar j x).outbox = m.outbox := rfl

/-! ### `setStation` -/

@[simp] theorem Module.setStation_regs (c : Nat) (x : CtlSt) : (m.setStation c x).regs = m.regs := rfl
@[simp] theorem Module.setStation_mem (c : Nat) (x : CtlSt) : (m.setStation c x).mem = m.mem := rfl
@[simp] theorem Module.setStation_poison (c : Nat) (x : CtlSt) : (m.setStation c x).poison = m.poison := rfl
@[simp] theorem Module.setStation_scrErr (c : Nat) (x : CtlSt) : (m.setStation c x).scrErr = m.scrErr := rfl
@[simp] theorem Module.setStation_ueAt (c : Nat) (x : CtlSt) : (m.setStation c x).ueAt = m.ueAt := rfl
@[simp] theorem Module.setStation_wordErr (c : Nat) (x : CtlSt) : (m.setStation c x).wordErr = m.wordErr := rfl
@[simp] theorem Module.setStation_ckErr (c : Nat) (x : CtlSt) : (m.setStation c x).ckErr = m.ckErr := rfl
@[simp] theorem Module.setStation_ckOff (c : Nat) (x : CtlSt) : (m.setStation c x).ckOff = m.ckOff := rfl
@[simp] theorem Module.setStation_nearLost (c : Nat) (x : CtlSt) : (m.setStation c x).nearLost = m.nearLost := rfl
@[simp] theorem Module.setStation_cores (c : Nat) (x : CtlSt) : (m.setStation c x).cores = m.cores := rfl
@[simp] theorem Module.setStation_slices (c : Nat) (x : CtlSt) : (m.setStation c x).slices = m.slices := rfl
@[simp] theorem Module.setStation_fars (c : Nat) (x : CtlSt) : (m.setStation c x).fars = m.fars := rfl
@[simp] theorem Module.setStation_slow (c : Nat) (x : CtlSt) : (m.setStation c x).slow = m.slow := rfl
@[simp] theorem Module.setStation_slowBack (c : Nat) (x : CtlSt) : (m.setStation c x).slowBack = m.slowBack := rfl
@[simp] theorem Module.setStation_clkHeld (c : Nat) (x : CtlSt) : (m.setStation c x).clkHeld = m.clkHeld := rfl
@[simp] theorem Module.setStation_ran (c : Nat) (x : CtlSt) : (m.setStation c x).ran = m.ran := rfl
@[simp] theorem Module.setStation_tried (c : Nat) (x : CtlSt) : (m.setStation c x).tried = m.tried := rfl
@[simp] theorem Module.setStation_compOut (c : Nat) (x : CtlSt) : (m.setStation c x).compOut = m.compOut := rfl
@[simp] theorem Module.setStation_compEng (c : Nat) (x : CtlSt) : (m.setStation c x).compEng = m.compEng := rfl
@[simp] theorem Module.setStation_compTag (c : Nat) (x : CtlSt) : (m.setStation c x).compTag = m.compTag := rfl
@[simp] theorem Module.setStation_tx (c : Nat) (x : CtlSt) : (m.setStation c x).tx = m.tx := rfl
@[simp] theorem Module.setStation_txNext (c : Nat) (x : CtlSt) : (m.setStation c x).txNext = m.txNext := rfl
@[simp] theorem Module.setStation_parked (c : Nat) (x : CtlSt) : (m.setStation c x).parked = m.parked := rfl
@[simp] theorem Module.setStation_scrubs (c : Nat) (x : CtlSt) : (m.setStation c x).scrubs = m.scrubs := rfl
@[simp] theorem Module.setStation_repairs (c : Nat) (x : CtlSt) : (m.setStation c x).repairs = m.repairs := rfl
@[simp] theorem Module.setStation_net (c : Nat) (x : CtlSt) : (m.setStation c x).net = m.net := rfl
@[simp] theorem Module.setStation_flits (c : Nat) (x : CtlSt) : (m.setStation c x).flits = m.flits := rfl
@[simp] theorem Module.setStation_qos (c : Nat) (x : CtlSt) : (m.setStation c x).qos = m.qos := rfl
@[simp] theorem Module.setStation_plat (c : Nat) (x : CtlSt) : (m.setStation c x).plat = m.plat := rfl
@[simp] theorem Module.setStation_platLoaded (c : Nat) (x : CtlSt) : (m.setStation c x).platLoaded = m.platLoaded := rfl
@[simp] theorem Module.setStation_load (c : Nat) (x : CtlSt) : (m.setStation c x).load = m.load := rfl
@[simp] theorem Module.setStation_codes (c : Nat) (x : CtlSt) : (m.setStation c x).codes = m.codes := rfl
@[simp] theorem Module.setStation_resetting (c : Nat) (x : CtlSt) : (m.setStation c x).resetting = m.resetting := rfl
@[simp] theorem Module.setStation_obs (c : Nat) (x : CtlSt) : (m.setStation c x).obs = m.obs := rfl
@[simp] theorem Module.setStation_links (c : Nat) (x : CtlSt) : (m.setStation c x).links = m.links := rfl
@[simp] theorem Module.setStation_ports (c : Nat) (x : CtlSt) : (m.setStation c x).ports = m.ports := rfl
@[simp] theorem Module.setStation_transit (c : Nat) (x : CtlSt) : (m.setStation c x).transit = m.transit := rfl
@[simp] theorem Module.setStation_fabOut (c : Nat) (x : CtlSt) : (m.setStation c x).fabOut = m.fabOut := rfl
@[simp] theorem Module.setStation_fabTag (c : Nat) (x : CtlSt) : (m.setStation c x).fabTag = m.fabTag := rfl
@[simp] theorem Module.setStation_dat (c : Nat) (x : CtlSt) : (m.setStation c x).dat = m.dat := rfl
@[simp] theorem Module.setStation_surveyOk (c : Nat) (x : CtlSt) : (m.setStation c x).surveyOk = m.surveyOk := rfl
@[simp] theorem Module.setStation_met (c : Nat) (x : CtlSt) : (m.setStation c x).met = m.met := rfl
@[simp] theorem Module.setStation_metBuilt (c : Nat) (x : CtlSt) : (m.setStation c x).metBuilt = m.metBuilt := rfl
@[simp] theorem Module.setStation_fwOk (c : Nat) (x : CtlSt) : (m.setStation c x).fwOk = m.fwOk := rfl
@[simp] theorem Module.setStation_lockLost (c : Nat) (x : CtlSt) : (m.setStation c x).lockLost = m.lockLost := rfl
@[simp] theorem Module.setStation_lanes (c : Nat) (x : CtlSt) : (m.setStation c x).lanes = m.lanes := rfl
@[simp] theorem Module.setStation_d2dTest (c : Nat) (x : CtlSt) : (m.setStation c x).d2dTest = m.d2dTest := rfl
@[simp] theorem Module.setStation_tapIr (c : Nat) (x : CtlSt) : (m.setStation c x).tapIr = m.tapIr := rfl
@[simp] theorem Module.setStation_tapDr (c : Nat) (x : CtlSt) : (m.setStation c x).tapDr = m.tapDr := rfl
@[simp] theorem Module.setStation_fuses (c : Nat) (x : CtlSt) : (m.setStation c x).fuses = m.fuses := rfl
@[simp] theorem Module.setStation_flp (c : Nat) (x : CtlSt) : (m.setStation c x).flp = m.flp := rfl
@[simp] theorem Module.setStation_ledger (c : Nat) (x : CtlSt) : (m.setStation c x).ledger = m.ledger := rfl
@[simp] theorem Module.setStation_spares (c : Nat) (x : CtlSt) : (m.setStation c x).spares = m.spares := rfl
@[simp] theorem Module.setStation_sparesTemp (c : Nat) (x : CtlSt) : (m.setStation c x).sparesTemp = m.sparesTemp := rfl
@[simp] theorem Module.setStation_bringAt (c : Nat) (x : CtlSt) : (m.setStation c x).bringAt = m.bringAt := rfl
@[simp] theorem Module.setStation_rst (c : Nat) (x : CtlSt) : (m.setStation c x).rst = m.rst := rfl
@[simp] theorem Module.setStation_passed (c : Nat) (x : CtlSt) : (m.setStation c x).passed = m.passed := rfl
@[simp] theorem Module.setStation_boot (c : Nat) (x : CtlSt) : (m.setStation c x).boot = m.boot := rfl
@[simp] theorem Module.setStation_ret (c : Nat) (x : CtlSt) : (m.setStation c x).ret = m.ret := rfl
@[simp] theorem Module.setStation_hsk (c : Nat) (x : CtlSt) : (m.setStation c x).hsk = m.hsk := rfl
@[simp] theorem Module.setStation_nor (c : Nat) (x : CtlSt) : (m.setStation c x).nor = m.nor := rfl
@[simp] theorem Module.setStation_jr (c : Nat) (x : CtlSt) : (m.setStation c x).jr = m.jr := rfl
@[simp] theorem Module.setStation_life (c : Nat) (x : CtlSt) : (m.setStation c x).life = m.life := rfl
@[simp] theorem Module.setStation_svc (c : Nat) (x : CtlSt) : (m.setStation c x).svc = m.svc := rfl
@[simp] theorem Module.setStation_platDigests (c : Nat) (x : CtlSt) : (m.setStation c x).platDigests = m.platDigests := rfl
@[simp] theorem Module.setStation_fns (c : Nat) (x : CtlSt) : (m.setStation c x).fns = m.fns := rfl
@[simp] theorem Module.setStation_arqs (c : Nat) (x : CtlSt) : (m.setStation c x).arqs = m.arqs := rfl
@[simp] theorem Module.setStation_dpqs (c : Nat) (x : CtlSt) : (m.setStation c x).dpqs = m.dpqs := rfl
@[simp] theorem Module.setStation_line (c : Nat) (x : CtlSt) : (m.setStation c x).line = m.line := rfl
@[simp] theorem Module.setStation_badParity (c : Nat) (x : CtlSt) : (m.setStation c x).badParity = m.badParity := rfl
@[simp] theorem Module.setStation_counters (c : Nat) (x : CtlSt) : (m.setStation c x).counters = m.counters := rfl
@[simp] theorem Module.setStation_incs (c : Nat) (x : CtlSt) : (m.setStation c x).incs = m.incs := rfl
@[simp] theorem Module.setStation_frz (c : Nat) (x : CtlSt) : (m.setStation c x).frz = m.frz := rfl
@[simp] theorem Module.setStation_frzBack (c : Nat) (x : CtlSt) : (m.setStation c x).frzBack = m.frzBack := rfl
@[simp] theorem Module.setStation_after (c : Nat) (x : CtlSt) : (m.setStation c x).after = m.after := rfl
@[simp] theorem Module.setStation_datum (c : Nat) (x : CtlSt) : (m.setStation c x).datum = m.datum := rfl
@[simp] theorem Module.setStation_now (c : Nat) (x : CtlSt) : (m.setStation c x).now = m.now := rfl
@[simp] theorem Module.setStation_freeCtr (c : Nat) (x : CtlSt) : (m.setStation c x).freeCtr = m.freeCtr := rfl
@[simp] theorem Module.setStation_outbox (c : Nat) (x : CtlSt) : (m.setStation c x).outbox = m.outbox := rfl

/-! ### `setStore` -/

@[simp] theorem Module.setStore_regs (d : Nat) (x : Store) : (m.setStore d x).regs = m.regs := rfl
@[simp] theorem Module.setStore_mem (d : Nat) (x : Store) : (m.setStore d x).mem = m.mem := rfl
@[simp] theorem Module.setStore_poison (d : Nat) (x : Store) : (m.setStore d x).poison = m.poison := rfl
@[simp] theorem Module.setStore_scrErr (d : Nat) (x : Store) : (m.setStore d x).scrErr = m.scrErr := rfl
@[simp] theorem Module.setStore_ueAt (d : Nat) (x : Store) : (m.setStore d x).ueAt = m.ueAt := rfl
@[simp] theorem Module.setStore_wordErr (d : Nat) (x : Store) : (m.setStore d x).wordErr = m.wordErr := rfl
@[simp] theorem Module.setStore_ckErr (d : Nat) (x : Store) : (m.setStore d x).ckErr = m.ckErr := rfl
@[simp] theorem Module.setStore_ckOff (d : Nat) (x : Store) : (m.setStore d x).ckOff = m.ckOff := rfl
@[simp] theorem Module.setStore_nearLost (d : Nat) (x : Store) : (m.setStore d x).nearLost = m.nearLost := rfl
@[simp] theorem Module.setStore_cores (d : Nat) (x : Store) : (m.setStore d x).cores = m.cores := rfl
@[simp] theorem Module.setStore_slices (d : Nat) (x : Store) : (m.setStore d x).slices = m.slices := rfl
@[simp] theorem Module.setStore_fars (d : Nat) (x : Store) : (m.setStore d x).fars = m.fars := rfl
@[simp] theorem Module.setStore_slow (d : Nat) (x : Store) : (m.setStore d x).slow = m.slow := rfl
@[simp] theorem Module.setStore_slowBack (d : Nat) (x : Store) : (m.setStore d x).slowBack = m.slowBack := rfl
@[simp] theorem Module.setStore_clkHeld (d : Nat) (x : Store) : (m.setStore d x).clkHeld = m.clkHeld := rfl
@[simp] theorem Module.setStore_ran (d : Nat) (x : Store) : (m.setStore d x).ran = m.ran := rfl
@[simp] theorem Module.setStore_tried (d : Nat) (x : Store) : (m.setStore d x).tried = m.tried := rfl
@[simp] theorem Module.setStore_compOut (d : Nat) (x : Store) : (m.setStore d x).compOut = m.compOut := rfl
@[simp] theorem Module.setStore_compEng (d : Nat) (x : Store) : (m.setStore d x).compEng = m.compEng := rfl
@[simp] theorem Module.setStore_compTag (d : Nat) (x : Store) : (m.setStore d x).compTag = m.compTag := rfl
@[simp] theorem Module.setStore_tx (d : Nat) (x : Store) : (m.setStore d x).tx = m.tx := rfl
@[simp] theorem Module.setStore_txNext (d : Nat) (x : Store) : (m.setStore d x).txNext = m.txNext := rfl
@[simp] theorem Module.setStore_parked (d : Nat) (x : Store) : (m.setStore d x).parked = m.parked := rfl
@[simp] theorem Module.setStore_scrubs (d : Nat) (x : Store) : (m.setStore d x).scrubs = m.scrubs := rfl
@[simp] theorem Module.setStore_repairs (d : Nat) (x : Store) : (m.setStore d x).repairs = m.repairs := rfl
@[simp] theorem Module.setStore_net (d : Nat) (x : Store) : (m.setStore d x).net = m.net := rfl
@[simp] theorem Module.setStore_flits (d : Nat) (x : Store) : (m.setStore d x).flits = m.flits := rfl
@[simp] theorem Module.setStore_ctl (d : Nat) (x : Store) : (m.setStore d x).ctl = m.ctl := rfl
@[simp] theorem Module.setStore_qos (d : Nat) (x : Store) : (m.setStore d x).qos = m.qos := rfl
@[simp] theorem Module.setStore_plat (d : Nat) (x : Store) : (m.setStore d x).plat = m.plat := rfl
@[simp] theorem Module.setStore_platLoaded (d : Nat) (x : Store) : (m.setStore d x).platLoaded = m.platLoaded := rfl
@[simp] theorem Module.setStore_load (d : Nat) (x : Store) : (m.setStore d x).load = m.load := rfl
@[simp] theorem Module.setStore_codes (d : Nat) (x : Store) : (m.setStore d x).codes = m.codes := rfl
@[simp] theorem Module.setStore_resetting (d : Nat) (x : Store) : (m.setStore d x).resetting = m.resetting := rfl
@[simp] theorem Module.setStore_links (d : Nat) (x : Store) : (m.setStore d x).links = m.links := rfl
@[simp] theorem Module.setStore_ports (d : Nat) (x : Store) : (m.setStore d x).ports = m.ports := rfl
@[simp] theorem Module.setStore_transit (d : Nat) (x : Store) : (m.setStore d x).transit = m.transit := rfl
@[simp] theorem Module.setStore_fabOut (d : Nat) (x : Store) : (m.setStore d x).fabOut = m.fabOut := rfl
@[simp] theorem Module.setStore_fabTag (d : Nat) (x : Store) : (m.setStore d x).fabTag = m.fabTag := rfl
@[simp] theorem Module.setStore_dat (d : Nat) (x : Store) : (m.setStore d x).dat = m.dat := rfl
@[simp] theorem Module.setStore_surveyOk (d : Nat) (x : Store) : (m.setStore d x).surveyOk = m.surveyOk := rfl
@[simp] theorem Module.setStore_met (d : Nat) (x : Store) : (m.setStore d x).met = m.met := rfl
@[simp] theorem Module.setStore_metBuilt (d : Nat) (x : Store) : (m.setStore d x).metBuilt = m.metBuilt := rfl
@[simp] theorem Module.setStore_fwOk (d : Nat) (x : Store) : (m.setStore d x).fwOk = m.fwOk := rfl
@[simp] theorem Module.setStore_lockLost (d : Nat) (x : Store) : (m.setStore d x).lockLost = m.lockLost := rfl
@[simp] theorem Module.setStore_lanes (d : Nat) (x : Store) : (m.setStore d x).lanes = m.lanes := rfl
@[simp] theorem Module.setStore_d2dTest (d : Nat) (x : Store) : (m.setStore d x).d2dTest = m.d2dTest := rfl
@[simp] theorem Module.setStore_tapIr (d : Nat) (x : Store) : (m.setStore d x).tapIr = m.tapIr := rfl
@[simp] theorem Module.setStore_tapDr (d : Nat) (x : Store) : (m.setStore d x).tapDr = m.tapDr := rfl
@[simp] theorem Module.setStore_fuses (d : Nat) (x : Store) : (m.setStore d x).fuses = m.fuses := rfl
@[simp] theorem Module.setStore_flp (d : Nat) (x : Store) : (m.setStore d x).flp = m.flp := rfl
@[simp] theorem Module.setStore_ledger (d : Nat) (x : Store) : (m.setStore d x).ledger = m.ledger := rfl
@[simp] theorem Module.setStore_spares (d : Nat) (x : Store) : (m.setStore d x).spares = m.spares := rfl
@[simp] theorem Module.setStore_sparesTemp (d : Nat) (x : Store) : (m.setStore d x).sparesTemp = m.sparesTemp := rfl
@[simp] theorem Module.setStore_bringAt (d : Nat) (x : Store) : (m.setStore d x).bringAt = m.bringAt := rfl
@[simp] theorem Module.setStore_rst (d : Nat) (x : Store) : (m.setStore d x).rst = m.rst := rfl
@[simp] theorem Module.setStore_passed (d : Nat) (x : Store) : (m.setStore d x).passed = m.passed := rfl
@[simp] theorem Module.setStore_boot (d : Nat) (x : Store) : (m.setStore d x).boot = m.boot := rfl
@[simp] theorem Module.setStore_ret (d : Nat) (x : Store) : (m.setStore d x).ret = m.ret := rfl
@[simp] theorem Module.setStore_hsk (d : Nat) (x : Store) : (m.setStore d x).hsk = m.hsk := rfl
@[simp] theorem Module.setStore_nor (d : Nat) (x : Store) : (m.setStore d x).nor = m.nor := rfl
@[simp] theorem Module.setStore_jr (d : Nat) (x : Store) : (m.setStore d x).jr = m.jr := rfl
@[simp] theorem Module.setStore_life (d : Nat) (x : Store) : (m.setStore d x).life = m.life := rfl
@[simp] theorem Module.setStore_svc (d : Nat) (x : Store) : (m.setStore d x).svc = m.svc := rfl
@[simp] theorem Module.setStore_platDigests (d : Nat) (x : Store) : (m.setStore d x).platDigests = m.platDigests := rfl
@[simp] theorem Module.setStore_fns (d : Nat) (x : Store) : (m.setStore d x).fns = m.fns := rfl
@[simp] theorem Module.setStore_arqs (d : Nat) (x : Store) : (m.setStore d x).arqs = m.arqs := rfl
@[simp] theorem Module.setStore_dpqs (d : Nat) (x : Store) : (m.setStore d x).dpqs = m.dpqs := rfl
@[simp] theorem Module.setStore_line (d : Nat) (x : Store) : (m.setStore d x).line = m.line := rfl
@[simp] theorem Module.setStore_badParity (d : Nat) (x : Store) : (m.setStore d x).badParity = m.badParity := rfl
@[simp] theorem Module.setStore_counters (d : Nat) (x : Store) : (m.setStore d x).counters = m.counters := rfl
@[simp] theorem Module.setStore_incs (d : Nat) (x : Store) : (m.setStore d x).incs = m.incs := rfl
@[simp] theorem Module.setStore_frz (d : Nat) (x : Store) : (m.setStore d x).frz = m.frz := rfl
@[simp] theorem Module.setStore_frzBack (d : Nat) (x : Store) : (m.setStore d x).frzBack = m.frzBack := rfl
@[simp] theorem Module.setStore_after (d : Nat) (x : Store) : (m.setStore d x).after = m.after := rfl
@[simp] theorem Module.setStore_datum (d : Nat) (x : Store) : (m.setStore d x).datum = m.datum := rfl
@[simp] theorem Module.setStore_now (d : Nat) (x : Store) : (m.setStore d x).now = m.now := rfl
@[simp] theorem Module.setStore_freeCtr (d : Nat) (x : Store) : (m.setStore d x).freeCtr = m.freeCtr := rfl
@[simp] theorem Module.setStore_outbox (d : Nat) (x : Store) : (m.setStore d x).outbox = m.outbox := rfl

/-! ### `setFn` -/

@[simp] theorem Module.setFn_regs (f : Nat) (x : Fn) : (m.setFn f x).regs = m.regs := rfl
@[simp] theorem Module.setFn_mem (f : Nat) (x : Fn) : (m.setFn f x).mem = m.mem := rfl
@[simp] theorem Module.setFn_poison (f : Nat) (x : Fn) : (m.setFn f x).poison = m.poison := rfl
@[simp] theorem Module.setFn_scrErr (f : Nat) (x : Fn) : (m.setFn f x).scrErr = m.scrErr := rfl
@[simp] theorem Module.setFn_ueAt (f : Nat) (x : Fn) : (m.setFn f x).ueAt = m.ueAt := rfl
@[simp] theorem Module.setFn_wordErr (f : Nat) (x : Fn) : (m.setFn f x).wordErr = m.wordErr := rfl
@[simp] theorem Module.setFn_ckErr (f : Nat) (x : Fn) : (m.setFn f x).ckErr = m.ckErr := rfl
@[simp] theorem Module.setFn_ckOff (f : Nat) (x : Fn) : (m.setFn f x).ckOff = m.ckOff := rfl
@[simp] theorem Module.setFn_nearLost (f : Nat) (x : Fn) : (m.setFn f x).nearLost = m.nearLost := rfl
@[simp] theorem Module.setFn_cores (f : Nat) (x : Fn) : (m.setFn f x).cores = m.cores := rfl
@[simp] theorem Module.setFn_slices (f : Nat) (x : Fn) : (m.setFn f x).slices = m.slices := rfl
@[simp] theorem Module.setFn_fars (f : Nat) (x : Fn) : (m.setFn f x).fars = m.fars := rfl
@[simp] theorem Module.setFn_slow (f : Nat) (x : Fn) : (m.setFn f x).slow = m.slow := rfl
@[simp] theorem Module.setFn_slowBack (f : Nat) (x : Fn) : (m.setFn f x).slowBack = m.slowBack := rfl
@[simp] theorem Module.setFn_clkHeld (f : Nat) (x : Fn) : (m.setFn f x).clkHeld = m.clkHeld := rfl
@[simp] theorem Module.setFn_ran (f : Nat) (x : Fn) : (m.setFn f x).ran = m.ran := rfl
@[simp] theorem Module.setFn_tried (f : Nat) (x : Fn) : (m.setFn f x).tried = m.tried := rfl
@[simp] theorem Module.setFn_compOut (f : Nat) (x : Fn) : (m.setFn f x).compOut = m.compOut := rfl
@[simp] theorem Module.setFn_compEng (f : Nat) (x : Fn) : (m.setFn f x).compEng = m.compEng := rfl
@[simp] theorem Module.setFn_compTag (f : Nat) (x : Fn) : (m.setFn f x).compTag = m.compTag := rfl
@[simp] theorem Module.setFn_tx (f : Nat) (x : Fn) : (m.setFn f x).tx = m.tx := rfl
@[simp] theorem Module.setFn_txNext (f : Nat) (x : Fn) : (m.setFn f x).txNext = m.txNext := rfl
@[simp] theorem Module.setFn_parked (f : Nat) (x : Fn) : (m.setFn f x).parked = m.parked := rfl
@[simp] theorem Module.setFn_scrubs (f : Nat) (x : Fn) : (m.setFn f x).scrubs = m.scrubs := rfl
@[simp] theorem Module.setFn_repairs (f : Nat) (x : Fn) : (m.setFn f x).repairs = m.repairs := rfl
@[simp] theorem Module.setFn_net (f : Nat) (x : Fn) : (m.setFn f x).net = m.net := rfl
@[simp] theorem Module.setFn_flits (f : Nat) (x : Fn) : (m.setFn f x).flits = m.flits := rfl
@[simp] theorem Module.setFn_ctl (f : Nat) (x : Fn) : (m.setFn f x).ctl = m.ctl := rfl
@[simp] theorem Module.setFn_qos (f : Nat) (x : Fn) : (m.setFn f x).qos = m.qos := rfl
@[simp] theorem Module.setFn_plat (f : Nat) (x : Fn) : (m.setFn f x).plat = m.plat := rfl
@[simp] theorem Module.setFn_platLoaded (f : Nat) (x : Fn) : (m.setFn f x).platLoaded = m.platLoaded := rfl
@[simp] theorem Module.setFn_load (f : Nat) (x : Fn) : (m.setFn f x).load = m.load := rfl
@[simp] theorem Module.setFn_codes (f : Nat) (x : Fn) : (m.setFn f x).codes = m.codes := rfl
@[simp] theorem Module.setFn_resetting (f : Nat) (x : Fn) : (m.setFn f x).resetting = m.resetting := rfl
@[simp] theorem Module.setFn_obs (f : Nat) (x : Fn) : (m.setFn f x).obs = m.obs := rfl
@[simp] theorem Module.setFn_links (f : Nat) (x : Fn) : (m.setFn f x).links = m.links := rfl
@[simp] theorem Module.setFn_ports (f : Nat) (x : Fn) : (m.setFn f x).ports = m.ports := rfl
@[simp] theorem Module.setFn_transit (f : Nat) (x : Fn) : (m.setFn f x).transit = m.transit := rfl
@[simp] theorem Module.setFn_fabOut (f : Nat) (x : Fn) : (m.setFn f x).fabOut = m.fabOut := rfl
@[simp] theorem Module.setFn_fabTag (f : Nat) (x : Fn) : (m.setFn f x).fabTag = m.fabTag := rfl
@[simp] theorem Module.setFn_dat (f : Nat) (x : Fn) : (m.setFn f x).dat = m.dat := rfl
@[simp] theorem Module.setFn_surveyOk (f : Nat) (x : Fn) : (m.setFn f x).surveyOk = m.surveyOk := rfl
@[simp] theorem Module.setFn_met (f : Nat) (x : Fn) : (m.setFn f x).met = m.met := rfl
@[simp] theorem Module.setFn_metBuilt (f : Nat) (x : Fn) : (m.setFn f x).metBuilt = m.metBuilt := rfl
@[simp] theorem Module.setFn_fwOk (f : Nat) (x : Fn) : (m.setFn f x).fwOk = m.fwOk := rfl
@[simp] theorem Module.setFn_lockLost (f : Nat) (x : Fn) : (m.setFn f x).lockLost = m.lockLost := rfl
@[simp] theorem Module.setFn_lanes (f : Nat) (x : Fn) : (m.setFn f x).lanes = m.lanes := rfl
@[simp] theorem Module.setFn_d2dTest (f : Nat) (x : Fn) : (m.setFn f x).d2dTest = m.d2dTest := rfl
@[simp] theorem Module.setFn_tapIr (f : Nat) (x : Fn) : (m.setFn f x).tapIr = m.tapIr := rfl
@[simp] theorem Module.setFn_tapDr (f : Nat) (x : Fn) : (m.setFn f x).tapDr = m.tapDr := rfl
@[simp] theorem Module.setFn_fuses (f : Nat) (x : Fn) : (m.setFn f x).fuses = m.fuses := rfl
@[simp] theorem Module.setFn_flp (f : Nat) (x : Fn) : (m.setFn f x).flp = m.flp := rfl
@[simp] theorem Module.setFn_ledger (f : Nat) (x : Fn) : (m.setFn f x).ledger = m.ledger := rfl
@[simp] theorem Module.setFn_spares (f : Nat) (x : Fn) : (m.setFn f x).spares = m.spares := rfl
@[simp] theorem Module.setFn_sparesTemp (f : Nat) (x : Fn) : (m.setFn f x).sparesTemp = m.sparesTemp := rfl
@[simp] theorem Module.setFn_bringAt (f : Nat) (x : Fn) : (m.setFn f x).bringAt = m.bringAt := rfl
@[simp] theorem Module.setFn_rst (f : Nat) (x : Fn) : (m.setFn f x).rst = m.rst := rfl
@[simp] theorem Module.setFn_passed (f : Nat) (x : Fn) : (m.setFn f x).passed = m.passed := rfl
@[simp] theorem Module.setFn_boot (f : Nat) (x : Fn) : (m.setFn f x).boot = m.boot := rfl
@[simp] theorem Module.setFn_ret (f : Nat) (x : Fn) : (m.setFn f x).ret = m.ret := rfl
@[simp] theorem Module.setFn_hsk (f : Nat) (x : Fn) : (m.setFn f x).hsk = m.hsk := rfl
@[simp] theorem Module.setFn_nor (f : Nat) (x : Fn) : (m.setFn f x).nor = m.nor := rfl
@[simp] theorem Module.setFn_jr (f : Nat) (x : Fn) : (m.setFn f x).jr = m.jr := rfl
@[simp] theorem Module.setFn_life (f : Nat) (x : Fn) : (m.setFn f x).life = m.life := rfl
@[simp] theorem Module.setFn_svc (f : Nat) (x : Fn) : (m.setFn f x).svc = m.svc := rfl
@[simp] theorem Module.setFn_platDigests (f : Nat) (x : Fn) : (m.setFn f x).platDigests = m.platDigests := rfl
@[simp] theorem Module.setFn_arqs (f : Nat) (x : Fn) : (m.setFn f x).arqs = m.arqs := rfl
@[simp] theorem Module.setFn_dpqs (f : Nat) (x : Fn) : (m.setFn f x).dpqs = m.dpqs := rfl
@[simp] theorem Module.setFn_line (f : Nat) (x : Fn) : (m.setFn f x).line = m.line := rfl
@[simp] theorem Module.setFn_badParity (f : Nat) (x : Fn) : (m.setFn f x).badParity = m.badParity := rfl
@[simp] theorem Module.setFn_counters (f : Nat) (x : Fn) : (m.setFn f x).counters = m.counters := rfl
@[simp] theorem Module.setFn_incs (f : Nat) (x : Fn) : (m.setFn f x).incs = m.incs := rfl
@[simp] theorem Module.setFn_frz (f : Nat) (x : Fn) : (m.setFn f x).frz = m.frz := rfl
@[simp] theorem Module.setFn_frzBack (f : Nat) (x : Fn) : (m.setFn f x).frzBack = m.frzBack := rfl
@[simp] theorem Module.setFn_after (f : Nat) (x : Fn) : (m.setFn f x).after = m.after := rfl
@[simp] theorem Module.setFn_datum (f : Nat) (x : Fn) : (m.setFn f x).datum = m.datum := rfl
@[simp] theorem Module.setFn_now (f : Nat) (x : Fn) : (m.setFn f x).now = m.now := rfl
@[simp] theorem Module.setFn_freeCtr (f : Nat) (x : Fn) : (m.setFn f x).freeCtr = m.freeCtr := rfl
@[simp] theorem Module.setFn_outbox (f : Nat) (x : Fn) : (m.setFn f x).outbox = m.outbox := rfl

/-! ### `emit` -/

@[simp] theorem Module.emit_regs (o : Out) : (m.emit o).regs = m.regs := rfl
@[simp] theorem Module.emit_mem (o : Out) : (m.emit o).mem = m.mem := rfl
@[simp] theorem Module.emit_poison (o : Out) : (m.emit o).poison = m.poison := rfl
@[simp] theorem Module.emit_scrErr (o : Out) : (m.emit o).scrErr = m.scrErr := rfl
@[simp] theorem Module.emit_ueAt (o : Out) : (m.emit o).ueAt = m.ueAt := rfl
@[simp] theorem Module.emit_wordErr (o : Out) : (m.emit o).wordErr = m.wordErr := rfl
@[simp] theorem Module.emit_ckErr (o : Out) : (m.emit o).ckErr = m.ckErr := rfl
@[simp] theorem Module.emit_ckOff (o : Out) : (m.emit o).ckOff = m.ckOff := rfl
@[simp] theorem Module.emit_nearLost (o : Out) : (m.emit o).nearLost = m.nearLost := rfl
@[simp] theorem Module.emit_cores (o : Out) : (m.emit o).cores = m.cores := rfl
@[simp] theorem Module.emit_slices (o : Out) : (m.emit o).slices = m.slices := rfl
@[simp] theorem Module.emit_fars (o : Out) : (m.emit o).fars = m.fars := rfl
@[simp] theorem Module.emit_slow (o : Out) : (m.emit o).slow = m.slow := rfl
@[simp] theorem Module.emit_slowBack (o : Out) : (m.emit o).slowBack = m.slowBack := rfl
@[simp] theorem Module.emit_clkHeld (o : Out) : (m.emit o).clkHeld = m.clkHeld := rfl
@[simp] theorem Module.emit_ran (o : Out) : (m.emit o).ran = m.ran := rfl
@[simp] theorem Module.emit_tried (o : Out) : (m.emit o).tried = m.tried := rfl
@[simp] theorem Module.emit_compOut (o : Out) : (m.emit o).compOut = m.compOut := rfl
@[simp] theorem Module.emit_compEng (o : Out) : (m.emit o).compEng = m.compEng := rfl
@[simp] theorem Module.emit_compTag (o : Out) : (m.emit o).compTag = m.compTag := rfl
@[simp] theorem Module.emit_tx (o : Out) : (m.emit o).tx = m.tx := rfl
@[simp] theorem Module.emit_txNext (o : Out) : (m.emit o).txNext = m.txNext := rfl
@[simp] theorem Module.emit_parked (o : Out) : (m.emit o).parked = m.parked := rfl
@[simp] theorem Module.emit_scrubs (o : Out) : (m.emit o).scrubs = m.scrubs := rfl
@[simp] theorem Module.emit_repairs (o : Out) : (m.emit o).repairs = m.repairs := rfl
@[simp] theorem Module.emit_net (o : Out) : (m.emit o).net = m.net := rfl
@[simp] theorem Module.emit_flits (o : Out) : (m.emit o).flits = m.flits := rfl
@[simp] theorem Module.emit_ctl (o : Out) : (m.emit o).ctl = m.ctl := rfl
@[simp] theorem Module.emit_qos (o : Out) : (m.emit o).qos = m.qos := rfl
@[simp] theorem Module.emit_plat (o : Out) : (m.emit o).plat = m.plat := rfl
@[simp] theorem Module.emit_platLoaded (o : Out) : (m.emit o).platLoaded = m.platLoaded := rfl
@[simp] theorem Module.emit_load (o : Out) : (m.emit o).load = m.load := rfl
@[simp] theorem Module.emit_codes (o : Out) : (m.emit o).codes = m.codes := rfl
@[simp] theorem Module.emit_resetting (o : Out) : (m.emit o).resetting = m.resetting := rfl
@[simp] theorem Module.emit_obs (o : Out) : (m.emit o).obs = m.obs := rfl
@[simp] theorem Module.emit_links (o : Out) : (m.emit o).links = m.links := rfl
@[simp] theorem Module.emit_ports (o : Out) : (m.emit o).ports = m.ports := rfl
@[simp] theorem Module.emit_transit (o : Out) : (m.emit o).transit = m.transit := rfl
@[simp] theorem Module.emit_fabOut (o : Out) : (m.emit o).fabOut = m.fabOut := rfl
@[simp] theorem Module.emit_fabTag (o : Out) : (m.emit o).fabTag = m.fabTag := rfl
@[simp] theorem Module.emit_dat (o : Out) : (m.emit o).dat = m.dat := rfl
@[simp] theorem Module.emit_surveyOk (o : Out) : (m.emit o).surveyOk = m.surveyOk := rfl
@[simp] theorem Module.emit_met (o : Out) : (m.emit o).met = m.met := rfl
@[simp] theorem Module.emit_metBuilt (o : Out) : (m.emit o).metBuilt = m.metBuilt := rfl
@[simp] theorem Module.emit_fwOk (o : Out) : (m.emit o).fwOk = m.fwOk := rfl
@[simp] theorem Module.emit_lockLost (o : Out) : (m.emit o).lockLost = m.lockLost := rfl
@[simp] theorem Module.emit_lanes (o : Out) : (m.emit o).lanes = m.lanes := rfl
@[simp] theorem Module.emit_d2dTest (o : Out) : (m.emit o).d2dTest = m.d2dTest := rfl
@[simp] theorem Module.emit_tapIr (o : Out) : (m.emit o).tapIr = m.tapIr := rfl
@[simp] theorem Module.emit_tapDr (o : Out) : (m.emit o).tapDr = m.tapDr := rfl
@[simp] theorem Module.emit_fuses (o : Out) : (m.emit o).fuses = m.fuses := rfl
@[simp] theorem Module.emit_flp (o : Out) : (m.emit o).flp = m.flp := rfl
@[simp] theorem Module.emit_ledger (o : Out) : (m.emit o).ledger = m.ledger := rfl
@[simp] theorem Module.emit_spares (o : Out) : (m.emit o).spares = m.spares := rfl
@[simp] theorem Module.emit_sparesTemp (o : Out) : (m.emit o).sparesTemp = m.sparesTemp := rfl
@[simp] theorem Module.emit_bringAt (o : Out) : (m.emit o).bringAt = m.bringAt := rfl
@[simp] theorem Module.emit_rst (o : Out) : (m.emit o).rst = m.rst := rfl
@[simp] theorem Module.emit_passed (o : Out) : (m.emit o).passed = m.passed := rfl
@[simp] theorem Module.emit_boot (o : Out) : (m.emit o).boot = m.boot := rfl
@[simp] theorem Module.emit_ret (o : Out) : (m.emit o).ret = m.ret := rfl
@[simp] theorem Module.emit_hsk (o : Out) : (m.emit o).hsk = m.hsk := rfl
@[simp] theorem Module.emit_nor (o : Out) : (m.emit o).nor = m.nor := rfl
@[simp] theorem Module.emit_jr (o : Out) : (m.emit o).jr = m.jr := rfl
@[simp] theorem Module.emit_life (o : Out) : (m.emit o).life = m.life := rfl
@[simp] theorem Module.emit_svc (o : Out) : (m.emit o).svc = m.svc := rfl
@[simp] theorem Module.emit_platDigests (o : Out) : (m.emit o).platDigests = m.platDigests := rfl
@[simp] theorem Module.emit_fns (o : Out) : (m.emit o).fns = m.fns := rfl
@[simp] theorem Module.emit_arqs (o : Out) : (m.emit o).arqs = m.arqs := rfl
@[simp] theorem Module.emit_dpqs (o : Out) : (m.emit o).dpqs = m.dpqs := rfl
@[simp] theorem Module.emit_line (o : Out) : (m.emit o).line = m.line := rfl
@[simp] theorem Module.emit_badParity (o : Out) : (m.emit o).badParity = m.badParity := rfl
@[simp] theorem Module.emit_counters (o : Out) : (m.emit o).counters = m.counters := rfl
@[simp] theorem Module.emit_incs (o : Out) : (m.emit o).incs = m.incs := rfl
@[simp] theorem Module.emit_frz (o : Out) : (m.emit o).frz = m.frz := rfl
@[simp] theorem Module.emit_frzBack (o : Out) : (m.emit o).frzBack = m.frzBack := rfl
@[simp] theorem Module.emit_after (o : Out) : (m.emit o).after = m.after := rfl
@[simp] theorem Module.emit_datum (o : Out) : (m.emit o).datum = m.datum := rfl
@[simp] theorem Module.emit_now (o : Out) : (m.emit o).now = m.now := rfl
@[simp] theorem Module.emit_freeCtr (o : Out) : (m.emit o).freeCtr = m.freeCtr := rfl

/-! ### `count` -/

@[simp] theorem Module.count_regs (c n k : Nat) : (m.count c n k).regs = m.regs := rfl
@[simp] theorem Module.count_mem (c n k : Nat) : (m.count c n k).mem = m.mem := rfl
@[simp] theorem Module.count_poison (c n k : Nat) : (m.count c n k).poison = m.poison := rfl
@[simp] theorem Module.count_scrErr (c n k : Nat) : (m.count c n k).scrErr = m.scrErr := rfl
@[simp] theorem Module.count_ueAt (c n k : Nat) : (m.count c n k).ueAt = m.ueAt := rfl
@[simp] theorem Module.count_wordErr (c n k : Nat) : (m.count c n k).wordErr = m.wordErr := rfl
@[simp] theorem Module.count_ckErr (c n k : Nat) : (m.count c n k).ckErr = m.ckErr := rfl
@[simp] theorem Module.count_ckOff (c n k : Nat) : (m.count c n k).ckOff = m.ckOff := rfl
@[simp] theorem Module.count_nearLost (c n k : Nat) : (m.count c n k).nearLost = m.nearLost := rfl
@[simp] theorem Module.count_cores (c n k : Nat) : (m.count c n k).cores = m.cores := rfl
@[simp] theorem Module.count_slices (c n k : Nat) : (m.count c n k).slices = m.slices := rfl
@[simp] theorem Module.count_fars (c n k : Nat) : (m.count c n k).fars = m.fars := rfl
@[simp] theorem Module.count_slow (c n k : Nat) : (m.count c n k).slow = m.slow := rfl
@[simp] theorem Module.count_slowBack (c n k : Nat) : (m.count c n k).slowBack = m.slowBack := rfl
@[simp] theorem Module.count_clkHeld (c n k : Nat) : (m.count c n k).clkHeld = m.clkHeld := rfl
@[simp] theorem Module.count_ran (c n k : Nat) : (m.count c n k).ran = m.ran := rfl
@[simp] theorem Module.count_tried (c n k : Nat) : (m.count c n k).tried = m.tried := rfl
@[simp] theorem Module.count_compOut (c n k : Nat) : (m.count c n k).compOut = m.compOut := rfl
@[simp] theorem Module.count_compEng (c n k : Nat) : (m.count c n k).compEng = m.compEng := rfl
@[simp] theorem Module.count_compTag (c n k : Nat) : (m.count c n k).compTag = m.compTag := rfl
@[simp] theorem Module.count_tx (c n k : Nat) : (m.count c n k).tx = m.tx := rfl
@[simp] theorem Module.count_txNext (c n k : Nat) : (m.count c n k).txNext = m.txNext := rfl
@[simp] theorem Module.count_parked (c n k : Nat) : (m.count c n k).parked = m.parked := rfl
@[simp] theorem Module.count_scrubs (c n k : Nat) : (m.count c n k).scrubs = m.scrubs := rfl
@[simp] theorem Module.count_repairs (c n k : Nat) : (m.count c n k).repairs = m.repairs := rfl
@[simp] theorem Module.count_net (c n k : Nat) : (m.count c n k).net = m.net := rfl
@[simp] theorem Module.count_flits (c n k : Nat) : (m.count c n k).flits = m.flits := rfl
@[simp] theorem Module.count_ctl (c n k : Nat) : (m.count c n k).ctl = m.ctl := rfl
@[simp] theorem Module.count_qos (c n k : Nat) : (m.count c n k).qos = m.qos := rfl
@[simp] theorem Module.count_plat (c n k : Nat) : (m.count c n k).plat = m.plat := rfl
@[simp] theorem Module.count_platLoaded (c n k : Nat) : (m.count c n k).platLoaded = m.platLoaded := rfl
@[simp] theorem Module.count_load (c n k : Nat) : (m.count c n k).load = m.load := rfl
@[simp] theorem Module.count_codes (c n k : Nat) : (m.count c n k).codes = m.codes := rfl
@[simp] theorem Module.count_resetting (c n k : Nat) : (m.count c n k).resetting = m.resetting := rfl
@[simp] theorem Module.count_obs (c n k : Nat) : (m.count c n k).obs = m.obs := rfl
@[simp] theorem Module.count_links (c n k : Nat) : (m.count c n k).links = m.links := rfl
@[simp] theorem Module.count_ports (c n k : Nat) : (m.count c n k).ports = m.ports := rfl
@[simp] theorem Module.count_transit (c n k : Nat) : (m.count c n k).transit = m.transit := rfl
@[simp] theorem Module.count_fabOut (c n k : Nat) : (m.count c n k).fabOut = m.fabOut := rfl
@[simp] theorem Module.count_fabTag (c n k : Nat) : (m.count c n k).fabTag = m.fabTag := rfl
@[simp] theorem Module.count_dat (c n k : Nat) : (m.count c n k).dat = m.dat := rfl
@[simp] theorem Module.count_surveyOk (c n k : Nat) : (m.count c n k).surveyOk = m.surveyOk := rfl
@[simp] theorem Module.count_met (c n k : Nat) : (m.count c n k).met = m.met := rfl
@[simp] theorem Module.count_metBuilt (c n k : Nat) : (m.count c n k).metBuilt = m.metBuilt := rfl
@[simp] theorem Module.count_fwOk (c n k : Nat) : (m.count c n k).fwOk = m.fwOk := rfl
@[simp] theorem Module.count_lockLost (c n k : Nat) : (m.count c n k).lockLost = m.lockLost := rfl
@[simp] theorem Module.count_lanes (c n k : Nat) : (m.count c n k).lanes = m.lanes := rfl
@[simp] theorem Module.count_d2dTest (c n k : Nat) : (m.count c n k).d2dTest = m.d2dTest := rfl
@[simp] theorem Module.count_tapIr (c n k : Nat) : (m.count c n k).tapIr = m.tapIr := rfl
@[simp] theorem Module.count_tapDr (c n k : Nat) : (m.count c n k).tapDr = m.tapDr := rfl
@[simp] theorem Module.count_fuses (c n k : Nat) : (m.count c n k).fuses = m.fuses := rfl
@[simp] theorem Module.count_flp (c n k : Nat) : (m.count c n k).flp = m.flp := rfl
@[simp] theorem Module.count_ledger (c n k : Nat) : (m.count c n k).ledger = m.ledger := rfl
@[simp] theorem Module.count_spares (c n k : Nat) : (m.count c n k).spares = m.spares := rfl
@[simp] theorem Module.count_sparesTemp (c n k : Nat) : (m.count c n k).sparesTemp = m.sparesTemp := rfl
@[simp] theorem Module.count_bringAt (c n k : Nat) : (m.count c n k).bringAt = m.bringAt := rfl
@[simp] theorem Module.count_rst (c n k : Nat) : (m.count c n k).rst = m.rst := rfl
@[simp] theorem Module.count_passed (c n k : Nat) : (m.count c n k).passed = m.passed := rfl
@[simp] theorem Module.count_boot (c n k : Nat) : (m.count c n k).boot = m.boot := rfl
@[simp] theorem Module.count_ret (c n k : Nat) : (m.count c n k).ret = m.ret := rfl
@[simp] theorem Module.count_hsk (c n k : Nat) : (m.count c n k).hsk = m.hsk := rfl
@[simp] theorem Module.count_nor (c n k : Nat) : (m.count c n k).nor = m.nor := rfl
@[simp] theorem Module.count_jr (c n k : Nat) : (m.count c n k).jr = m.jr := rfl
@[simp] theorem Module.count_life (c n k : Nat) : (m.count c n k).life = m.life := rfl
@[simp] theorem Module.count_svc (c n k : Nat) : (m.count c n k).svc = m.svc := rfl
@[simp] theorem Module.count_platDigests (c n k : Nat) : (m.count c n k).platDigests = m.platDigests := rfl
@[simp] theorem Module.count_fns (c n k : Nat) : (m.count c n k).fns = m.fns := rfl
@[simp] theorem Module.count_arqs (c n k : Nat) : (m.count c n k).arqs = m.arqs := rfl
@[simp] theorem Module.count_dpqs (c n k : Nat) : (m.count c n k).dpqs = m.dpqs := rfl
@[simp] theorem Module.count_line (c n k : Nat) : (m.count c n k).line = m.line := rfl
@[simp] theorem Module.count_badParity (c n k : Nat) : (m.count c n k).badParity = m.badParity := rfl
@[simp] theorem Module.count_frz (c n k : Nat) : (m.count c n k).frz = m.frz := rfl
@[simp] theorem Module.count_frzBack (c n k : Nat) : (m.count c n k).frzBack = m.frzBack := rfl
@[simp] theorem Module.count_datum (c n k : Nat) : (m.count c n k).datum = m.datum := rfl
@[simp] theorem Module.count_now (c n k : Nat) : (m.count c n k).now = m.now := rfl
@[simp] theorem Module.count_freeCtr (c n k : Nat) : (m.count c n k).freeCtr = m.freeCtr := rfl
@[simp] theorem Module.count_outbox (c n k : Nat) : (m.count c n k).outbox = m.outbox := rfl

/-! ### `setPoison` -/

@[simp] theorem Module.setPoison_regs (l : List Nat) : (m.setPoison l).regs = m.regs := rfl
@[simp] theorem Module.setPoison_mem (l : List Nat) : (m.setPoison l).mem = m.mem := rfl
@[simp] theorem Module.setPoison_scrErr (l : List Nat) : (m.setPoison l).scrErr = m.scrErr := rfl
@[simp] theorem Module.setPoison_ueAt (l : List Nat) : (m.setPoison l).ueAt = m.ueAt := rfl
@[simp] theorem Module.setPoison_ckErr (l : List Nat) : (m.setPoison l).ckErr = m.ckErr := rfl
@[simp] theorem Module.setPoison_ckOff (l : List Nat) : (m.setPoison l).ckOff = m.ckOff := rfl
@[simp] theorem Module.setPoison_nearLost (l : List Nat) : (m.setPoison l).nearLost = m.nearLost := rfl
@[simp] theorem Module.setPoison_cores (l : List Nat) : (m.setPoison l).cores = m.cores := rfl
@[simp] theorem Module.setPoison_slices (l : List Nat) : (m.setPoison l).slices = m.slices := rfl
@[simp] theorem Module.setPoison_fars (l : List Nat) : (m.setPoison l).fars = m.fars := rfl
@[simp] theorem Module.setPoison_slow (l : List Nat) : (m.setPoison l).slow = m.slow := rfl
@[simp] theorem Module.setPoison_slowBack (l : List Nat) : (m.setPoison l).slowBack = m.slowBack := rfl
@[simp] theorem Module.setPoison_clkHeld (l : List Nat) : (m.setPoison l).clkHeld = m.clkHeld := rfl
@[simp] theorem Module.setPoison_ran (l : List Nat) : (m.setPoison l).ran = m.ran := rfl
@[simp] theorem Module.setPoison_tried (l : List Nat) : (m.setPoison l).tried = m.tried := rfl
@[simp] theorem Module.setPoison_compOut (l : List Nat) : (m.setPoison l).compOut = m.compOut := rfl
@[simp] theorem Module.setPoison_compEng (l : List Nat) : (m.setPoison l).compEng = m.compEng := rfl
@[simp] theorem Module.setPoison_compTag (l : List Nat) : (m.setPoison l).compTag = m.compTag := rfl
@[simp] theorem Module.setPoison_tx (l : List Nat) : (m.setPoison l).tx = m.tx := rfl
@[simp] theorem Module.setPoison_txNext (l : List Nat) : (m.setPoison l).txNext = m.txNext := rfl
@[simp] theorem Module.setPoison_parked (l : List Nat) : (m.setPoison l).parked = m.parked := rfl
@[simp] theorem Module.setPoison_scrubs (l : List Nat) : (m.setPoison l).scrubs = m.scrubs := rfl
@[simp] theorem Module.setPoison_repairs (l : List Nat) : (m.setPoison l).repairs = m.repairs := rfl
@[simp] theorem Module.setPoison_net (l : List Nat) : (m.setPoison l).net = m.net := rfl
@[simp] theorem Module.setPoison_flits (l : List Nat) : (m.setPoison l).flits = m.flits := rfl
@[simp] theorem Module.setPoison_ctl (l : List Nat) : (m.setPoison l).ctl = m.ctl := rfl
@[simp] theorem Module.setPoison_qos (l : List Nat) : (m.setPoison l).qos = m.qos := rfl
@[simp] theorem Module.setPoison_plat (l : List Nat) : (m.setPoison l).plat = m.plat := rfl
@[simp] theorem Module.setPoison_platLoaded (l : List Nat) : (m.setPoison l).platLoaded = m.platLoaded := rfl
@[simp] theorem Module.setPoison_load (l : List Nat) : (m.setPoison l).load = m.load := rfl
@[simp] theorem Module.setPoison_codes (l : List Nat) : (m.setPoison l).codes = m.codes := rfl
@[simp] theorem Module.setPoison_resetting (l : List Nat) : (m.setPoison l).resetting = m.resetting := rfl
@[simp] theorem Module.setPoison_obs (l : List Nat) : (m.setPoison l).obs = m.obs := rfl
@[simp] theorem Module.setPoison_links (l : List Nat) : (m.setPoison l).links = m.links := rfl
@[simp] theorem Module.setPoison_ports (l : List Nat) : (m.setPoison l).ports = m.ports := rfl
@[simp] theorem Module.setPoison_transit (l : List Nat) : (m.setPoison l).transit = m.transit := rfl
@[simp] theorem Module.setPoison_fabOut (l : List Nat) : (m.setPoison l).fabOut = m.fabOut := rfl
@[simp] theorem Module.setPoison_fabTag (l : List Nat) : (m.setPoison l).fabTag = m.fabTag := rfl
@[simp] theorem Module.setPoison_dat (l : List Nat) : (m.setPoison l).dat = m.dat := rfl
@[simp] theorem Module.setPoison_surveyOk (l : List Nat) : (m.setPoison l).surveyOk = m.surveyOk := rfl
@[simp] theorem Module.setPoison_met (l : List Nat) : (m.setPoison l).met = m.met := rfl
@[simp] theorem Module.setPoison_metBuilt (l : List Nat) : (m.setPoison l).metBuilt = m.metBuilt := rfl
@[simp] theorem Module.setPoison_fwOk (l : List Nat) : (m.setPoison l).fwOk = m.fwOk := rfl
@[simp] theorem Module.setPoison_lockLost (l : List Nat) : (m.setPoison l).lockLost = m.lockLost := rfl
@[simp] theorem Module.setPoison_lanes (l : List Nat) : (m.setPoison l).lanes = m.lanes := rfl
@[simp] theorem Module.setPoison_d2dTest (l : List Nat) : (m.setPoison l).d2dTest = m.d2dTest := rfl
@[simp] theorem Module.setPoison_tapIr (l : List Nat) : (m.setPoison l).tapIr = m.tapIr := rfl
@[simp] theorem Module.setPoison_tapDr (l : List Nat) : (m.setPoison l).tapDr = m.tapDr := rfl
@[simp] theorem Module.setPoison_fuses (l : List Nat) : (m.setPoison l).fuses = m.fuses := rfl
@[simp] theorem Module.setPoison_flp (l : List Nat) : (m.setPoison l).flp = m.flp := rfl
@[simp] theorem Module.setPoison_ledger (l : List Nat) : (m.setPoison l).ledger = m.ledger := rfl
@[simp] theorem Module.setPoison_spares (l : List Nat) : (m.setPoison l).spares = m.spares := rfl
@[simp] theorem Module.setPoison_sparesTemp (l : List Nat) : (m.setPoison l).sparesTemp = m.sparesTemp := rfl
@[simp] theorem Module.setPoison_bringAt (l : List Nat) : (m.setPoison l).bringAt = m.bringAt := rfl
@[simp] theorem Module.setPoison_rst (l : List Nat) : (m.setPoison l).rst = m.rst := rfl
@[simp] theorem Module.setPoison_passed (l : List Nat) : (m.setPoison l).passed = m.passed := rfl
@[simp] theorem Module.setPoison_boot (l : List Nat) : (m.setPoison l).boot = m.boot := rfl
@[simp] theorem Module.setPoison_ret (l : List Nat) : (m.setPoison l).ret = m.ret := rfl
@[simp] theorem Module.setPoison_hsk (l : List Nat) : (m.setPoison l).hsk = m.hsk := rfl
@[simp] theorem Module.setPoison_nor (l : List Nat) : (m.setPoison l).nor = m.nor := rfl
@[simp] theorem Module.setPoison_jr (l : List Nat) : (m.setPoison l).jr = m.jr := rfl
@[simp] theorem Module.setPoison_life (l : List Nat) : (m.setPoison l).life = m.life := rfl
@[simp] theorem Module.setPoison_svc (l : List Nat) : (m.setPoison l).svc = m.svc := rfl
@[simp] theorem Module.setPoison_platDigests (l : List Nat) : (m.setPoison l).platDigests = m.platDigests := rfl
@[simp] theorem Module.setPoison_fns (l : List Nat) : (m.setPoison l).fns = m.fns := rfl
@[simp] theorem Module.setPoison_arqs (l : List Nat) : (m.setPoison l).arqs = m.arqs := rfl
@[simp] theorem Module.setPoison_dpqs (l : List Nat) : (m.setPoison l).dpqs = m.dpqs := rfl
@[simp] theorem Module.setPoison_line (l : List Nat) : (m.setPoison l).line = m.line := rfl
@[simp] theorem Module.setPoison_badParity (l : List Nat) : (m.setPoison l).badParity = m.badParity := rfl
@[simp] theorem Module.setPoison_counters (l : List Nat) : (m.setPoison l).counters = m.counters := rfl
@[simp] theorem Module.setPoison_incs (l : List Nat) : (m.setPoison l).incs = m.incs := rfl
@[simp] theorem Module.setPoison_frz (l : List Nat) : (m.setPoison l).frz = m.frz := rfl
@[simp] theorem Module.setPoison_frzBack (l : List Nat) : (m.setPoison l).frzBack = m.frzBack := rfl
@[simp] theorem Module.setPoison_after (l : List Nat) : (m.setPoison l).after = m.after := rfl
@[simp] theorem Module.setPoison_datum (l : List Nat) : (m.setPoison l).datum = m.datum := rfl
@[simp] theorem Module.setPoison_now (l : List Nat) : (m.setPoison l).now = m.now := rfl
@[simp] theorem Module.setPoison_freeCtr (l : List Nat) : (m.setPoison l).freeCtr = m.freeCtr := rfl
@[simp] theorem Module.setPoison_outbox (l : List Nat) : (m.setPoison l).outbox = m.outbox := rfl

/-! ### `storeView` -/

@[simp] theorem Module.storeView_regs (k : Nat) (l : List Byte) (t : Nat → Bool) : (m.storeView k l t).regs = m.regs := rfl
@[simp] theorem Module.storeView_scrErr (k : Nat) (l : List Byte) (t : Nat → Bool) : (m.storeView k l t).scrErr = m.scrErr := rfl
@[simp] theorem Module.storeView_ueAt (k : Nat) (l : List Byte) (t : Nat → Bool) : (m.storeView k l t).ueAt = m.ueAt := rfl
@[simp] theorem Module.storeView_wordErr (k : Nat) (l : List Byte) (t : Nat → Bool) : (m.storeView k l t).wordErr = m.wordErr := rfl
@[simp] theorem Module.storeView_ckErr (k : Nat) (l : List Byte) (t : Nat → Bool) : (m.storeView k l t).ckErr = m.ckErr := rfl
@[simp] theorem Module.storeView_ckOff (k : Nat) (l : List Byte) (t : Nat → Bool) : (m.storeView k l t).ckOff = m.ckOff := rfl
@[simp] theorem Module.storeView_nearLost (k : Nat) (l : List Byte) (t : Nat → Bool) : (m.storeView k l t).nearLost = m.nearLost := rfl
@[simp] theorem Module.storeView_cores (k : Nat) (l : List Byte) (t : Nat → Bool) : (m.storeView k l t).cores = m.cores := rfl
@[simp] theorem Module.storeView_slices (k : Nat) (l : List Byte) (t : Nat → Bool) : (m.storeView k l t).slices = m.slices := rfl
@[simp] theorem Module.storeView_fars (k : Nat) (l : List Byte) (t : Nat → Bool) : (m.storeView k l t).fars = m.fars := rfl
@[simp] theorem Module.storeView_slow (k : Nat) (l : List Byte) (t : Nat → Bool) : (m.storeView k l t).slow = m.slow := rfl
@[simp] theorem Module.storeView_slowBack (k : Nat) (l : List Byte) (t : Nat → Bool) : (m.storeView k l t).slowBack = m.slowBack := rfl
@[simp] theorem Module.storeView_clkHeld (k : Nat) (l : List Byte) (t : Nat → Bool) : (m.storeView k l t).clkHeld = m.clkHeld := rfl
@[simp] theorem Module.storeView_ran (k : Nat) (l : List Byte) (t : Nat → Bool) : (m.storeView k l t).ran = m.ran := rfl
@[simp] theorem Module.storeView_tried (k : Nat) (l : List Byte) (t : Nat → Bool) : (m.storeView k l t).tried = m.tried := rfl
@[simp] theorem Module.storeView_compOut (k : Nat) (l : List Byte) (t : Nat → Bool) : (m.storeView k l t).compOut = m.compOut := rfl
@[simp] theorem Module.storeView_compEng (k : Nat) (l : List Byte) (t : Nat → Bool) : (m.storeView k l t).compEng = m.compEng := rfl
@[simp] theorem Module.storeView_compTag (k : Nat) (l : List Byte) (t : Nat → Bool) : (m.storeView k l t).compTag = m.compTag := rfl
@[simp] theorem Module.storeView_tx (k : Nat) (l : List Byte) (t : Nat → Bool) : (m.storeView k l t).tx = m.tx := rfl
@[simp] theorem Module.storeView_txNext (k : Nat) (l : List Byte) (t : Nat → Bool) : (m.storeView k l t).txNext = m.txNext := rfl
@[simp] theorem Module.storeView_parked (k : Nat) (l : List Byte) (t : Nat → Bool) : (m.storeView k l t).parked = m.parked := rfl
@[simp] theorem Module.storeView_scrubs (k : Nat) (l : List Byte) (t : Nat → Bool) : (m.storeView k l t).scrubs = m.scrubs := rfl
@[simp] theorem Module.storeView_repairs (k : Nat) (l : List Byte) (t : Nat → Bool) : (m.storeView k l t).repairs = m.repairs := rfl
@[simp] theorem Module.storeView_net (k : Nat) (l : List Byte) (t : Nat → Bool) : (m.storeView k l t).net = m.net := rfl
@[simp] theorem Module.storeView_flits (k : Nat) (l : List Byte) (t : Nat → Bool) : (m.storeView k l t).flits = m.flits := rfl
@[simp] theorem Module.storeView_ctl (k : Nat) (l : List Byte) (t : Nat → Bool) : (m.storeView k l t).ctl = m.ctl := rfl
@[simp] theorem Module.storeView_qos (k : Nat) (l : List Byte) (t : Nat → Bool) : (m.storeView k l t).qos = m.qos := rfl
@[simp] theorem Module.storeView_plat (k : Nat) (l : List Byte) (t : Nat → Bool) : (m.storeView k l t).plat = m.plat := rfl
@[simp] theorem Module.storeView_platLoaded (k : Nat) (l : List Byte) (t : Nat → Bool) : (m.storeView k l t).platLoaded = m.platLoaded := rfl
@[simp] theorem Module.storeView_load (k : Nat) (l : List Byte) (t : Nat → Bool) : (m.storeView k l t).load = m.load := rfl
@[simp] theorem Module.storeView_codes (k : Nat) (l : List Byte) (t : Nat → Bool) : (m.storeView k l t).codes = m.codes := rfl
@[simp] theorem Module.storeView_resetting (k : Nat) (l : List Byte) (t : Nat → Bool) : (m.storeView k l t).resetting = m.resetting := rfl
@[simp] theorem Module.storeView_obs (k : Nat) (l : List Byte) (t : Nat → Bool) : (m.storeView k l t).obs = m.obs := rfl
@[simp] theorem Module.storeView_links (k : Nat) (l : List Byte) (t : Nat → Bool) : (m.storeView k l t).links = m.links := rfl
@[simp] theorem Module.storeView_ports (k : Nat) (l : List Byte) (t : Nat → Bool) : (m.storeView k l t).ports = m.ports := rfl
@[simp] theorem Module.storeView_transit (k : Nat) (l : List Byte) (t : Nat → Bool) : (m.storeView k l t).transit = m.transit := rfl
@[simp] theorem Module.storeView_fabOut (k : Nat) (l : List Byte) (t : Nat → Bool) : (m.storeView k l t).fabOut = m.fabOut := rfl
@[simp] theorem Module.storeView_fabTag (k : Nat) (l : List Byte) (t : Nat → Bool) : (m.storeView k l t).fabTag = m.fabTag := rfl
@[simp] theorem Module.storeView_dat (k : Nat) (l : List Byte) (t : Nat → Bool) : (m.storeView k l t).dat = m.dat := rfl
@[simp] theorem Module.storeView_surveyOk (k : Nat) (l : List Byte) (t : Nat → Bool) : (m.storeView k l t).surveyOk = m.surveyOk := rfl
@[simp] theorem Module.storeView_met (k : Nat) (l : List Byte) (t : Nat → Bool) : (m.storeView k l t).met = m.met := rfl
@[simp] theorem Module.storeView_metBuilt (k : Nat) (l : List Byte) (t : Nat → Bool) : (m.storeView k l t).metBuilt = m.metBuilt := rfl
@[simp] theorem Module.storeView_fwOk (k : Nat) (l : List Byte) (t : Nat → Bool) : (m.storeView k l t).fwOk = m.fwOk := rfl
@[simp] theorem Module.storeView_lockLost (k : Nat) (l : List Byte) (t : Nat → Bool) : (m.storeView k l t).lockLost = m.lockLost := rfl
@[simp] theorem Module.storeView_lanes (k : Nat) (l : List Byte) (t : Nat → Bool) : (m.storeView k l t).lanes = m.lanes := rfl
@[simp] theorem Module.storeView_d2dTest (k : Nat) (l : List Byte) (t : Nat → Bool) : (m.storeView k l t).d2dTest = m.d2dTest := rfl
@[simp] theorem Module.storeView_tapIr (k : Nat) (l : List Byte) (t : Nat → Bool) : (m.storeView k l t).tapIr = m.tapIr := rfl
@[simp] theorem Module.storeView_tapDr (k : Nat) (l : List Byte) (t : Nat → Bool) : (m.storeView k l t).tapDr = m.tapDr := rfl
@[simp] theorem Module.storeView_fuses (k : Nat) (l : List Byte) (t : Nat → Bool) : (m.storeView k l t).fuses = m.fuses := rfl
@[simp] theorem Module.storeView_flp (k : Nat) (l : List Byte) (t : Nat → Bool) : (m.storeView k l t).flp = m.flp := rfl
@[simp] theorem Module.storeView_ledger (k : Nat) (l : List Byte) (t : Nat → Bool) : (m.storeView k l t).ledger = m.ledger := rfl
@[simp] theorem Module.storeView_spares (k : Nat) (l : List Byte) (t : Nat → Bool) : (m.storeView k l t).spares = m.spares := rfl
@[simp] theorem Module.storeView_sparesTemp (k : Nat) (l : List Byte) (t : Nat → Bool) : (m.storeView k l t).sparesTemp = m.sparesTemp := rfl
@[simp] theorem Module.storeView_bringAt (k : Nat) (l : List Byte) (t : Nat → Bool) : (m.storeView k l t).bringAt = m.bringAt := rfl
@[simp] theorem Module.storeView_rst (k : Nat) (l : List Byte) (t : Nat → Bool) : (m.storeView k l t).rst = m.rst := rfl
@[simp] theorem Module.storeView_passed (k : Nat) (l : List Byte) (t : Nat → Bool) : (m.storeView k l t).passed = m.passed := rfl
@[simp] theorem Module.storeView_boot (k : Nat) (l : List Byte) (t : Nat → Bool) : (m.storeView k l t).boot = m.boot := rfl
@[simp] theorem Module.storeView_ret (k : Nat) (l : List Byte) (t : Nat → Bool) : (m.storeView k l t).ret = m.ret := rfl
@[simp] theorem Module.storeView_hsk (k : Nat) (l : List Byte) (t : Nat → Bool) : (m.storeView k l t).hsk = m.hsk := rfl
@[simp] theorem Module.storeView_nor (k : Nat) (l : List Byte) (t : Nat → Bool) : (m.storeView k l t).nor = m.nor := rfl
@[simp] theorem Module.storeView_jr (k : Nat) (l : List Byte) (t : Nat → Bool) : (m.storeView k l t).jr = m.jr := rfl
@[simp] theorem Module.storeView_life (k : Nat) (l : List Byte) (t : Nat → Bool) : (m.storeView k l t).life = m.life := rfl
@[simp] theorem Module.storeView_svc (k : Nat) (l : List Byte) (t : Nat → Bool) : (m.storeView k l t).svc = m.svc := rfl
@[simp] theorem Module.storeView_platDigests (k : Nat) (l : List Byte) (t : Nat → Bool) : (m.storeView k l t).platDigests = m.platDigests := rfl
@[simp] theorem Module.storeView_fns (k : Nat) (l : List Byte) (t : Nat → Bool) : (m.storeView k l t).fns = m.fns := rfl
@[simp] theorem Module.storeView_arqs (k : Nat) (l : List Byte) (t : Nat → Bool) : (m.storeView k l t).arqs = m.arqs := rfl
@[simp] theorem Module.storeView_dpqs (k : Nat) (l : List Byte) (t : Nat → Bool) : (m.storeView k l t).dpqs = m.dpqs := rfl
@[simp] theorem Module.storeView_line (k : Nat) (l : List Byte) (t : Nat → Bool) : (m.storeView k l t).line = m.line := rfl
@[simp] theorem Module.storeView_badParity (k : Nat) (l : List Byte) (t : Nat → Bool) : (m.storeView k l t).badParity = m.badParity := rfl
@[simp] theorem Module.storeView_counters (k : Nat) (l : List Byte) (t : Nat → Bool) : (m.storeView k l t).counters = m.counters := rfl
@[simp] theorem Module.storeView_incs (k : Nat) (l : List Byte) (t : Nat → Bool) : (m.storeView k l t).incs = m.incs := rfl
@[simp] theorem Module.storeView_frz (k : Nat) (l : List Byte) (t : Nat → Bool) : (m.storeView k l t).frz = m.frz := rfl
@[simp] theorem Module.storeView_frzBack (k : Nat) (l : List Byte) (t : Nat → Bool) : (m.storeView k l t).frzBack = m.frzBack := rfl
@[simp] theorem Module.storeView_after (k : Nat) (l : List Byte) (t : Nat → Bool) : (m.storeView k l t).after = m.after := rfl
@[simp] theorem Module.storeView_datum (k : Nat) (l : List Byte) (t : Nat → Bool) : (m.storeView k l t).datum = m.datum := rfl
@[simp] theorem Module.storeView_now (k : Nat) (l : List Byte) (t : Nat → Bool) : (m.storeView k l t).now = m.now := rfl
@[simp] theorem Module.storeView_freeCtr (k : Nat) (l : List Byte) (t : Nat → Bool) : (m.storeView k l t).freeCtr = m.freeCtr := rfl
@[simp] theorem Module.storeView_outbox (k : Nat) (l : List Byte) (t : Nat → Bool) : (m.storeView k l t).outbox = m.outbox := rfl

/-! ### `freshCodes` -/

@[simp] theorem Module.freshCodes_regs (p : Nat → Bool) : (m.freshCodes p).regs = m.regs := rfl
@[simp] theorem Module.freshCodes_mem (p : Nat → Bool) : (m.freshCodes p).mem = m.mem := rfl
@[simp] theorem Module.freshCodes_poison (p : Nat → Bool) : (m.freshCodes p).poison = m.poison := rfl
@[simp] theorem Module.freshCodes_scrErr (p : Nat → Bool) : (m.freshCodes p).scrErr = m.scrErr := rfl
@[simp] theorem Module.freshCodes_ueAt (p : Nat → Bool) : (m.freshCodes p).ueAt = m.ueAt := rfl
@[simp] theorem Module.freshCodes_ckErr (p : Nat → Bool) : (m.freshCodes p).ckErr = m.ckErr := rfl
@[simp] theorem Module.freshCodes_ckOff (p : Nat → Bool) : (m.freshCodes p).ckOff = m.ckOff := rfl
@[simp] theorem Module.freshCodes_nearLost (p : Nat → Bool) : (m.freshCodes p).nearLost = m.nearLost := rfl
@[simp] theorem Module.freshCodes_cores (p : Nat → Bool) : (m.freshCodes p).cores = m.cores := rfl
@[simp] theorem Module.freshCodes_slices (p : Nat → Bool) : (m.freshCodes p).slices = m.slices := rfl
@[simp] theorem Module.freshCodes_fars (p : Nat → Bool) : (m.freshCodes p).fars = m.fars := rfl
@[simp] theorem Module.freshCodes_slow (p : Nat → Bool) : (m.freshCodes p).slow = m.slow := rfl
@[simp] theorem Module.freshCodes_slowBack (p : Nat → Bool) : (m.freshCodes p).slowBack = m.slowBack := rfl
@[simp] theorem Module.freshCodes_clkHeld (p : Nat → Bool) : (m.freshCodes p).clkHeld = m.clkHeld := rfl
@[simp] theorem Module.freshCodes_ran (p : Nat → Bool) : (m.freshCodes p).ran = m.ran := rfl
@[simp] theorem Module.freshCodes_tried (p : Nat → Bool) : (m.freshCodes p).tried = m.tried := rfl
@[simp] theorem Module.freshCodes_compOut (p : Nat → Bool) : (m.freshCodes p).compOut = m.compOut := rfl
@[simp] theorem Module.freshCodes_compEng (p : Nat → Bool) : (m.freshCodes p).compEng = m.compEng := rfl
@[simp] theorem Module.freshCodes_compTag (p : Nat → Bool) : (m.freshCodes p).compTag = m.compTag := rfl
@[simp] theorem Module.freshCodes_tx (p : Nat → Bool) : (m.freshCodes p).tx = m.tx := rfl
@[simp] theorem Module.freshCodes_txNext (p : Nat → Bool) : (m.freshCodes p).txNext = m.txNext := rfl
@[simp] theorem Module.freshCodes_parked (p : Nat → Bool) : (m.freshCodes p).parked = m.parked := rfl
@[simp] theorem Module.freshCodes_scrubs (p : Nat → Bool) : (m.freshCodes p).scrubs = m.scrubs := rfl
@[simp] theorem Module.freshCodes_repairs (p : Nat → Bool) : (m.freshCodes p).repairs = m.repairs := rfl
@[simp] theorem Module.freshCodes_net (p : Nat → Bool) : (m.freshCodes p).net = m.net := rfl
@[simp] theorem Module.freshCodes_flits (p : Nat → Bool) : (m.freshCodes p).flits = m.flits := rfl
@[simp] theorem Module.freshCodes_ctl (p : Nat → Bool) : (m.freshCodes p).ctl = m.ctl := rfl
@[simp] theorem Module.freshCodes_qos (p : Nat → Bool) : (m.freshCodes p).qos = m.qos := rfl
@[simp] theorem Module.freshCodes_plat (p : Nat → Bool) : (m.freshCodes p).plat = m.plat := rfl
@[simp] theorem Module.freshCodes_platLoaded (p : Nat → Bool) : (m.freshCodes p).platLoaded = m.platLoaded := rfl
@[simp] theorem Module.freshCodes_load (p : Nat → Bool) : (m.freshCodes p).load = m.load := rfl
@[simp] theorem Module.freshCodes_codes (p : Nat → Bool) : (m.freshCodes p).codes = m.codes := rfl
@[simp] theorem Module.freshCodes_resetting (p : Nat → Bool) : (m.freshCodes p).resetting = m.resetting := rfl
@[simp] theorem Module.freshCodes_obs (p : Nat → Bool) : (m.freshCodes p).obs = m.obs := rfl
@[simp] theorem Module.freshCodes_links (p : Nat → Bool) : (m.freshCodes p).links = m.links := rfl
@[simp] theorem Module.freshCodes_ports (p : Nat → Bool) : (m.freshCodes p).ports = m.ports := rfl
@[simp] theorem Module.freshCodes_transit (p : Nat → Bool) : (m.freshCodes p).transit = m.transit := rfl
@[simp] theorem Module.freshCodes_fabOut (p : Nat → Bool) : (m.freshCodes p).fabOut = m.fabOut := rfl
@[simp] theorem Module.freshCodes_fabTag (p : Nat → Bool) : (m.freshCodes p).fabTag = m.fabTag := rfl
@[simp] theorem Module.freshCodes_dat (p : Nat → Bool) : (m.freshCodes p).dat = m.dat := rfl
@[simp] theorem Module.freshCodes_surveyOk (p : Nat → Bool) : (m.freshCodes p).surveyOk = m.surveyOk := rfl
@[simp] theorem Module.freshCodes_met (p : Nat → Bool) : (m.freshCodes p).met = m.met := rfl
@[simp] theorem Module.freshCodes_metBuilt (p : Nat → Bool) : (m.freshCodes p).metBuilt = m.metBuilt := rfl
@[simp] theorem Module.freshCodes_fwOk (p : Nat → Bool) : (m.freshCodes p).fwOk = m.fwOk := rfl
@[simp] theorem Module.freshCodes_lockLost (p : Nat → Bool) : (m.freshCodes p).lockLost = m.lockLost := rfl
@[simp] theorem Module.freshCodes_lanes (p : Nat → Bool) : (m.freshCodes p).lanes = m.lanes := rfl
@[simp] theorem Module.freshCodes_d2dTest (p : Nat → Bool) : (m.freshCodes p).d2dTest = m.d2dTest := rfl
@[simp] theorem Module.freshCodes_tapIr (p : Nat → Bool) : (m.freshCodes p).tapIr = m.tapIr := rfl
@[simp] theorem Module.freshCodes_tapDr (p : Nat → Bool) : (m.freshCodes p).tapDr = m.tapDr := rfl
@[simp] theorem Module.freshCodes_fuses (p : Nat → Bool) : (m.freshCodes p).fuses = m.fuses := rfl
@[simp] theorem Module.freshCodes_flp (p : Nat → Bool) : (m.freshCodes p).flp = m.flp := rfl
@[simp] theorem Module.freshCodes_ledger (p : Nat → Bool) : (m.freshCodes p).ledger = m.ledger := rfl
@[simp] theorem Module.freshCodes_spares (p : Nat → Bool) : (m.freshCodes p).spares = m.spares := rfl
@[simp] theorem Module.freshCodes_sparesTemp (p : Nat → Bool) : (m.freshCodes p).sparesTemp = m.sparesTemp := rfl
@[simp] theorem Module.freshCodes_bringAt (p : Nat → Bool) : (m.freshCodes p).bringAt = m.bringAt := rfl
@[simp] theorem Module.freshCodes_rst (p : Nat → Bool) : (m.freshCodes p).rst = m.rst := rfl
@[simp] theorem Module.freshCodes_passed (p : Nat → Bool) : (m.freshCodes p).passed = m.passed := rfl
@[simp] theorem Module.freshCodes_boot (p : Nat → Bool) : (m.freshCodes p).boot = m.boot := rfl
@[simp] theorem Module.freshCodes_ret (p : Nat → Bool) : (m.freshCodes p).ret = m.ret := rfl
@[simp] theorem Module.freshCodes_hsk (p : Nat → Bool) : (m.freshCodes p).hsk = m.hsk := rfl
@[simp] theorem Module.freshCodes_nor (p : Nat → Bool) : (m.freshCodes p).nor = m.nor := rfl
@[simp] theorem Module.freshCodes_jr (p : Nat → Bool) : (m.freshCodes p).jr = m.jr := rfl
@[simp] theorem Module.freshCodes_life (p : Nat → Bool) : (m.freshCodes p).life = m.life := rfl
@[simp] theorem Module.freshCodes_svc (p : Nat → Bool) : (m.freshCodes p).svc = m.svc := rfl
@[simp] theorem Module.freshCodes_platDigests (p : Nat → Bool) : (m.freshCodes p).platDigests = m.platDigests := rfl
@[simp] theorem Module.freshCodes_fns (p : Nat → Bool) : (m.freshCodes p).fns = m.fns := rfl
@[simp] theorem Module.freshCodes_arqs (p : Nat → Bool) : (m.freshCodes p).arqs = m.arqs := rfl
@[simp] theorem Module.freshCodes_dpqs (p : Nat → Bool) : (m.freshCodes p).dpqs = m.dpqs := rfl
@[simp] theorem Module.freshCodes_line (p : Nat → Bool) : (m.freshCodes p).line = m.line := rfl
@[simp] theorem Module.freshCodes_badParity (p : Nat → Bool) : (m.freshCodes p).badParity = m.badParity := rfl
@[simp] theorem Module.freshCodes_counters (p : Nat → Bool) : (m.freshCodes p).counters = m.counters := rfl
@[simp] theorem Module.freshCodes_incs (p : Nat → Bool) : (m.freshCodes p).incs = m.incs := rfl
@[simp] theorem Module.freshCodes_frz (p : Nat → Bool) : (m.freshCodes p).frz = m.frz := rfl
@[simp] theorem Module.freshCodes_frzBack (p : Nat → Bool) : (m.freshCodes p).frzBack = m.frzBack := rfl
@[simp] theorem Module.freshCodes_after (p : Nat → Bool) : (m.freshCodes p).after = m.after := rfl
@[simp] theorem Module.freshCodes_datum (p : Nat → Bool) : (m.freshCodes p).datum = m.datum := rfl
@[simp] theorem Module.freshCodes_now (p : Nat → Bool) : (m.freshCodes p).now = m.now := rfl
@[simp] theorem Module.freshCodes_freeCtr (p : Nat → Bool) : (m.freshCodes p).freeCtr = m.freeCtr := rfl
@[simp] theorem Module.freshCodes_outbox (p : Nat → Bool) : (m.freshCodes p).outbox = m.outbox := rfl

/-! ### `storeTag` -/

@[simp] theorem Module.storeTag_regs (k : Nat) (l : List Byte) (t : Nat → Bool) : (m.storeTag k l t).regs = m.regs := rfl
@[simp] theorem Module.storeTag_ueAt (k : Nat) (l : List Byte) (t : Nat → Bool) : (m.storeTag k l t).ueAt = m.ueAt := rfl
@[simp] theorem Module.storeTag_ckErr (k : Nat) (l : List Byte) (t : Nat → Bool) : (m.storeTag k l t).ckErr = m.ckErr := rfl
@[simp] theorem Module.storeTag_ckOff (k : Nat) (l : List Byte) (t : Nat → Bool) : (m.storeTag k l t).ckOff = m.ckOff := rfl
@[simp] theorem Module.storeTag_nearLost (k : Nat) (l : List Byte) (t : Nat → Bool) : (m.storeTag k l t).nearLost = m.nearLost := rfl
@[simp] theorem Module.storeTag_cores (k : Nat) (l : List Byte) (t : Nat → Bool) : (m.storeTag k l t).cores = m.cores := rfl
@[simp] theorem Module.storeTag_slices (k : Nat) (l : List Byte) (t : Nat → Bool) : (m.storeTag k l t).slices = m.slices := rfl
@[simp] theorem Module.storeTag_fars (k : Nat) (l : List Byte) (t : Nat → Bool) : (m.storeTag k l t).fars = m.fars := rfl
@[simp] theorem Module.storeTag_slow (k : Nat) (l : List Byte) (t : Nat → Bool) : (m.storeTag k l t).slow = m.slow := rfl
@[simp] theorem Module.storeTag_slowBack (k : Nat) (l : List Byte) (t : Nat → Bool) : (m.storeTag k l t).slowBack = m.slowBack := rfl
@[simp] theorem Module.storeTag_clkHeld (k : Nat) (l : List Byte) (t : Nat → Bool) : (m.storeTag k l t).clkHeld = m.clkHeld := rfl
@[simp] theorem Module.storeTag_ran (k : Nat) (l : List Byte) (t : Nat → Bool) : (m.storeTag k l t).ran = m.ran := rfl
@[simp] theorem Module.storeTag_tried (k : Nat) (l : List Byte) (t : Nat → Bool) : (m.storeTag k l t).tried = m.tried := rfl
@[simp] theorem Module.storeTag_compOut (k : Nat) (l : List Byte) (t : Nat → Bool) : (m.storeTag k l t).compOut = m.compOut := rfl
@[simp] theorem Module.storeTag_compEng (k : Nat) (l : List Byte) (t : Nat → Bool) : (m.storeTag k l t).compEng = m.compEng := rfl
@[simp] theorem Module.storeTag_compTag (k : Nat) (l : List Byte) (t : Nat → Bool) : (m.storeTag k l t).compTag = m.compTag := rfl
@[simp] theorem Module.storeTag_tx (k : Nat) (l : List Byte) (t : Nat → Bool) : (m.storeTag k l t).tx = m.tx := rfl
@[simp] theorem Module.storeTag_txNext (k : Nat) (l : List Byte) (t : Nat → Bool) : (m.storeTag k l t).txNext = m.txNext := rfl
@[simp] theorem Module.storeTag_parked (k : Nat) (l : List Byte) (t : Nat → Bool) : (m.storeTag k l t).parked = m.parked := rfl
@[simp] theorem Module.storeTag_scrubs (k : Nat) (l : List Byte) (t : Nat → Bool) : (m.storeTag k l t).scrubs = m.scrubs := rfl
@[simp] theorem Module.storeTag_repairs (k : Nat) (l : List Byte) (t : Nat → Bool) : (m.storeTag k l t).repairs = m.repairs := rfl
@[simp] theorem Module.storeTag_net (k : Nat) (l : List Byte) (t : Nat → Bool) : (m.storeTag k l t).net = m.net := rfl
@[simp] theorem Module.storeTag_flits (k : Nat) (l : List Byte) (t : Nat → Bool) : (m.storeTag k l t).flits = m.flits := rfl
@[simp] theorem Module.storeTag_ctl (k : Nat) (l : List Byte) (t : Nat → Bool) : (m.storeTag k l t).ctl = m.ctl := rfl
@[simp] theorem Module.storeTag_qos (k : Nat) (l : List Byte) (t : Nat → Bool) : (m.storeTag k l t).qos = m.qos := rfl
@[simp] theorem Module.storeTag_plat (k : Nat) (l : List Byte) (t : Nat → Bool) : (m.storeTag k l t).plat = m.plat := rfl
@[simp] theorem Module.storeTag_platLoaded (k : Nat) (l : List Byte) (t : Nat → Bool) : (m.storeTag k l t).platLoaded = m.platLoaded := rfl
@[simp] theorem Module.storeTag_load (k : Nat) (l : List Byte) (t : Nat → Bool) : (m.storeTag k l t).load = m.load := rfl
@[simp] theorem Module.storeTag_codes (k : Nat) (l : List Byte) (t : Nat → Bool) : (m.storeTag k l t).codes = m.codes := rfl
@[simp] theorem Module.storeTag_resetting (k : Nat) (l : List Byte) (t : Nat → Bool) : (m.storeTag k l t).resetting = m.resetting := rfl
@[simp] theorem Module.storeTag_obs (k : Nat) (l : List Byte) (t : Nat → Bool) : (m.storeTag k l t).obs = m.obs := rfl
@[simp] theorem Module.storeTag_links (k : Nat) (l : List Byte) (t : Nat → Bool) : (m.storeTag k l t).links = m.links := rfl
@[simp] theorem Module.storeTag_ports (k : Nat) (l : List Byte) (t : Nat → Bool) : (m.storeTag k l t).ports = m.ports := rfl
@[simp] theorem Module.storeTag_transit (k : Nat) (l : List Byte) (t : Nat → Bool) : (m.storeTag k l t).transit = m.transit := rfl
@[simp] theorem Module.storeTag_fabOut (k : Nat) (l : List Byte) (t : Nat → Bool) : (m.storeTag k l t).fabOut = m.fabOut := rfl
@[simp] theorem Module.storeTag_fabTag (k : Nat) (l : List Byte) (t : Nat → Bool) : (m.storeTag k l t).fabTag = m.fabTag := rfl
@[simp] theorem Module.storeTag_dat (k : Nat) (l : List Byte) (t : Nat → Bool) : (m.storeTag k l t).dat = m.dat := rfl
@[simp] theorem Module.storeTag_surveyOk (k : Nat) (l : List Byte) (t : Nat → Bool) : (m.storeTag k l t).surveyOk = m.surveyOk := rfl
@[simp] theorem Module.storeTag_met (k : Nat) (l : List Byte) (t : Nat → Bool) : (m.storeTag k l t).met = m.met := rfl
@[simp] theorem Module.storeTag_metBuilt (k : Nat) (l : List Byte) (t : Nat → Bool) : (m.storeTag k l t).metBuilt = m.metBuilt := rfl
@[simp] theorem Module.storeTag_fwOk (k : Nat) (l : List Byte) (t : Nat → Bool) : (m.storeTag k l t).fwOk = m.fwOk := rfl
@[simp] theorem Module.storeTag_lockLost (k : Nat) (l : List Byte) (t : Nat → Bool) : (m.storeTag k l t).lockLost = m.lockLost := rfl
@[simp] theorem Module.storeTag_lanes (k : Nat) (l : List Byte) (t : Nat → Bool) : (m.storeTag k l t).lanes = m.lanes := rfl
@[simp] theorem Module.storeTag_d2dTest (k : Nat) (l : List Byte) (t : Nat → Bool) : (m.storeTag k l t).d2dTest = m.d2dTest := rfl
@[simp] theorem Module.storeTag_tapIr (k : Nat) (l : List Byte) (t : Nat → Bool) : (m.storeTag k l t).tapIr = m.tapIr := rfl
@[simp] theorem Module.storeTag_tapDr (k : Nat) (l : List Byte) (t : Nat → Bool) : (m.storeTag k l t).tapDr = m.tapDr := rfl
@[simp] theorem Module.storeTag_fuses (k : Nat) (l : List Byte) (t : Nat → Bool) : (m.storeTag k l t).fuses = m.fuses := rfl
@[simp] theorem Module.storeTag_flp (k : Nat) (l : List Byte) (t : Nat → Bool) : (m.storeTag k l t).flp = m.flp := rfl
@[simp] theorem Module.storeTag_ledger (k : Nat) (l : List Byte) (t : Nat → Bool) : (m.storeTag k l t).ledger = m.ledger := rfl
@[simp] theorem Module.storeTag_spares (k : Nat) (l : List Byte) (t : Nat → Bool) : (m.storeTag k l t).spares = m.spares := rfl
@[simp] theorem Module.storeTag_sparesTemp (k : Nat) (l : List Byte) (t : Nat → Bool) : (m.storeTag k l t).sparesTemp = m.sparesTemp := rfl
@[simp] theorem Module.storeTag_bringAt (k : Nat) (l : List Byte) (t : Nat → Bool) : (m.storeTag k l t).bringAt = m.bringAt := rfl
@[simp] theorem Module.storeTag_rst (k : Nat) (l : List Byte) (t : Nat → Bool) : (m.storeTag k l t).rst = m.rst := rfl
@[simp] theorem Module.storeTag_passed (k : Nat) (l : List Byte) (t : Nat → Bool) : (m.storeTag k l t).passed = m.passed := rfl
@[simp] theorem Module.storeTag_boot (k : Nat) (l : List Byte) (t : Nat → Bool) : (m.storeTag k l t).boot = m.boot := rfl
@[simp] theorem Module.storeTag_ret (k : Nat) (l : List Byte) (t : Nat → Bool) : (m.storeTag k l t).ret = m.ret := rfl
@[simp] theorem Module.storeTag_hsk (k : Nat) (l : List Byte) (t : Nat → Bool) : (m.storeTag k l t).hsk = m.hsk := rfl
@[simp] theorem Module.storeTag_nor (k : Nat) (l : List Byte) (t : Nat → Bool) : (m.storeTag k l t).nor = m.nor := rfl
@[simp] theorem Module.storeTag_jr (k : Nat) (l : List Byte) (t : Nat → Bool) : (m.storeTag k l t).jr = m.jr := rfl
@[simp] theorem Module.storeTag_life (k : Nat) (l : List Byte) (t : Nat → Bool) : (m.storeTag k l t).life = m.life := rfl
@[simp] theorem Module.storeTag_svc (k : Nat) (l : List Byte) (t : Nat → Bool) : (m.storeTag k l t).svc = m.svc := rfl
@[simp] theorem Module.storeTag_platDigests (k : Nat) (l : List Byte) (t : Nat → Bool) : (m.storeTag k l t).platDigests = m.platDigests := rfl
@[simp] theorem Module.storeTag_fns (k : Nat) (l : List Byte) (t : Nat → Bool) : (m.storeTag k l t).fns = m.fns := rfl
@[simp] theorem Module.storeTag_arqs (k : Nat) (l : List Byte) (t : Nat → Bool) : (m.storeTag k l t).arqs = m.arqs := rfl
@[simp] theorem Module.storeTag_dpqs (k : Nat) (l : List Byte) (t : Nat → Bool) : (m.storeTag k l t).dpqs = m.dpqs := rfl
@[simp] theorem Module.storeTag_line (k : Nat) (l : List Byte) (t : Nat → Bool) : (m.storeTag k l t).line = m.line := rfl
@[simp] theorem Module.storeTag_badParity (k : Nat) (l : List Byte) (t : Nat → Bool) : (m.storeTag k l t).badParity = m.badParity := rfl
@[simp] theorem Module.storeTag_counters (k : Nat) (l : List Byte) (t : Nat → Bool) : (m.storeTag k l t).counters = m.counters := rfl
@[simp] theorem Module.storeTag_incs (k : Nat) (l : List Byte) (t : Nat → Bool) : (m.storeTag k l t).incs = m.incs := rfl
@[simp] theorem Module.storeTag_frz (k : Nat) (l : List Byte) (t : Nat → Bool) : (m.storeTag k l t).frz = m.frz := rfl
@[simp] theorem Module.storeTag_frzBack (k : Nat) (l : List Byte) (t : Nat → Bool) : (m.storeTag k l t).frzBack = m.frzBack := rfl
@[simp] theorem Module.storeTag_after (k : Nat) (l : List Byte) (t : Nat → Bool) : (m.storeTag k l t).after = m.after := rfl
@[simp] theorem Module.storeTag_datum (k : Nat) (l : List Byte) (t : Nat → Bool) : (m.storeTag k l t).datum = m.datum := rfl
@[simp] theorem Module.storeTag_now (k : Nat) (l : List Byte) (t : Nat → Bool) : (m.storeTag k l t).now = m.now := rfl
@[simp] theorem Module.storeTag_freeCtr (k : Nat) (l : List Byte) (t : Nat → Bool) : (m.storeTag k l t).freeCtr = m.freeCtr := rfl
@[simp] theorem Module.storeTag_outbox (k : Nat) (l : List Byte) (t : Nat → Bool) : (m.storeTag k l t).outbox = m.outbox := rfl

/-! ### `put` -/

@[simp] theorem Module.put_regs (k : Nat) (l : List Byte) : (m.put k l).regs = m.regs := rfl
@[simp] theorem Module.put_ueAt (k : Nat) (l : List Byte) : (m.put k l).ueAt = m.ueAt := rfl
@[simp] theorem Module.put_ckErr (k : Nat) (l : List Byte) : (m.put k l).ckErr = m.ckErr := rfl
@[simp] theorem Module.put_ckOff (k : Nat) (l : List Byte) : (m.put k l).ckOff = m.ckOff := rfl
@[simp] theorem Module.put_nearLost (k : Nat) (l : List Byte) : (m.put k l).nearLost = m.nearLost := rfl
@[simp] theorem Module.put_cores (k : Nat) (l : List Byte) : (m.put k l).cores = m.cores := rfl
@[simp] theorem Module.put_slices (k : Nat) (l : List Byte) : (m.put k l).slices = m.slices := rfl
@[simp] theorem Module.put_fars (k : Nat) (l : List Byte) : (m.put k l).fars = m.fars := rfl
@[simp] theorem Module.put_slow (k : Nat) (l : List Byte) : (m.put k l).slow = m.slow := rfl
@[simp] theorem Module.put_slowBack (k : Nat) (l : List Byte) : (m.put k l).slowBack = m.slowBack := rfl
@[simp] theorem Module.put_clkHeld (k : Nat) (l : List Byte) : (m.put k l).clkHeld = m.clkHeld := rfl
@[simp] theorem Module.put_ran (k : Nat) (l : List Byte) : (m.put k l).ran = m.ran := rfl
@[simp] theorem Module.put_tried (k : Nat) (l : List Byte) : (m.put k l).tried = m.tried := rfl
@[simp] theorem Module.put_compOut (k : Nat) (l : List Byte) : (m.put k l).compOut = m.compOut := rfl
@[simp] theorem Module.put_compEng (k : Nat) (l : List Byte) : (m.put k l).compEng = m.compEng := rfl
@[simp] theorem Module.put_compTag (k : Nat) (l : List Byte) : (m.put k l).compTag = m.compTag := rfl
@[simp] theorem Module.put_tx (k : Nat) (l : List Byte) : (m.put k l).tx = m.tx := rfl
@[simp] theorem Module.put_txNext (k : Nat) (l : List Byte) : (m.put k l).txNext = m.txNext := rfl
@[simp] theorem Module.put_parked (k : Nat) (l : List Byte) : (m.put k l).parked = m.parked := rfl
@[simp] theorem Module.put_scrubs (k : Nat) (l : List Byte) : (m.put k l).scrubs = m.scrubs := rfl
@[simp] theorem Module.put_repairs (k : Nat) (l : List Byte) : (m.put k l).repairs = m.repairs := rfl
@[simp] theorem Module.put_net (k : Nat) (l : List Byte) : (m.put k l).net = m.net := rfl
@[simp] theorem Module.put_flits (k : Nat) (l : List Byte) : (m.put k l).flits = m.flits := rfl
@[simp] theorem Module.put_ctl (k : Nat) (l : List Byte) : (m.put k l).ctl = m.ctl := rfl
@[simp] theorem Module.put_qos (k : Nat) (l : List Byte) : (m.put k l).qos = m.qos := rfl
@[simp] theorem Module.put_plat (k : Nat) (l : List Byte) : (m.put k l).plat = m.plat := rfl
@[simp] theorem Module.put_platLoaded (k : Nat) (l : List Byte) : (m.put k l).platLoaded = m.platLoaded := rfl
@[simp] theorem Module.put_load (k : Nat) (l : List Byte) : (m.put k l).load = m.load := rfl
@[simp] theorem Module.put_codes (k : Nat) (l : List Byte) : (m.put k l).codes = m.codes := rfl
@[simp] theorem Module.put_resetting (k : Nat) (l : List Byte) : (m.put k l).resetting = m.resetting := rfl
@[simp] theorem Module.put_obs (k : Nat) (l : List Byte) : (m.put k l).obs = m.obs := rfl
@[simp] theorem Module.put_links (k : Nat) (l : List Byte) : (m.put k l).links = m.links := rfl
@[simp] theorem Module.put_ports (k : Nat) (l : List Byte) : (m.put k l).ports = m.ports := rfl
@[simp] theorem Module.put_transit (k : Nat) (l : List Byte) : (m.put k l).transit = m.transit := rfl
@[simp] theorem Module.put_fabOut (k : Nat) (l : List Byte) : (m.put k l).fabOut = m.fabOut := rfl
@[simp] theorem Module.put_fabTag (k : Nat) (l : List Byte) : (m.put k l).fabTag = m.fabTag := rfl
@[simp] theorem Module.put_dat (k : Nat) (l : List Byte) : (m.put k l).dat = m.dat := rfl
@[simp] theorem Module.put_surveyOk (k : Nat) (l : List Byte) : (m.put k l).surveyOk = m.surveyOk := rfl
@[simp] theorem Module.put_met (k : Nat) (l : List Byte) : (m.put k l).met = m.met := rfl
@[simp] theorem Module.put_metBuilt (k : Nat) (l : List Byte) : (m.put k l).metBuilt = m.metBuilt := rfl
@[simp] theorem Module.put_fwOk (k : Nat) (l : List Byte) : (m.put k l).fwOk = m.fwOk := rfl
@[simp] theorem Module.put_lockLost (k : Nat) (l : List Byte) : (m.put k l).lockLost = m.lockLost := rfl
@[simp] theorem Module.put_lanes (k : Nat) (l : List Byte) : (m.put k l).lanes = m.lanes := rfl
@[simp] theorem Module.put_d2dTest (k : Nat) (l : List Byte) : (m.put k l).d2dTest = m.d2dTest := rfl
@[simp] theorem Module.put_tapIr (k : Nat) (l : List Byte) : (m.put k l).tapIr = m.tapIr := rfl
@[simp] theorem Module.put_tapDr (k : Nat) (l : List Byte) : (m.put k l).tapDr = m.tapDr := rfl
@[simp] theorem Module.put_fuses (k : Nat) (l : List Byte) : (m.put k l).fuses = m.fuses := rfl
@[simp] theorem Module.put_flp (k : Nat) (l : List Byte) : (m.put k l).flp = m.flp := rfl
@[simp] theorem Module.put_ledger (k : Nat) (l : List Byte) : (m.put k l).ledger = m.ledger := rfl
@[simp] theorem Module.put_spares (k : Nat) (l : List Byte) : (m.put k l).spares = m.spares := rfl
@[simp] theorem Module.put_sparesTemp (k : Nat) (l : List Byte) : (m.put k l).sparesTemp = m.sparesTemp := rfl
@[simp] theorem Module.put_bringAt (k : Nat) (l : List Byte) : (m.put k l).bringAt = m.bringAt := rfl
@[simp] theorem Module.put_rst (k : Nat) (l : List Byte) : (m.put k l).rst = m.rst := rfl
@[simp] theorem Module.put_passed (k : Nat) (l : List Byte) : (m.put k l).passed = m.passed := rfl
@[simp] theorem Module.put_boot (k : Nat) (l : List Byte) : (m.put k l).boot = m.boot := rfl
@[simp] theorem Module.put_ret (k : Nat) (l : List Byte) : (m.put k l).ret = m.ret := rfl
@[simp] theorem Module.put_hsk (k : Nat) (l : List Byte) : (m.put k l).hsk = m.hsk := rfl
@[simp] theorem Module.put_nor (k : Nat) (l : List Byte) : (m.put k l).nor = m.nor := rfl
@[simp] theorem Module.put_jr (k : Nat) (l : List Byte) : (m.put k l).jr = m.jr := rfl
@[simp] theorem Module.put_life (k : Nat) (l : List Byte) : (m.put k l).life = m.life := rfl
@[simp] theorem Module.put_svc (k : Nat) (l : List Byte) : (m.put k l).svc = m.svc := rfl
@[simp] theorem Module.put_platDigests (k : Nat) (l : List Byte) : (m.put k l).platDigests = m.platDigests := rfl
@[simp] theorem Module.put_fns (k : Nat) (l : List Byte) : (m.put k l).fns = m.fns := rfl
@[simp] theorem Module.put_arqs (k : Nat) (l : List Byte) : (m.put k l).arqs = m.arqs := rfl
@[simp] theorem Module.put_dpqs (k : Nat) (l : List Byte) : (m.put k l).dpqs = m.dpqs := rfl
@[simp] theorem Module.put_line (k : Nat) (l : List Byte) : (m.put k l).line = m.line := rfl
@[simp] theorem Module.put_badParity (k : Nat) (l : List Byte) : (m.put k l).badParity = m.badParity := rfl
@[simp] theorem Module.put_counters (k : Nat) (l : List Byte) : (m.put k l).counters = m.counters := rfl
@[simp] theorem Module.put_incs (k : Nat) (l : List Byte) : (m.put k l).incs = m.incs := rfl
@[simp] theorem Module.put_frz (k : Nat) (l : List Byte) : (m.put k l).frz = m.frz := rfl
@[simp] theorem Module.put_frzBack (k : Nat) (l : List Byte) : (m.put k l).frzBack = m.frzBack := rfl
@[simp] theorem Module.put_after (k : Nat) (l : List Byte) : (m.put k l).after = m.after := rfl
@[simp] theorem Module.put_datum (k : Nat) (l : List Byte) : (m.put k l).datum = m.datum := rfl
@[simp] theorem Module.put_now (k : Nat) (l : List Byte) : (m.put k l).now = m.now := rfl
@[simp] theorem Module.put_freeCtr (k : Nat) (l : List Byte) : (m.put k l).freeCtr = m.freeCtr := rfl
@[simp] theorem Module.put_outbox (k : Nat) (l : List Byte) : (m.put k l).outbox = m.outbox := rfl

/-! ### `wr` -/

@[simp] theorem Module.wr_mem (f : RegField) (u v i : Nat) : (m.wr f u v i).mem = m.mem := rfl
@[simp] theorem Module.wr_poison (f : RegField) (u v i : Nat) : (m.wr f u v i).poison = m.poison := rfl
@[simp] theorem Module.wr_scrErr (f : RegField) (u v i : Nat) : (m.wr f u v i).scrErr = m.scrErr := rfl
@[simp] theorem Module.wr_ueAt (f : RegField) (u v i : Nat) : (m.wr f u v i).ueAt = m.ueAt := rfl
@[simp] theorem Module.wr_wordErr (f : RegField) (u v i : Nat) : (m.wr f u v i).wordErr = m.wordErr := rfl
@[simp] theorem Module.wr_ckErr (f : RegField) (u v i : Nat) : (m.wr f u v i).ckErr = m.ckErr := rfl
@[simp] theorem Module.wr_ckOff (f : RegField) (u v i : Nat) : (m.wr f u v i).ckOff = m.ckOff := rfl
@[simp] theorem Module.wr_nearLost (f : RegField) (u v i : Nat) : (m.wr f u v i).nearLost = m.nearLost := rfl
@[simp] theorem Module.wr_cores (f : RegField) (u v i : Nat) : (m.wr f u v i).cores = m.cores := rfl
@[simp] theorem Module.wr_slices (f : RegField) (u v i : Nat) : (m.wr f u v i).slices = m.slices := rfl
@[simp] theorem Module.wr_fars (f : RegField) (u v i : Nat) : (m.wr f u v i).fars = m.fars := rfl
@[simp] theorem Module.wr_slow (f : RegField) (u v i : Nat) : (m.wr f u v i).slow = m.slow := rfl
@[simp] theorem Module.wr_slowBack (f : RegField) (u v i : Nat) : (m.wr f u v i).slowBack = m.slowBack := rfl
@[simp] theorem Module.wr_clkHeld (f : RegField) (u v i : Nat) : (m.wr f u v i).clkHeld = m.clkHeld := rfl
@[simp] theorem Module.wr_ran (f : RegField) (u v i : Nat) : (m.wr f u v i).ran = m.ran := rfl
@[simp] theorem Module.wr_tried (f : RegField) (u v i : Nat) : (m.wr f u v i).tried = m.tried := rfl
@[simp] theorem Module.wr_compOut (f : RegField) (u v i : Nat) : (m.wr f u v i).compOut = m.compOut := rfl
@[simp] theorem Module.wr_compEng (f : RegField) (u v i : Nat) : (m.wr f u v i).compEng = m.compEng := rfl
@[simp] theorem Module.wr_compTag (f : RegField) (u v i : Nat) : (m.wr f u v i).compTag = m.compTag := rfl
@[simp] theorem Module.wr_tx (f : RegField) (u v i : Nat) : (m.wr f u v i).tx = m.tx := rfl
@[simp] theorem Module.wr_txNext (f : RegField) (u v i : Nat) : (m.wr f u v i).txNext = m.txNext := rfl
@[simp] theorem Module.wr_parked (f : RegField) (u v i : Nat) : (m.wr f u v i).parked = m.parked := rfl
@[simp] theorem Module.wr_scrubs (f : RegField) (u v i : Nat) : (m.wr f u v i).scrubs = m.scrubs := rfl
@[simp] theorem Module.wr_repairs (f : RegField) (u v i : Nat) : (m.wr f u v i).repairs = m.repairs := rfl
@[simp] theorem Module.wr_net (f : RegField) (u v i : Nat) : (m.wr f u v i).net = m.net := rfl
@[simp] theorem Module.wr_flits (f : RegField) (u v i : Nat) : (m.wr f u v i).flits = m.flits := rfl
@[simp] theorem Module.wr_ctl (f : RegField) (u v i : Nat) : (m.wr f u v i).ctl = m.ctl := rfl
@[simp] theorem Module.wr_qos (f : RegField) (u v i : Nat) : (m.wr f u v i).qos = m.qos := rfl
@[simp] theorem Module.wr_plat (f : RegField) (u v i : Nat) : (m.wr f u v i).plat = m.plat := rfl
@[simp] theorem Module.wr_platLoaded (f : RegField) (u v i : Nat) : (m.wr f u v i).platLoaded = m.platLoaded := rfl
@[simp] theorem Module.wr_load (f : RegField) (u v i : Nat) : (m.wr f u v i).load = m.load := rfl
@[simp] theorem Module.wr_codes (f : RegField) (u v i : Nat) : (m.wr f u v i).codes = m.codes := rfl
@[simp] theorem Module.wr_resetting (f : RegField) (u v i : Nat) : (m.wr f u v i).resetting = m.resetting := rfl
@[simp] theorem Module.wr_obs (f : RegField) (u v i : Nat) : (m.wr f u v i).obs = m.obs := rfl
@[simp] theorem Module.wr_links (f : RegField) (u v i : Nat) : (m.wr f u v i).links = m.links := rfl
@[simp] theorem Module.wr_ports (f : RegField) (u v i : Nat) : (m.wr f u v i).ports = m.ports := rfl
@[simp] theorem Module.wr_transit (f : RegField) (u v i : Nat) : (m.wr f u v i).transit = m.transit := rfl
@[simp] theorem Module.wr_fabOut (f : RegField) (u v i : Nat) : (m.wr f u v i).fabOut = m.fabOut := rfl
@[simp] theorem Module.wr_fabTag (f : RegField) (u v i : Nat) : (m.wr f u v i).fabTag = m.fabTag := rfl
@[simp] theorem Module.wr_dat (f : RegField) (u v i : Nat) : (m.wr f u v i).dat = m.dat := rfl
@[simp] theorem Module.wr_surveyOk (f : RegField) (u v i : Nat) : (m.wr f u v i).surveyOk = m.surveyOk := rfl
@[simp] theorem Module.wr_met (f : RegField) (u v i : Nat) : (m.wr f u v i).met = m.met := rfl
@[simp] theorem Module.wr_metBuilt (f : RegField) (u v i : Nat) : (m.wr f u v i).metBuilt = m.metBuilt := rfl
@[simp] theorem Module.wr_fwOk (f : RegField) (u v i : Nat) : (m.wr f u v i).fwOk = m.fwOk := rfl
@[simp] theorem Module.wr_lockLost (f : RegField) (u v i : Nat) : (m.wr f u v i).lockLost = m.lockLost := rfl
@[simp] theorem Module.wr_lanes (f : RegField) (u v i : Nat) : (m.wr f u v i).lanes = m.lanes := rfl
@[simp] theorem Module.wr_d2dTest (f : RegField) (u v i : Nat) : (m.wr f u v i).d2dTest = m.d2dTest := rfl
@[simp] theorem Module.wr_tapIr (f : RegField) (u v i : Nat) : (m.wr f u v i).tapIr = m.tapIr := rfl
@[simp] theorem Module.wr_tapDr (f : RegField) (u v i : Nat) : (m.wr f u v i).tapDr = m.tapDr := rfl
@[simp] theorem Module.wr_fuses (f : RegField) (u v i : Nat) : (m.wr f u v i).fuses = m.fuses := rfl
@[simp] theorem Module.wr_flp (f : RegField) (u v i : Nat) : (m.wr f u v i).flp = m.flp := rfl
@[simp] theorem Module.wr_ledger (f : RegField) (u v i : Nat) : (m.wr f u v i).ledger = m.ledger := rfl
@[simp] theorem Module.wr_spares (f : RegField) (u v i : Nat) : (m.wr f u v i).spares = m.spares := rfl
@[simp] theorem Module.wr_sparesTemp (f : RegField) (u v i : Nat) : (m.wr f u v i).sparesTemp = m.sparesTemp := rfl
@[simp] theorem Module.wr_bringAt (f : RegField) (u v i : Nat) : (m.wr f u v i).bringAt = m.bringAt := rfl
@[simp] theorem Module.wr_rst (f : RegField) (u v i : Nat) : (m.wr f u v i).rst = m.rst := rfl
@[simp] theorem Module.wr_passed (f : RegField) (u v i : Nat) : (m.wr f u v i).passed = m.passed := rfl
@[simp] theorem Module.wr_boot (f : RegField) (u v i : Nat) : (m.wr f u v i).boot = m.boot := rfl
@[simp] theorem Module.wr_ret (f : RegField) (u v i : Nat) : (m.wr f u v i).ret = m.ret := rfl
@[simp] theorem Module.wr_hsk (f : RegField) (u v i : Nat) : (m.wr f u v i).hsk = m.hsk := rfl
@[simp] theorem Module.wr_nor (f : RegField) (u v i : Nat) : (m.wr f u v i).nor = m.nor := rfl
@[simp] theorem Module.wr_jr (f : RegField) (u v i : Nat) : (m.wr f u v i).jr = m.jr := rfl
@[simp] theorem Module.wr_life (f : RegField) (u v i : Nat) : (m.wr f u v i).life = m.life := rfl
@[simp] theorem Module.wr_svc (f : RegField) (u v i : Nat) : (m.wr f u v i).svc = m.svc := rfl
@[simp] theorem Module.wr_platDigests (f : RegField) (u v i : Nat) : (m.wr f u v i).platDigests = m.platDigests := rfl
@[simp] theorem Module.wr_fns (f : RegField) (u v i : Nat) : (m.wr f u v i).fns = m.fns := rfl
@[simp] theorem Module.wr_arqs (f : RegField) (u v i : Nat) : (m.wr f u v i).arqs = m.arqs := rfl
@[simp] theorem Module.wr_dpqs (f : RegField) (u v i : Nat) : (m.wr f u v i).dpqs = m.dpqs := rfl
@[simp] theorem Module.wr_line (f : RegField) (u v i : Nat) : (m.wr f u v i).line = m.line := rfl
@[simp] theorem Module.wr_badParity (f : RegField) (u v i : Nat) : (m.wr f u v i).badParity = m.badParity := rfl
@[simp] theorem Module.wr_counters (f : RegField) (u v i : Nat) : (m.wr f u v i).counters = m.counters := rfl
@[simp] theorem Module.wr_incs (f : RegField) (u v i : Nat) : (m.wr f u v i).incs = m.incs := rfl
@[simp] theorem Module.wr_frz (f : RegField) (u v i : Nat) : (m.wr f u v i).frz = m.frz := rfl
@[simp] theorem Module.wr_frzBack (f : RegField) (u v i : Nat) : (m.wr f u v i).frzBack = m.frzBack := rfl
@[simp] theorem Module.wr_after (f : RegField) (u v i : Nat) : (m.wr f u v i).after = m.after := rfl
@[simp] theorem Module.wr_datum (f : RegField) (u v i : Nat) : (m.wr f u v i).datum = m.datum := rfl
@[simp] theorem Module.wr_now (f : RegField) (u v i : Nat) : (m.wr f u v i).now = m.now := rfl
@[simp] theorem Module.wr_freeCtr (f : RegField) (u v i : Nat) : (m.wr f u v i).freeCtr = m.freeCtr := rfl
@[simp] theorem Module.wr_outbox (f : RegField) (u v i : Nat) : (m.wr f u v i).outbox = m.outbox := rfl

/-! ### `bumpBy` -/

@[simp] theorem Module.bumpBy_mem (f : RegField) (u n i : Nat) : (m.bumpBy f u n i).mem = m.mem := rfl
@[simp] theorem Module.bumpBy_poison (f : RegField) (u n i : Nat) : (m.bumpBy f u n i).poison = m.poison := rfl
@[simp] theorem Module.bumpBy_scrErr (f : RegField) (u n i : Nat) : (m.bumpBy f u n i).scrErr = m.scrErr := rfl
@[simp] theorem Module.bumpBy_ueAt (f : RegField) (u n i : Nat) : (m.bumpBy f u n i).ueAt = m.ueAt := rfl
@[simp] theorem Module.bumpBy_wordErr (f : RegField) (u n i : Nat) : (m.bumpBy f u n i).wordErr = m.wordErr := rfl
@[simp] theorem Module.bumpBy_ckErr (f : RegField) (u n i : Nat) : (m.bumpBy f u n i).ckErr = m.ckErr := rfl
@[simp] theorem Module.bumpBy_ckOff (f : RegField) (u n i : Nat) : (m.bumpBy f u n i).ckOff = m.ckOff := rfl
@[simp] theorem Module.bumpBy_nearLost (f : RegField) (u n i : Nat) : (m.bumpBy f u n i).nearLost = m.nearLost := rfl
@[simp] theorem Module.bumpBy_cores (f : RegField) (u n i : Nat) : (m.bumpBy f u n i).cores = m.cores := rfl
@[simp] theorem Module.bumpBy_slices (f : RegField) (u n i : Nat) : (m.bumpBy f u n i).slices = m.slices := rfl
@[simp] theorem Module.bumpBy_fars (f : RegField) (u n i : Nat) : (m.bumpBy f u n i).fars = m.fars := rfl
@[simp] theorem Module.bumpBy_slow (f : RegField) (u n i : Nat) : (m.bumpBy f u n i).slow = m.slow := rfl
@[simp] theorem Module.bumpBy_slowBack (f : RegField) (u n i : Nat) : (m.bumpBy f u n i).slowBack = m.slowBack := rfl
@[simp] theorem Module.bumpBy_clkHeld (f : RegField) (u n i : Nat) : (m.bumpBy f u n i).clkHeld = m.clkHeld := rfl
@[simp] theorem Module.bumpBy_ran (f : RegField) (u n i : Nat) : (m.bumpBy f u n i).ran = m.ran := rfl
@[simp] theorem Module.bumpBy_tried (f : RegField) (u n i : Nat) : (m.bumpBy f u n i).tried = m.tried := rfl
@[simp] theorem Module.bumpBy_compOut (f : RegField) (u n i : Nat) : (m.bumpBy f u n i).compOut = m.compOut := rfl
@[simp] theorem Module.bumpBy_compEng (f : RegField) (u n i : Nat) : (m.bumpBy f u n i).compEng = m.compEng := rfl
@[simp] theorem Module.bumpBy_compTag (f : RegField) (u n i : Nat) : (m.bumpBy f u n i).compTag = m.compTag := rfl
@[simp] theorem Module.bumpBy_tx (f : RegField) (u n i : Nat) : (m.bumpBy f u n i).tx = m.tx := rfl
@[simp] theorem Module.bumpBy_txNext (f : RegField) (u n i : Nat) : (m.bumpBy f u n i).txNext = m.txNext := rfl
@[simp] theorem Module.bumpBy_parked (f : RegField) (u n i : Nat) : (m.bumpBy f u n i).parked = m.parked := rfl
@[simp] theorem Module.bumpBy_scrubs (f : RegField) (u n i : Nat) : (m.bumpBy f u n i).scrubs = m.scrubs := rfl
@[simp] theorem Module.bumpBy_repairs (f : RegField) (u n i : Nat) : (m.bumpBy f u n i).repairs = m.repairs := rfl
@[simp] theorem Module.bumpBy_net (f : RegField) (u n i : Nat) : (m.bumpBy f u n i).net = m.net := rfl
@[simp] theorem Module.bumpBy_flits (f : RegField) (u n i : Nat) : (m.bumpBy f u n i).flits = m.flits := rfl
@[simp] theorem Module.bumpBy_ctl (f : RegField) (u n i : Nat) : (m.bumpBy f u n i).ctl = m.ctl := rfl
@[simp] theorem Module.bumpBy_qos (f : RegField) (u n i : Nat) : (m.bumpBy f u n i).qos = m.qos := rfl
@[simp] theorem Module.bumpBy_plat (f : RegField) (u n i : Nat) : (m.bumpBy f u n i).plat = m.plat := rfl
@[simp] theorem Module.bumpBy_platLoaded (f : RegField) (u n i : Nat) : (m.bumpBy f u n i).platLoaded = m.platLoaded := rfl
@[simp] theorem Module.bumpBy_load (f : RegField) (u n i : Nat) : (m.bumpBy f u n i).load = m.load := rfl
@[simp] theorem Module.bumpBy_codes (f : RegField) (u n i : Nat) : (m.bumpBy f u n i).codes = m.codes := rfl
@[simp] theorem Module.bumpBy_resetting (f : RegField) (u n i : Nat) : (m.bumpBy f u n i).resetting = m.resetting := rfl
@[simp] theorem Module.bumpBy_obs (f : RegField) (u n i : Nat) : (m.bumpBy f u n i).obs = m.obs := rfl
@[simp] theorem Module.bumpBy_links (f : RegField) (u n i : Nat) : (m.bumpBy f u n i).links = m.links := rfl
@[simp] theorem Module.bumpBy_ports (f : RegField) (u n i : Nat) : (m.bumpBy f u n i).ports = m.ports := rfl
@[simp] theorem Module.bumpBy_transit (f : RegField) (u n i : Nat) : (m.bumpBy f u n i).transit = m.transit := rfl
@[simp] theorem Module.bumpBy_fabOut (f : RegField) (u n i : Nat) : (m.bumpBy f u n i).fabOut = m.fabOut := rfl
@[simp] theorem Module.bumpBy_fabTag (f : RegField) (u n i : Nat) : (m.bumpBy f u n i).fabTag = m.fabTag := rfl
@[simp] theorem Module.bumpBy_dat (f : RegField) (u n i : Nat) : (m.bumpBy f u n i).dat = m.dat := rfl
@[simp] theorem Module.bumpBy_surveyOk (f : RegField) (u n i : Nat) : (m.bumpBy f u n i).surveyOk = m.surveyOk := rfl
@[simp] theorem Module.bumpBy_met (f : RegField) (u n i : Nat) : (m.bumpBy f u n i).met = m.met := rfl
@[simp] theorem Module.bumpBy_metBuilt (f : RegField) (u n i : Nat) : (m.bumpBy f u n i).metBuilt = m.metBuilt := rfl
@[simp] theorem Module.bumpBy_fwOk (f : RegField) (u n i : Nat) : (m.bumpBy f u n i).fwOk = m.fwOk := rfl
@[simp] theorem Module.bumpBy_lockLost (f : RegField) (u n i : Nat) : (m.bumpBy f u n i).lockLost = m.lockLost := rfl
@[simp] theorem Module.bumpBy_lanes (f : RegField) (u n i : Nat) : (m.bumpBy f u n i).lanes = m.lanes := rfl
@[simp] theorem Module.bumpBy_d2dTest (f : RegField) (u n i : Nat) : (m.bumpBy f u n i).d2dTest = m.d2dTest := rfl
@[simp] theorem Module.bumpBy_tapIr (f : RegField) (u n i : Nat) : (m.bumpBy f u n i).tapIr = m.tapIr := rfl
@[simp] theorem Module.bumpBy_tapDr (f : RegField) (u n i : Nat) : (m.bumpBy f u n i).tapDr = m.tapDr := rfl
@[simp] theorem Module.bumpBy_fuses (f : RegField) (u n i : Nat) : (m.bumpBy f u n i).fuses = m.fuses := rfl
@[simp] theorem Module.bumpBy_flp (f : RegField) (u n i : Nat) : (m.bumpBy f u n i).flp = m.flp := rfl
@[simp] theorem Module.bumpBy_ledger (f : RegField) (u n i : Nat) : (m.bumpBy f u n i).ledger = m.ledger := rfl
@[simp] theorem Module.bumpBy_spares (f : RegField) (u n i : Nat) : (m.bumpBy f u n i).spares = m.spares := rfl
@[simp] theorem Module.bumpBy_sparesTemp (f : RegField) (u n i : Nat) : (m.bumpBy f u n i).sparesTemp = m.sparesTemp := rfl
@[simp] theorem Module.bumpBy_bringAt (f : RegField) (u n i : Nat) : (m.bumpBy f u n i).bringAt = m.bringAt := rfl
@[simp] theorem Module.bumpBy_rst (f : RegField) (u n i : Nat) : (m.bumpBy f u n i).rst = m.rst := rfl
@[simp] theorem Module.bumpBy_passed (f : RegField) (u n i : Nat) : (m.bumpBy f u n i).passed = m.passed := rfl
@[simp] theorem Module.bumpBy_boot (f : RegField) (u n i : Nat) : (m.bumpBy f u n i).boot = m.boot := rfl
@[simp] theorem Module.bumpBy_ret (f : RegField) (u n i : Nat) : (m.bumpBy f u n i).ret = m.ret := rfl
@[simp] theorem Module.bumpBy_hsk (f : RegField) (u n i : Nat) : (m.bumpBy f u n i).hsk = m.hsk := rfl
@[simp] theorem Module.bumpBy_nor (f : RegField) (u n i : Nat) : (m.bumpBy f u n i).nor = m.nor := rfl
@[simp] theorem Module.bumpBy_jr (f : RegField) (u n i : Nat) : (m.bumpBy f u n i).jr = m.jr := rfl
@[simp] theorem Module.bumpBy_life (f : RegField) (u n i : Nat) : (m.bumpBy f u n i).life = m.life := rfl
@[simp] theorem Module.bumpBy_svc (f : RegField) (u n i : Nat) : (m.bumpBy f u n i).svc = m.svc := rfl
@[simp] theorem Module.bumpBy_platDigests (f : RegField) (u n i : Nat) : (m.bumpBy f u n i).platDigests = m.platDigests := rfl
@[simp] theorem Module.bumpBy_fns (f : RegField) (u n i : Nat) : (m.bumpBy f u n i).fns = m.fns := rfl
@[simp] theorem Module.bumpBy_arqs (f : RegField) (u n i : Nat) : (m.bumpBy f u n i).arqs = m.arqs := rfl
@[simp] theorem Module.bumpBy_dpqs (f : RegField) (u n i : Nat) : (m.bumpBy f u n i).dpqs = m.dpqs := rfl
@[simp] theorem Module.bumpBy_line (f : RegField) (u n i : Nat) : (m.bumpBy f u n i).line = m.line := rfl
@[simp] theorem Module.bumpBy_badParity (f : RegField) (u n i : Nat) : (m.bumpBy f u n i).badParity = m.badParity := rfl
@[simp] theorem Module.bumpBy_counters (f : RegField) (u n i : Nat) : (m.bumpBy f u n i).counters = m.counters := rfl
@[simp] theorem Module.bumpBy_incs (f : RegField) (u n i : Nat) : (m.bumpBy f u n i).incs = m.incs := rfl
@[simp] theorem Module.bumpBy_frz (f : RegField) (u n i : Nat) : (m.bumpBy f u n i).frz = m.frz := rfl
@[simp] theorem Module.bumpBy_frzBack (f : RegField) (u n i : Nat) : (m.bumpBy f u n i).frzBack = m.frzBack := rfl
@[simp] theorem Module.bumpBy_after (f : RegField) (u n i : Nat) : (m.bumpBy f u n i).after = m.after := rfl
@[simp] theorem Module.bumpBy_datum (f : RegField) (u n i : Nat) : (m.bumpBy f u n i).datum = m.datum := rfl
@[simp] theorem Module.bumpBy_now (f : RegField) (u n i : Nat) : (m.bumpBy f u n i).now = m.now := rfl
@[simp] theorem Module.bumpBy_freeCtr (f : RegField) (u n i : Nat) : (m.bumpBy f u n i).freeCtr = m.freeCtr := rfl
@[simp] theorem Module.bumpBy_outbox (f : RegField) (u n i : Nat) : (m.bumpBy f u n i).outbox = m.outbox := rfl

/-! ### `bump` -/

@[simp] theorem Module.bump_mem (f : RegField) (u i : Nat) : (m.bump f u i).mem = m.mem := rfl
@[simp] theorem Module.bump_poison (f : RegField) (u i : Nat) : (m.bump f u i).poison = m.poison := rfl
@[simp] theorem Module.bump_scrErr (f : RegField) (u i : Nat) : (m.bump f u i).scrErr = m.scrErr := rfl
@[simp] theorem Module.bump_ueAt (f : RegField) (u i : Nat) : (m.bump f u i).ueAt = m.ueAt := rfl
@[simp] theorem Module.bump_wordErr (f : RegField) (u i : Nat) : (m.bump f u i).wordErr = m.wordErr := rfl
@[simp] theorem Module.bump_ckErr (f : RegField) (u i : Nat) : (m.bump f u i).ckErr = m.ckErr := rfl
@[simp] theorem Module.bump_ckOff (f : RegField) (u i : Nat) : (m.bump f u i).ckOff = m.ckOff := rfl
@[simp] theorem Module.bump_nearLost (f : RegField) (u i : Nat) : (m.bump f u i).nearLost = m.nearLost := rfl
@[simp] theorem Module.bump_cores (f : RegField) (u i : Nat) : (m.bump f u i).cores = m.cores := rfl
@[simp] theorem Module.bump_slices (f : RegField) (u i : Nat) : (m.bump f u i).slices = m.slices := rfl
@[simp] theorem Module.bump_fars (f : RegField) (u i : Nat) : (m.bump f u i).fars = m.fars := rfl
@[simp] theorem Module.bump_slow (f : RegField) (u i : Nat) : (m.bump f u i).slow = m.slow := rfl
@[simp] theorem Module.bump_slowBack (f : RegField) (u i : Nat) : (m.bump f u i).slowBack = m.slowBack := rfl
@[simp] theorem Module.bump_clkHeld (f : RegField) (u i : Nat) : (m.bump f u i).clkHeld = m.clkHeld := rfl
@[simp] theorem Module.bump_ran (f : RegField) (u i : Nat) : (m.bump f u i).ran = m.ran := rfl
@[simp] theorem Module.bump_tried (f : RegField) (u i : Nat) : (m.bump f u i).tried = m.tried := rfl
@[simp] theorem Module.bump_compOut (f : RegField) (u i : Nat) : (m.bump f u i).compOut = m.compOut := rfl
@[simp] theorem Module.bump_compEng (f : RegField) (u i : Nat) : (m.bump f u i).compEng = m.compEng := rfl
@[simp] theorem Module.bump_compTag (f : RegField) (u i : Nat) : (m.bump f u i).compTag = m.compTag := rfl
@[simp] theorem Module.bump_tx (f : RegField) (u i : Nat) : (m.bump f u i).tx = m.tx := rfl
@[simp] theorem Module.bump_txNext (f : RegField) (u i : Nat) : (m.bump f u i).txNext = m.txNext := rfl
@[simp] theorem Module.bump_parked (f : RegField) (u i : Nat) : (m.bump f u i).parked = m.parked := rfl
@[simp] theorem Module.bump_scrubs (f : RegField) (u i : Nat) : (m.bump f u i).scrubs = m.scrubs := rfl
@[simp] theorem Module.bump_repairs (f : RegField) (u i : Nat) : (m.bump f u i).repairs = m.repairs := rfl
@[simp] theorem Module.bump_net (f : RegField) (u i : Nat) : (m.bump f u i).net = m.net := rfl
@[simp] theorem Module.bump_flits (f : RegField) (u i : Nat) : (m.bump f u i).flits = m.flits := rfl
@[simp] theorem Module.bump_ctl (f : RegField) (u i : Nat) : (m.bump f u i).ctl = m.ctl := rfl
@[simp] theorem Module.bump_qos (f : RegField) (u i : Nat) : (m.bump f u i).qos = m.qos := rfl
@[simp] theorem Module.bump_plat (f : RegField) (u i : Nat) : (m.bump f u i).plat = m.plat := rfl
@[simp] theorem Module.bump_platLoaded (f : RegField) (u i : Nat) : (m.bump f u i).platLoaded = m.platLoaded := rfl
@[simp] theorem Module.bump_load (f : RegField) (u i : Nat) : (m.bump f u i).load = m.load := rfl
@[simp] theorem Module.bump_codes (f : RegField) (u i : Nat) : (m.bump f u i).codes = m.codes := rfl
@[simp] theorem Module.bump_resetting (f : RegField) (u i : Nat) : (m.bump f u i).resetting = m.resetting := rfl
@[simp] theorem Module.bump_obs (f : RegField) (u i : Nat) : (m.bump f u i).obs = m.obs := rfl
@[simp] theorem Module.bump_links (f : RegField) (u i : Nat) : (m.bump f u i).links = m.links := rfl
@[simp] theorem Module.bump_ports (f : RegField) (u i : Nat) : (m.bump f u i).ports = m.ports := rfl
@[simp] theorem Module.bump_transit (f : RegField) (u i : Nat) : (m.bump f u i).transit = m.transit := rfl
@[simp] theorem Module.bump_fabOut (f : RegField) (u i : Nat) : (m.bump f u i).fabOut = m.fabOut := rfl
@[simp] theorem Module.bump_fabTag (f : RegField) (u i : Nat) : (m.bump f u i).fabTag = m.fabTag := rfl
@[simp] theorem Module.bump_dat (f : RegField) (u i : Nat) : (m.bump f u i).dat = m.dat := rfl
@[simp] theorem Module.bump_surveyOk (f : RegField) (u i : Nat) : (m.bump f u i).surveyOk = m.surveyOk := rfl
@[simp] theorem Module.bump_met (f : RegField) (u i : Nat) : (m.bump f u i).met = m.met := rfl
@[simp] theorem Module.bump_metBuilt (f : RegField) (u i : Nat) : (m.bump f u i).metBuilt = m.metBuilt := rfl
@[simp] theorem Module.bump_fwOk (f : RegField) (u i : Nat) : (m.bump f u i).fwOk = m.fwOk := rfl
@[simp] theorem Module.bump_lockLost (f : RegField) (u i : Nat) : (m.bump f u i).lockLost = m.lockLost := rfl
@[simp] theorem Module.bump_lanes (f : RegField) (u i : Nat) : (m.bump f u i).lanes = m.lanes := rfl
@[simp] theorem Module.bump_d2dTest (f : RegField) (u i : Nat) : (m.bump f u i).d2dTest = m.d2dTest := rfl
@[simp] theorem Module.bump_tapIr (f : RegField) (u i : Nat) : (m.bump f u i).tapIr = m.tapIr := rfl
@[simp] theorem Module.bump_tapDr (f : RegField) (u i : Nat) : (m.bump f u i).tapDr = m.tapDr := rfl
@[simp] theorem Module.bump_fuses (f : RegField) (u i : Nat) : (m.bump f u i).fuses = m.fuses := rfl
@[simp] theorem Module.bump_flp (f : RegField) (u i : Nat) : (m.bump f u i).flp = m.flp := rfl
@[simp] theorem Module.bump_ledger (f : RegField) (u i : Nat) : (m.bump f u i).ledger = m.ledger := rfl
@[simp] theorem Module.bump_spares (f : RegField) (u i : Nat) : (m.bump f u i).spares = m.spares := rfl
@[simp] theorem Module.bump_sparesTemp (f : RegField) (u i : Nat) : (m.bump f u i).sparesTemp = m.sparesTemp := rfl
@[simp] theorem Module.bump_bringAt (f : RegField) (u i : Nat) : (m.bump f u i).bringAt = m.bringAt := rfl
@[simp] theorem Module.bump_rst (f : RegField) (u i : Nat) : (m.bump f u i).rst = m.rst := rfl
@[simp] theorem Module.bump_passed (f : RegField) (u i : Nat) : (m.bump f u i).passed = m.passed := rfl
@[simp] theorem Module.bump_boot (f : RegField) (u i : Nat) : (m.bump f u i).boot = m.boot := rfl
@[simp] theorem Module.bump_ret (f : RegField) (u i : Nat) : (m.bump f u i).ret = m.ret := rfl
@[simp] theorem Module.bump_hsk (f : RegField) (u i : Nat) : (m.bump f u i).hsk = m.hsk := rfl
@[simp] theorem Module.bump_nor (f : RegField) (u i : Nat) : (m.bump f u i).nor = m.nor := rfl
@[simp] theorem Module.bump_jr (f : RegField) (u i : Nat) : (m.bump f u i).jr = m.jr := rfl
@[simp] theorem Module.bump_life (f : RegField) (u i : Nat) : (m.bump f u i).life = m.life := rfl
@[simp] theorem Module.bump_svc (f : RegField) (u i : Nat) : (m.bump f u i).svc = m.svc := rfl
@[simp] theorem Module.bump_platDigests (f : RegField) (u i : Nat) : (m.bump f u i).platDigests = m.platDigests := rfl
@[simp] theorem Module.bump_fns (f : RegField) (u i : Nat) : (m.bump f u i).fns = m.fns := rfl
@[simp] theorem Module.bump_arqs (f : RegField) (u i : Nat) : (m.bump f u i).arqs = m.arqs := rfl
@[simp] theorem Module.bump_dpqs (f : RegField) (u i : Nat) : (m.bump f u i).dpqs = m.dpqs := rfl
@[simp] theorem Module.bump_line (f : RegField) (u i : Nat) : (m.bump f u i).line = m.line := rfl
@[simp] theorem Module.bump_badParity (f : RegField) (u i : Nat) : (m.bump f u i).badParity = m.badParity := rfl
@[simp] theorem Module.bump_counters (f : RegField) (u i : Nat) : (m.bump f u i).counters = m.counters := rfl
@[simp] theorem Module.bump_incs (f : RegField) (u i : Nat) : (m.bump f u i).incs = m.incs := rfl
@[simp] theorem Module.bump_frz (f : RegField) (u i : Nat) : (m.bump f u i).frz = m.frz := rfl
@[simp] theorem Module.bump_frzBack (f : RegField) (u i : Nat) : (m.bump f u i).frzBack = m.frzBack := rfl
@[simp] theorem Module.bump_after (f : RegField) (u i : Nat) : (m.bump f u i).after = m.after := rfl
@[simp] theorem Module.bump_datum (f : RegField) (u i : Nat) : (m.bump f u i).datum = m.datum := rfl
@[simp] theorem Module.bump_now (f : RegField) (u i : Nat) : (m.bump f u i).now = m.now := rfl
@[simp] theorem Module.bump_freeCtr (f : RegField) (u i : Nat) : (m.bump f u i).freeCtr = m.freeCtr := rfl
@[simp] theorem Module.bump_outbox (f : RegField) (u i : Nat) : (m.bump f u i).outbox = m.outbox := rfl

/-! ### `orBits` -/

@[simp] theorem Module.orBits_mem (f : RegField) (u v i : Nat) : (m.orBits f u v i).mem = m.mem := rfl
@[simp] theorem Module.orBits_poison (f : RegField) (u v i : Nat) : (m.orBits f u v i).poison = m.poison := rfl
@[simp] theorem Module.orBits_scrErr (f : RegField) (u v i : Nat) : (m.orBits f u v i).scrErr = m.scrErr := rfl
@[simp] theorem Module.orBits_ueAt (f : RegField) (u v i : Nat) : (m.orBits f u v i).ueAt = m.ueAt := rfl
@[simp] theorem Module.orBits_wordErr (f : RegField) (u v i : Nat) : (m.orBits f u v i).wordErr = m.wordErr := rfl
@[simp] theorem Module.orBits_ckErr (f : RegField) (u v i : Nat) : (m.orBits f u v i).ckErr = m.ckErr := rfl
@[simp] theorem Module.orBits_ckOff (f : RegField) (u v i : Nat) : (m.orBits f u v i).ckOff = m.ckOff := rfl
@[simp] theorem Module.orBits_nearLost (f : RegField) (u v i : Nat) : (m.orBits f u v i).nearLost = m.nearLost := rfl
@[simp] theorem Module.orBits_cores (f : RegField) (u v i : Nat) : (m.orBits f u v i).cores = m.cores := rfl
@[simp] theorem Module.orBits_slices (f : RegField) (u v i : Nat) : (m.orBits f u v i).slices = m.slices := rfl
@[simp] theorem Module.orBits_fars (f : RegField) (u v i : Nat) : (m.orBits f u v i).fars = m.fars := rfl
@[simp] theorem Module.orBits_slow (f : RegField) (u v i : Nat) : (m.orBits f u v i).slow = m.slow := rfl
@[simp] theorem Module.orBits_slowBack (f : RegField) (u v i : Nat) : (m.orBits f u v i).slowBack = m.slowBack := rfl
@[simp] theorem Module.orBits_clkHeld (f : RegField) (u v i : Nat) : (m.orBits f u v i).clkHeld = m.clkHeld := rfl
@[simp] theorem Module.orBits_ran (f : RegField) (u v i : Nat) : (m.orBits f u v i).ran = m.ran := rfl
@[simp] theorem Module.orBits_tried (f : RegField) (u v i : Nat) : (m.orBits f u v i).tried = m.tried := rfl
@[simp] theorem Module.orBits_compOut (f : RegField) (u v i : Nat) : (m.orBits f u v i).compOut = m.compOut := rfl
@[simp] theorem Module.orBits_compEng (f : RegField) (u v i : Nat) : (m.orBits f u v i).compEng = m.compEng := rfl
@[simp] theorem Module.orBits_compTag (f : RegField) (u v i : Nat) : (m.orBits f u v i).compTag = m.compTag := rfl
@[simp] theorem Module.orBits_tx (f : RegField) (u v i : Nat) : (m.orBits f u v i).tx = m.tx := rfl
@[simp] theorem Module.orBits_txNext (f : RegField) (u v i : Nat) : (m.orBits f u v i).txNext = m.txNext := rfl
@[simp] theorem Module.orBits_parked (f : RegField) (u v i : Nat) : (m.orBits f u v i).parked = m.parked := rfl
@[simp] theorem Module.orBits_scrubs (f : RegField) (u v i : Nat) : (m.orBits f u v i).scrubs = m.scrubs := rfl
@[simp] theorem Module.orBits_repairs (f : RegField) (u v i : Nat) : (m.orBits f u v i).repairs = m.repairs := rfl
@[simp] theorem Module.orBits_net (f : RegField) (u v i : Nat) : (m.orBits f u v i).net = m.net := rfl
@[simp] theorem Module.orBits_flits (f : RegField) (u v i : Nat) : (m.orBits f u v i).flits = m.flits := rfl
@[simp] theorem Module.orBits_ctl (f : RegField) (u v i : Nat) : (m.orBits f u v i).ctl = m.ctl := rfl
@[simp] theorem Module.orBits_qos (f : RegField) (u v i : Nat) : (m.orBits f u v i).qos = m.qos := rfl
@[simp] theorem Module.orBits_plat (f : RegField) (u v i : Nat) : (m.orBits f u v i).plat = m.plat := rfl
@[simp] theorem Module.orBits_platLoaded (f : RegField) (u v i : Nat) : (m.orBits f u v i).platLoaded = m.platLoaded := rfl
@[simp] theorem Module.orBits_load (f : RegField) (u v i : Nat) : (m.orBits f u v i).load = m.load := rfl
@[simp] theorem Module.orBits_codes (f : RegField) (u v i : Nat) : (m.orBits f u v i).codes = m.codes := rfl
@[simp] theorem Module.orBits_resetting (f : RegField) (u v i : Nat) : (m.orBits f u v i).resetting = m.resetting := rfl
@[simp] theorem Module.orBits_obs (f : RegField) (u v i : Nat) : (m.orBits f u v i).obs = m.obs := rfl
@[simp] theorem Module.orBits_links (f : RegField) (u v i : Nat) : (m.orBits f u v i).links = m.links := rfl
@[simp] theorem Module.orBits_ports (f : RegField) (u v i : Nat) : (m.orBits f u v i).ports = m.ports := rfl
@[simp] theorem Module.orBits_transit (f : RegField) (u v i : Nat) : (m.orBits f u v i).transit = m.transit := rfl
@[simp] theorem Module.orBits_fabOut (f : RegField) (u v i : Nat) : (m.orBits f u v i).fabOut = m.fabOut := rfl
@[simp] theorem Module.orBits_fabTag (f : RegField) (u v i : Nat) : (m.orBits f u v i).fabTag = m.fabTag := rfl
@[simp] theorem Module.orBits_dat (f : RegField) (u v i : Nat) : (m.orBits f u v i).dat = m.dat := rfl
@[simp] theorem Module.orBits_surveyOk (f : RegField) (u v i : Nat) : (m.orBits f u v i).surveyOk = m.surveyOk := rfl
@[simp] theorem Module.orBits_met (f : RegField) (u v i : Nat) : (m.orBits f u v i).met = m.met := rfl
@[simp] theorem Module.orBits_metBuilt (f : RegField) (u v i : Nat) : (m.orBits f u v i).metBuilt = m.metBuilt := rfl
@[simp] theorem Module.orBits_fwOk (f : RegField) (u v i : Nat) : (m.orBits f u v i).fwOk = m.fwOk := rfl
@[simp] theorem Module.orBits_lockLost (f : RegField) (u v i : Nat) : (m.orBits f u v i).lockLost = m.lockLost := rfl
@[simp] theorem Module.orBits_lanes (f : RegField) (u v i : Nat) : (m.orBits f u v i).lanes = m.lanes := rfl
@[simp] theorem Module.orBits_d2dTest (f : RegField) (u v i : Nat) : (m.orBits f u v i).d2dTest = m.d2dTest := rfl
@[simp] theorem Module.orBits_tapIr (f : RegField) (u v i : Nat) : (m.orBits f u v i).tapIr = m.tapIr := rfl
@[simp] theorem Module.orBits_tapDr (f : RegField) (u v i : Nat) : (m.orBits f u v i).tapDr = m.tapDr := rfl
@[simp] theorem Module.orBits_fuses (f : RegField) (u v i : Nat) : (m.orBits f u v i).fuses = m.fuses := rfl
@[simp] theorem Module.orBits_flp (f : RegField) (u v i : Nat) : (m.orBits f u v i).flp = m.flp := rfl
@[simp] theorem Module.orBits_ledger (f : RegField) (u v i : Nat) : (m.orBits f u v i).ledger = m.ledger := rfl
@[simp] theorem Module.orBits_spares (f : RegField) (u v i : Nat) : (m.orBits f u v i).spares = m.spares := rfl
@[simp] theorem Module.orBits_sparesTemp (f : RegField) (u v i : Nat) : (m.orBits f u v i).sparesTemp = m.sparesTemp := rfl
@[simp] theorem Module.orBits_bringAt (f : RegField) (u v i : Nat) : (m.orBits f u v i).bringAt = m.bringAt := rfl
@[simp] theorem Module.orBits_rst (f : RegField) (u v i : Nat) : (m.orBits f u v i).rst = m.rst := rfl
@[simp] theorem Module.orBits_passed (f : RegField) (u v i : Nat) : (m.orBits f u v i).passed = m.passed := rfl
@[simp] theorem Module.orBits_boot (f : RegField) (u v i : Nat) : (m.orBits f u v i).boot = m.boot := rfl
@[simp] theorem Module.orBits_ret (f : RegField) (u v i : Nat) : (m.orBits f u v i).ret = m.ret := rfl
@[simp] theorem Module.orBits_hsk (f : RegField) (u v i : Nat) : (m.orBits f u v i).hsk = m.hsk := rfl
@[simp] theorem Module.orBits_nor (f : RegField) (u v i : Nat) : (m.orBits f u v i).nor = m.nor := rfl
@[simp] theorem Module.orBits_jr (f : RegField) (u v i : Nat) : (m.orBits f u v i).jr = m.jr := rfl
@[simp] theorem Module.orBits_life (f : RegField) (u v i : Nat) : (m.orBits f u v i).life = m.life := rfl
@[simp] theorem Module.orBits_svc (f : RegField) (u v i : Nat) : (m.orBits f u v i).svc = m.svc := rfl
@[simp] theorem Module.orBits_platDigests (f : RegField) (u v i : Nat) : (m.orBits f u v i).platDigests = m.platDigests := rfl
@[simp] theorem Module.orBits_fns (f : RegField) (u v i : Nat) : (m.orBits f u v i).fns = m.fns := rfl
@[simp] theorem Module.orBits_arqs (f : RegField) (u v i : Nat) : (m.orBits f u v i).arqs = m.arqs := rfl
@[simp] theorem Module.orBits_dpqs (f : RegField) (u v i : Nat) : (m.orBits f u v i).dpqs = m.dpqs := rfl
@[simp] theorem Module.orBits_line (f : RegField) (u v i : Nat) : (m.orBits f u v i).line = m.line := rfl
@[simp] theorem Module.orBits_badParity (f : RegField) (u v i : Nat) : (m.orBits f u v i).badParity = m.badParity := rfl
@[simp] theorem Module.orBits_counters (f : RegField) (u v i : Nat) : (m.orBits f u v i).counters = m.counters := rfl
@[simp] theorem Module.orBits_incs (f : RegField) (u v i : Nat) : (m.orBits f u v i).incs = m.incs := rfl
@[simp] theorem Module.orBits_frz (f : RegField) (u v i : Nat) : (m.orBits f u v i).frz = m.frz := rfl
@[simp] theorem Module.orBits_frzBack (f : RegField) (u v i : Nat) : (m.orBits f u v i).frzBack = m.frzBack := rfl
@[simp] theorem Module.orBits_after (f : RegField) (u v i : Nat) : (m.orBits f u v i).after = m.after := rfl
@[simp] theorem Module.orBits_datum (f : RegField) (u v i : Nat) : (m.orBits f u v i).datum = m.datum := rfl
@[simp] theorem Module.orBits_now (f : RegField) (u v i : Nat) : (m.orBits f u v i).now = m.now := rfl
@[simp] theorem Module.orBits_freeCtr (f : RegField) (u v i : Nat) : (m.orBits f u v i).freeCtr = m.freeCtr := rfl
@[simp] theorem Module.orBits_outbox (f : RegField) (u v i : Nat) : (m.orBits f u v i).outbox = m.outbox := rfl

/-! ### `noteUe` -/

@[simp] theorem Module.noteUe_mem (c n : Nat) : (m.noteUe c n).mem = m.mem := rfl
@[simp] theorem Module.noteUe_poison (c n : Nat) : (m.noteUe c n).poison = m.poison := rfl
@[simp] theorem Module.noteUe_scrErr (c n : Nat) : (m.noteUe c n).scrErr = m.scrErr := rfl
@[simp] theorem Module.noteUe_wordErr (c n : Nat) : (m.noteUe c n).wordErr = m.wordErr := rfl
@[simp] theorem Module.noteUe_ckErr (c n : Nat) : (m.noteUe c n).ckErr = m.ckErr := rfl
@[simp] theorem Module.noteUe_ckOff (c n : Nat) : (m.noteUe c n).ckOff = m.ckOff := rfl
@[simp] theorem Module.noteUe_nearLost (c n : Nat) : (m.noteUe c n).nearLost = m.nearLost := rfl
@[simp] theorem Module.noteUe_cores (c n : Nat) : (m.noteUe c n).cores = m.cores := rfl
@[simp] theorem Module.noteUe_slices (c n : Nat) : (m.noteUe c n).slices = m.slices := rfl
@[simp] theorem Module.noteUe_fars (c n : Nat) : (m.noteUe c n).fars = m.fars := rfl
@[simp] theorem Module.noteUe_slow (c n : Nat) : (m.noteUe c n).slow = m.slow := rfl
@[simp] theorem Module.noteUe_slowBack (c n : Nat) : (m.noteUe c n).slowBack = m.slowBack := rfl
@[simp] theorem Module.noteUe_clkHeld (c n : Nat) : (m.noteUe c n).clkHeld = m.clkHeld := rfl
@[simp] theorem Module.noteUe_ran (c n : Nat) : (m.noteUe c n).ran = m.ran := rfl
@[simp] theorem Module.noteUe_tried (c n : Nat) : (m.noteUe c n).tried = m.tried := rfl
@[simp] theorem Module.noteUe_compOut (c n : Nat) : (m.noteUe c n).compOut = m.compOut := rfl
@[simp] theorem Module.noteUe_compEng (c n : Nat) : (m.noteUe c n).compEng = m.compEng := rfl
@[simp] theorem Module.noteUe_compTag (c n : Nat) : (m.noteUe c n).compTag = m.compTag := rfl
@[simp] theorem Module.noteUe_tx (c n : Nat) : (m.noteUe c n).tx = m.tx := rfl
@[simp] theorem Module.noteUe_txNext (c n : Nat) : (m.noteUe c n).txNext = m.txNext := rfl
@[simp] theorem Module.noteUe_parked (c n : Nat) : (m.noteUe c n).parked = m.parked := rfl
@[simp] theorem Module.noteUe_scrubs (c n : Nat) : (m.noteUe c n).scrubs = m.scrubs := rfl
@[simp] theorem Module.noteUe_repairs (c n : Nat) : (m.noteUe c n).repairs = m.repairs := rfl
@[simp] theorem Module.noteUe_net (c n : Nat) : (m.noteUe c n).net = m.net := rfl
@[simp] theorem Module.noteUe_flits (c n : Nat) : (m.noteUe c n).flits = m.flits := rfl
@[simp] theorem Module.noteUe_ctl (c n : Nat) : (m.noteUe c n).ctl = m.ctl := rfl
@[simp] theorem Module.noteUe_qos (c n : Nat) : (m.noteUe c n).qos = m.qos := rfl
@[simp] theorem Module.noteUe_plat (c n : Nat) : (m.noteUe c n).plat = m.plat := rfl
@[simp] theorem Module.noteUe_platLoaded (c n : Nat) : (m.noteUe c n).platLoaded = m.platLoaded := rfl
@[simp] theorem Module.noteUe_load (c n : Nat) : (m.noteUe c n).load = m.load := rfl
@[simp] theorem Module.noteUe_codes (c n : Nat) : (m.noteUe c n).codes = m.codes := rfl
@[simp] theorem Module.noteUe_resetting (c n : Nat) : (m.noteUe c n).resetting = m.resetting := rfl
@[simp] theorem Module.noteUe_obs (c n : Nat) : (m.noteUe c n).obs = m.obs := rfl
@[simp] theorem Module.noteUe_links (c n : Nat) : (m.noteUe c n).links = m.links := rfl
@[simp] theorem Module.noteUe_ports (c n : Nat) : (m.noteUe c n).ports = m.ports := rfl
@[simp] theorem Module.noteUe_transit (c n : Nat) : (m.noteUe c n).transit = m.transit := rfl
@[simp] theorem Module.noteUe_fabOut (c n : Nat) : (m.noteUe c n).fabOut = m.fabOut := rfl
@[simp] theorem Module.noteUe_fabTag (c n : Nat) : (m.noteUe c n).fabTag = m.fabTag := rfl
@[simp] theorem Module.noteUe_dat (c n : Nat) : (m.noteUe c n).dat = m.dat := rfl
@[simp] theorem Module.noteUe_surveyOk (c n : Nat) : (m.noteUe c n).surveyOk = m.surveyOk := rfl
@[simp] theorem Module.noteUe_met (c n : Nat) : (m.noteUe c n).met = m.met := rfl
@[simp] theorem Module.noteUe_metBuilt (c n : Nat) : (m.noteUe c n).metBuilt = m.metBuilt := rfl
@[simp] theorem Module.noteUe_fwOk (c n : Nat) : (m.noteUe c n).fwOk = m.fwOk := rfl
@[simp] theorem Module.noteUe_lockLost (c n : Nat) : (m.noteUe c n).lockLost = m.lockLost := rfl
@[simp] theorem Module.noteUe_lanes (c n : Nat) : (m.noteUe c n).lanes = m.lanes := rfl
@[simp] theorem Module.noteUe_d2dTest (c n : Nat) : (m.noteUe c n).d2dTest = m.d2dTest := rfl
@[simp] theorem Module.noteUe_tapIr (c n : Nat) : (m.noteUe c n).tapIr = m.tapIr := rfl
@[simp] theorem Module.noteUe_tapDr (c n : Nat) : (m.noteUe c n).tapDr = m.tapDr := rfl
@[simp] theorem Module.noteUe_fuses (c n : Nat) : (m.noteUe c n).fuses = m.fuses := rfl
@[simp] theorem Module.noteUe_flp (c n : Nat) : (m.noteUe c n).flp = m.flp := rfl
@[simp] theorem Module.noteUe_ledger (c n : Nat) : (m.noteUe c n).ledger = m.ledger := rfl
@[simp] theorem Module.noteUe_spares (c n : Nat) : (m.noteUe c n).spares = m.spares := rfl
@[simp] theorem Module.noteUe_sparesTemp (c n : Nat) : (m.noteUe c n).sparesTemp = m.sparesTemp := rfl
@[simp] theorem Module.noteUe_bringAt (c n : Nat) : (m.noteUe c n).bringAt = m.bringAt := rfl
@[simp] theorem Module.noteUe_rst (c n : Nat) : (m.noteUe c n).rst = m.rst := rfl
@[simp] theorem Module.noteUe_passed (c n : Nat) : (m.noteUe c n).passed = m.passed := rfl
@[simp] theorem Module.noteUe_boot (c n : Nat) : (m.noteUe c n).boot = m.boot := rfl
@[simp] theorem Module.noteUe_ret (c n : Nat) : (m.noteUe c n).ret = m.ret := rfl
@[simp] theorem Module.noteUe_hsk (c n : Nat) : (m.noteUe c n).hsk = m.hsk := rfl
@[simp] theorem Module.noteUe_nor (c n : Nat) : (m.noteUe c n).nor = m.nor := rfl
@[simp] theorem Module.noteUe_jr (c n : Nat) : (m.noteUe c n).jr = m.jr := rfl
@[simp] theorem Module.noteUe_life (c n : Nat) : (m.noteUe c n).life = m.life := rfl
@[simp] theorem Module.noteUe_svc (c n : Nat) : (m.noteUe c n).svc = m.svc := rfl
@[simp] theorem Module.noteUe_platDigests (c n : Nat) : (m.noteUe c n).platDigests = m.platDigests := rfl
@[simp] theorem Module.noteUe_fns (c n : Nat) : (m.noteUe c n).fns = m.fns := rfl
@[simp] theorem Module.noteUe_arqs (c n : Nat) : (m.noteUe c n).arqs = m.arqs := rfl
@[simp] theorem Module.noteUe_dpqs (c n : Nat) : (m.noteUe c n).dpqs = m.dpqs := rfl
@[simp] theorem Module.noteUe_line (c n : Nat) : (m.noteUe c n).line = m.line := rfl
@[simp] theorem Module.noteUe_badParity (c n : Nat) : (m.noteUe c n).badParity = m.badParity := rfl
@[simp] theorem Module.noteUe_counters (c n : Nat) : (m.noteUe c n).counters = m.counters := rfl
@[simp] theorem Module.noteUe_incs (c n : Nat) : (m.noteUe c n).incs = m.incs := rfl
@[simp] theorem Module.noteUe_frz (c n : Nat) : (m.noteUe c n).frz = m.frz := rfl
@[simp] theorem Module.noteUe_frzBack (c n : Nat) : (m.noteUe c n).frzBack = m.frzBack := rfl
@[simp] theorem Module.noteUe_after (c n : Nat) : (m.noteUe c n).after = m.after := rfl
@[simp] theorem Module.noteUe_datum (c n : Nat) : (m.noteUe c n).datum = m.datum := rfl
@[simp] theorem Module.noteUe_now (c n : Nat) : (m.noteUe c n).now = m.now := rfl
@[simp] theorem Module.noteUe_freeCtr (c n : Nat) : (m.noteUe c n).freeCtr = m.freeCtr := rfl
@[simp] theorem Module.noteUe_outbox (c n : Nat) : (m.noteUe c n).outbox = m.outbox := rfl

/-! ### `tickEvc` -/

@[simp] theorem Module.tickEvc_mem (c e : Nat) : (m.tickEvc c e).mem = m.mem := rfl
@[simp] theorem Module.tickEvc_poison (c e : Nat) : (m.tickEvc c e).poison = m.poison := rfl
@[simp] theorem Module.tickEvc_scrErr (c e : Nat) : (m.tickEvc c e).scrErr = m.scrErr := rfl
@[simp] theorem Module.tickEvc_ueAt (c e : Nat) : (m.tickEvc c e).ueAt = m.ueAt := rfl
@[simp] theorem Module.tickEvc_wordErr (c e : Nat) : (m.tickEvc c e).wordErr = m.wordErr := rfl
@[simp] theorem Module.tickEvc_ckErr (c e : Nat) : (m.tickEvc c e).ckErr = m.ckErr := rfl
@[simp] theorem Module.tickEvc_ckOff (c e : Nat) : (m.tickEvc c e).ckOff = m.ckOff := rfl
@[simp] theorem Module.tickEvc_nearLost (c e : Nat) : (m.tickEvc c e).nearLost = m.nearLost := rfl
@[simp] theorem Module.tickEvc_cores (c e : Nat) : (m.tickEvc c e).cores = m.cores := rfl
@[simp] theorem Module.tickEvc_slices (c e : Nat) : (m.tickEvc c e).slices = m.slices := rfl
@[simp] theorem Module.tickEvc_fars (c e : Nat) : (m.tickEvc c e).fars = m.fars := rfl
@[simp] theorem Module.tickEvc_slow (c e : Nat) : (m.tickEvc c e).slow = m.slow := rfl
@[simp] theorem Module.tickEvc_slowBack (c e : Nat) : (m.tickEvc c e).slowBack = m.slowBack := rfl
@[simp] theorem Module.tickEvc_clkHeld (c e : Nat) : (m.tickEvc c e).clkHeld = m.clkHeld := rfl
@[simp] theorem Module.tickEvc_ran (c e : Nat) : (m.tickEvc c e).ran = m.ran := rfl
@[simp] theorem Module.tickEvc_tried (c e : Nat) : (m.tickEvc c e).tried = m.tried := rfl
@[simp] theorem Module.tickEvc_compOut (c e : Nat) : (m.tickEvc c e).compOut = m.compOut := rfl
@[simp] theorem Module.tickEvc_compEng (c e : Nat) : (m.tickEvc c e).compEng = m.compEng := rfl
@[simp] theorem Module.tickEvc_compTag (c e : Nat) : (m.tickEvc c e).compTag = m.compTag := rfl
@[simp] theorem Module.tickEvc_tx (c e : Nat) : (m.tickEvc c e).tx = m.tx := rfl
@[simp] theorem Module.tickEvc_txNext (c e : Nat) : (m.tickEvc c e).txNext = m.txNext := rfl
@[simp] theorem Module.tickEvc_parked (c e : Nat) : (m.tickEvc c e).parked = m.parked := rfl
@[simp] theorem Module.tickEvc_scrubs (c e : Nat) : (m.tickEvc c e).scrubs = m.scrubs := rfl
@[simp] theorem Module.tickEvc_repairs (c e : Nat) : (m.tickEvc c e).repairs = m.repairs := rfl
@[simp] theorem Module.tickEvc_net (c e : Nat) : (m.tickEvc c e).net = m.net := rfl
@[simp] theorem Module.tickEvc_flits (c e : Nat) : (m.tickEvc c e).flits = m.flits := rfl
@[simp] theorem Module.tickEvc_ctl (c e : Nat) : (m.tickEvc c e).ctl = m.ctl := rfl
@[simp] theorem Module.tickEvc_qos (c e : Nat) : (m.tickEvc c e).qos = m.qos := rfl
@[simp] theorem Module.tickEvc_plat (c e : Nat) : (m.tickEvc c e).plat = m.plat := rfl
@[simp] theorem Module.tickEvc_platLoaded (c e : Nat) : (m.tickEvc c e).platLoaded = m.platLoaded := rfl
@[simp] theorem Module.tickEvc_load (c e : Nat) : (m.tickEvc c e).load = m.load := rfl
@[simp] theorem Module.tickEvc_codes (c e : Nat) : (m.tickEvc c e).codes = m.codes := rfl
@[simp] theorem Module.tickEvc_resetting (c e : Nat) : (m.tickEvc c e).resetting = m.resetting := rfl
@[simp] theorem Module.tickEvc_obs (c e : Nat) : (m.tickEvc c e).obs = m.obs := rfl
@[simp] theorem Module.tickEvc_links (c e : Nat) : (m.tickEvc c e).links = m.links := rfl
@[simp] theorem Module.tickEvc_ports (c e : Nat) : (m.tickEvc c e).ports = m.ports := rfl
@[simp] theorem Module.tickEvc_transit (c e : Nat) : (m.tickEvc c e).transit = m.transit := rfl
@[simp] theorem Module.tickEvc_fabOut (c e : Nat) : (m.tickEvc c e).fabOut = m.fabOut := rfl
@[simp] theorem Module.tickEvc_fabTag (c e : Nat) : (m.tickEvc c e).fabTag = m.fabTag := rfl
@[simp] theorem Module.tickEvc_dat (c e : Nat) : (m.tickEvc c e).dat = m.dat := rfl
@[simp] theorem Module.tickEvc_surveyOk (c e : Nat) : (m.tickEvc c e).surveyOk = m.surveyOk := rfl
@[simp] theorem Module.tickEvc_met (c e : Nat) : (m.tickEvc c e).met = m.met := rfl
@[simp] theorem Module.tickEvc_metBuilt (c e : Nat) : (m.tickEvc c e).metBuilt = m.metBuilt := rfl
@[simp] theorem Module.tickEvc_fwOk (c e : Nat) : (m.tickEvc c e).fwOk = m.fwOk := rfl
@[simp] theorem Module.tickEvc_lockLost (c e : Nat) : (m.tickEvc c e).lockLost = m.lockLost := rfl
@[simp] theorem Module.tickEvc_lanes (c e : Nat) : (m.tickEvc c e).lanes = m.lanes := rfl
@[simp] theorem Module.tickEvc_d2dTest (c e : Nat) : (m.tickEvc c e).d2dTest = m.d2dTest := rfl
@[simp] theorem Module.tickEvc_tapIr (c e : Nat) : (m.tickEvc c e).tapIr = m.tapIr := rfl
@[simp] theorem Module.tickEvc_tapDr (c e : Nat) : (m.tickEvc c e).tapDr = m.tapDr := rfl
@[simp] theorem Module.tickEvc_fuses (c e : Nat) : (m.tickEvc c e).fuses = m.fuses := rfl
@[simp] theorem Module.tickEvc_flp (c e : Nat) : (m.tickEvc c e).flp = m.flp := rfl
@[simp] theorem Module.tickEvc_ledger (c e : Nat) : (m.tickEvc c e).ledger = m.ledger := rfl
@[simp] theorem Module.tickEvc_spares (c e : Nat) : (m.tickEvc c e).spares = m.spares := rfl
@[simp] theorem Module.tickEvc_sparesTemp (c e : Nat) : (m.tickEvc c e).sparesTemp = m.sparesTemp := rfl
@[simp] theorem Module.tickEvc_bringAt (c e : Nat) : (m.tickEvc c e).bringAt = m.bringAt := rfl
@[simp] theorem Module.tickEvc_rst (c e : Nat) : (m.tickEvc c e).rst = m.rst := rfl
@[simp] theorem Module.tickEvc_passed (c e : Nat) : (m.tickEvc c e).passed = m.passed := rfl
@[simp] theorem Module.tickEvc_boot (c e : Nat) : (m.tickEvc c e).boot = m.boot := rfl
@[simp] theorem Module.tickEvc_ret (c e : Nat) : (m.tickEvc c e).ret = m.ret := rfl
@[simp] theorem Module.tickEvc_hsk (c e : Nat) : (m.tickEvc c e).hsk = m.hsk := rfl
@[simp] theorem Module.tickEvc_nor (c e : Nat) : (m.tickEvc c e).nor = m.nor := rfl
@[simp] theorem Module.tickEvc_jr (c e : Nat) : (m.tickEvc c e).jr = m.jr := rfl
@[simp] theorem Module.tickEvc_life (c e : Nat) : (m.tickEvc c e).life = m.life := rfl
@[simp] theorem Module.tickEvc_svc (c e : Nat) : (m.tickEvc c e).svc = m.svc := rfl
@[simp] theorem Module.tickEvc_platDigests (c e : Nat) : (m.tickEvc c e).platDigests = m.platDigests := rfl
@[simp] theorem Module.tickEvc_fns (c e : Nat) : (m.tickEvc c e).fns = m.fns := rfl
@[simp] theorem Module.tickEvc_arqs (c e : Nat) : (m.tickEvc c e).arqs = m.arqs := rfl
@[simp] theorem Module.tickEvc_dpqs (c e : Nat) : (m.tickEvc c e).dpqs = m.dpqs := rfl
@[simp] theorem Module.tickEvc_line (c e : Nat) : (m.tickEvc c e).line = m.line := rfl
@[simp] theorem Module.tickEvc_badParity (c e : Nat) : (m.tickEvc c e).badParity = m.badParity := rfl
@[simp] theorem Module.tickEvc_counters (c e : Nat) : (m.tickEvc c e).counters = m.counters := rfl
@[simp] theorem Module.tickEvc_incs (c e : Nat) : (m.tickEvc c e).incs = m.incs := rfl
@[simp] theorem Module.tickEvc_frz (c e : Nat) : (m.tickEvc c e).frz = m.frz := rfl
@[simp] theorem Module.tickEvc_frzBack (c e : Nat) : (m.tickEvc c e).frzBack = m.frzBack := rfl
@[simp] theorem Module.tickEvc_after (c e : Nat) : (m.tickEvc c e).after = m.after := rfl
@[simp] theorem Module.tickEvc_datum (c e : Nat) : (m.tickEvc c e).datum = m.datum := rfl
@[simp] theorem Module.tickEvc_now (c e : Nat) : (m.tickEvc c e).now = m.now := rfl
@[simp] theorem Module.tickEvc_freeCtr (c e : Nat) : (m.tickEvc c e).freeCtr = m.freeCtr := rfl
@[simp] theorem Module.tickEvc_outbox (c e : Nat) : (m.tickEvc c e).outbox = m.outbox := rfl

/-! ### `record` -/

@[simp] theorem Module.record_mem (die type : Nat) (k : SrcKind) (unit a0 a1 a2 : Nat) : (m.record die type k unit a0 a1 a2).mem = m.mem := by
  unfold Module.record; dsimp only; split <;> rfl
@[simp] theorem Module.record_poison (die type : Nat) (k : SrcKind) (unit a0 a1 a2 : Nat) : (m.record die type k unit a0 a1 a2).poison = m.poison := by
  unfold Module.record; dsimp only; split <;> rfl
@[simp] theorem Module.record_scrErr (die type : Nat) (k : SrcKind) (unit a0 a1 a2 : Nat) : (m.record die type k unit a0 a1 a2).scrErr = m.scrErr := by
  unfold Module.record; dsimp only; split <;> rfl
@[simp] theorem Module.record_wordErr (die type : Nat) (k : SrcKind) (unit a0 a1 a2 : Nat) : (m.record die type k unit a0 a1 a2).wordErr = m.wordErr := by
  unfold Module.record; dsimp only; split <;> rfl
@[simp] theorem Module.record_ckErr (die type : Nat) (k : SrcKind) (unit a0 a1 a2 : Nat) : (m.record die type k unit a0 a1 a2).ckErr = m.ckErr := by
  unfold Module.record; dsimp only; split <;> rfl
@[simp] theorem Module.record_ckOff (die type : Nat) (k : SrcKind) (unit a0 a1 a2 : Nat) : (m.record die type k unit a0 a1 a2).ckOff = m.ckOff := by
  unfold Module.record; dsimp only; split <;> rfl
@[simp] theorem Module.record_nearLost (die type : Nat) (k : SrcKind) (unit a0 a1 a2 : Nat) : (m.record die type k unit a0 a1 a2).nearLost = m.nearLost := by
  unfold Module.record; dsimp only; split <;> rfl
@[simp] theorem Module.record_cores (die type : Nat) (k : SrcKind) (unit a0 a1 a2 : Nat) : (m.record die type k unit a0 a1 a2).cores = m.cores := by
  unfold Module.record; dsimp only; split <;> rfl
@[simp] theorem Module.record_slices (die type : Nat) (k : SrcKind) (unit a0 a1 a2 : Nat) : (m.record die type k unit a0 a1 a2).slices = m.slices := by
  unfold Module.record; dsimp only; split <;> rfl
@[simp] theorem Module.record_fars (die type : Nat) (k : SrcKind) (unit a0 a1 a2 : Nat) : (m.record die type k unit a0 a1 a2).fars = m.fars := by
  unfold Module.record; dsimp only; split <;> rfl
@[simp] theorem Module.record_slow (die type : Nat) (k : SrcKind) (unit a0 a1 a2 : Nat) : (m.record die type k unit a0 a1 a2).slow = m.slow := by
  unfold Module.record; dsimp only; split <;> rfl
@[simp] theorem Module.record_net (die type : Nat) (k : SrcKind) (unit a0 a1 a2 : Nat) : (m.record die type k unit a0 a1 a2).net = m.net := by
  unfold Module.record; dsimp only; split <;> rfl
@[simp] theorem Module.record_ctl (die type : Nat) (k : SrcKind) (unit a0 a1 a2 : Nat) : (m.record die type k unit a0 a1 a2).ctl = m.ctl := by
  unfold Module.record; dsimp only; split <;> rfl
@[simp] theorem Module.record_qos (die type : Nat) (k : SrcKind) (unit a0 a1 a2 : Nat) : (m.record die type k unit a0 a1 a2).qos = m.qos := by
  unfold Module.record; dsimp only; split <;> rfl
@[simp] theorem Module.record_plat (die type : Nat) (k : SrcKind) (unit a0 a1 a2 : Nat) : (m.record die type k unit a0 a1 a2).plat = m.plat := by
  unfold Module.record; dsimp only; split <;> rfl
@[simp] theorem Module.record_platLoaded (die type : Nat) (k : SrcKind) (unit a0 a1 a2 : Nat) : (m.record die type k unit a0 a1 a2).platLoaded = m.platLoaded := by
  unfold Module.record; dsimp only; split <;> rfl
@[simp] theorem Module.record_codes (die type : Nat) (k : SrcKind) (unit a0 a1 a2 : Nat) : (m.record die type k unit a0 a1 a2).codes = m.codes := by
  unfold Module.record; dsimp only; split <;> rfl
@[simp] theorem Module.record_resetting (die type : Nat) (k : SrcKind) (unit a0 a1 a2 : Nat) : (m.record die type k unit a0 a1 a2).resetting = m.resetting := by
  unfold Module.record; dsimp only; split <;> rfl
@[simp] theorem Module.record_links (die type : Nat) (k : SrcKind) (unit a0 a1 a2 : Nat) : (m.record die type k unit a0 a1 a2).links = m.links := by
  unfold Module.record; dsimp only; split <;> rfl
@[simp] theorem Module.record_ports (die type : Nat) (k : SrcKind) (unit a0 a1 a2 : Nat) : (m.record die type k unit a0 a1 a2).ports = m.ports := by
  unfold Module.record; dsimp only; split <;> rfl
@[simp] theorem Module.record_dat (die type : Nat) (k : SrcKind) (unit a0 a1 a2 : Nat) : (m.record die type k unit a0 a1 a2).dat = m.dat := by
  unfold Module.record; dsimp only; split <;> rfl
@[simp] theorem Module.record_lockLost (die type : Nat) (k : SrcKind) (unit a0 a1 a2 : Nat) : (m.record die type k unit a0 a1 a2).lockLost = m.lockLost := by
  unfold Module.record; dsimp only; split <;> rfl
@[simp] theorem Module.record_fuses (die type : Nat) (k : SrcKind) (unit a0 a1 a2 : Nat) : (m.record die type k unit a0 a1 a2).fuses = m.fuses := by
  unfold Module.record; dsimp only; split <;> rfl
@[simp] theorem Module.record_fns (die type : Nat) (k : SrcKind) (unit a0 a1 a2 : Nat) : (m.record die type k unit a0 a1 a2).fns = m.fns := by
  unfold Module.record; dsimp only; split <;> rfl
@[simp] theorem Module.record_arqs (die type : Nat) (k : SrcKind) (unit a0 a1 a2 : Nat) : (m.record die type k unit a0 a1 a2).arqs = m.arqs := by
  unfold Module.record; dsimp only; split <;> rfl
@[simp] theorem Module.record_dpqs (die type : Nat) (k : SrcKind) (unit a0 a1 a2 : Nat) : (m.record die type k unit a0 a1 a2).dpqs = m.dpqs := by
  unfold Module.record; dsimp only; split <;> rfl
@[simp] theorem Module.record_counters (die type : Nat) (k : SrcKind) (unit a0 a1 a2 : Nat) : (m.record die type k unit a0 a1 a2).counters = m.counters := by
  unfold Module.record; dsimp only; split <;> rfl
@[simp] theorem Module.record_datum (die type : Nat) (k : SrcKind) (unit a0 a1 a2 : Nat) : (m.record die type k unit a0 a1 a2).datum = m.datum := by
  unfold Module.record; dsimp only; split <;> rfl
@[simp] theorem Module.record_now (die type : Nat) (k : SrcKind) (unit a0 a1 a2 : Nat) : (m.record die type k unit a0 a1 a2).now = m.now := by
  unfold Module.record; dsimp only; split <;> rfl
@[simp] theorem Module.record_freeCtr (die type : Nat) (k : SrcKind) (unit a0 a1 a2 : Nat) : (m.record die type k unit a0 a1 a2).freeCtr = m.freeCtr := by
  unfold Module.record; dsimp only; split <;> rfl
@[simp] theorem Module.record_outbox (die type : Nat) (k : SrcKind) (unit a0 a1 a2 : Nat) : (m.record die type k unit a0 a1 a2).outbox = m.outbox := by
  unfold Module.record; dsimp only; split <;> rfl

/-! ### `fireMsix` -/

@[simp] theorem Module.fireMsix_regs (f v : Nat) : (m.fireMsix f v).regs = m.regs := by
  unfold Module.fireMsix; dsimp only; split
  · rfl
  · split <;> rfl
@[simp] theorem Module.fireMsix_mem (f v : Nat) : (m.fireMsix f v).mem = m.mem := by
  unfold Module.fireMsix; dsimp only; split
  · rfl
  · split <;> rfl
@[simp] theorem Module.fireMsix_poison (f v : Nat) : (m.fireMsix f v).poison = m.poison := by
  unfold Module.fireMsix; dsimp only; split
  · rfl
  · split <;> rfl
@[simp] theorem Module.fireMsix_scrErr (f v : Nat) : (m.fireMsix f v).scrErr = m.scrErr := by
  unfold Module.fireMsix; dsimp only; split
  · rfl
  · split <;> rfl
@[simp] theorem Module.fireMsix_wordErr (f v : Nat) : (m.fireMsix f v).wordErr = m.wordErr := by
  unfold Module.fireMsix; dsimp only; split
  · rfl
  · split <;> rfl
@[simp] theorem Module.fireMsix_ckErr (f v : Nat) : (m.fireMsix f v).ckErr = m.ckErr := by
  unfold Module.fireMsix; dsimp only; split
  · rfl
  · split <;> rfl
@[simp] theorem Module.fireMsix_ckOff (f v : Nat) : (m.fireMsix f v).ckOff = m.ckOff := by
  unfold Module.fireMsix; dsimp only; split
  · rfl
  · split <;> rfl
@[simp] theorem Module.fireMsix_nearLost (f v : Nat) : (m.fireMsix f v).nearLost = m.nearLost := by
  unfold Module.fireMsix; dsimp only; split
  · rfl
  · split <;> rfl
@[simp] theorem Module.fireMsix_cores (f v : Nat) : (m.fireMsix f v).cores = m.cores := by
  unfold Module.fireMsix; dsimp only; split
  · rfl
  · split <;> rfl
@[simp] theorem Module.fireMsix_slices (f v : Nat) : (m.fireMsix f v).slices = m.slices := by
  unfold Module.fireMsix; dsimp only; split
  · rfl
  · split <;> rfl
@[simp] theorem Module.fireMsix_fars (f v : Nat) : (m.fireMsix f v).fars = m.fars := by
  unfold Module.fireMsix; dsimp only; split
  · rfl
  · split <;> rfl
@[simp] theorem Module.fireMsix_slow (f v : Nat) : (m.fireMsix f v).slow = m.slow := by
  unfold Module.fireMsix; dsimp only; split
  · rfl
  · split <;> rfl
@[simp] theorem Module.fireMsix_net (f v : Nat) : (m.fireMsix f v).net = m.net := by
  unfold Module.fireMsix; dsimp only; split
  · rfl
  · split <;> rfl
@[simp] theorem Module.fireMsix_ctl (f v : Nat) : (m.fireMsix f v).ctl = m.ctl := by
  unfold Module.fireMsix; dsimp only; split
  · rfl
  · split <;> rfl
@[simp] theorem Module.fireMsix_qos (f v : Nat) : (m.fireMsix f v).qos = m.qos := by
  unfold Module.fireMsix; dsimp only; split
  · rfl
  · split <;> rfl
@[simp] theorem Module.fireMsix_plat (f v : Nat) : (m.fireMsix f v).plat = m.plat := by
  unfold Module.fireMsix; dsimp only; split
  · rfl
  · split <;> rfl
@[simp] theorem Module.fireMsix_platLoaded (f v : Nat) : (m.fireMsix f v).platLoaded = m.platLoaded := by
  unfold Module.fireMsix; dsimp only; split
  · rfl
  · split <;> rfl
@[simp] theorem Module.fireMsix_codes (f v : Nat) : (m.fireMsix f v).codes = m.codes := by
  unfold Module.fireMsix; dsimp only; split
  · rfl
  · split <;> rfl
@[simp] theorem Module.fireMsix_resetting (f v : Nat) : (m.fireMsix f v).resetting = m.resetting := by
  unfold Module.fireMsix; dsimp only; split
  · rfl
  · split <;> rfl
@[simp] theorem Module.fireMsix_obs (f v : Nat) : (m.fireMsix f v).obs = m.obs := by
  unfold Module.fireMsix; dsimp only; split
  · rfl
  · split <;> rfl
@[simp] theorem Module.fireMsix_links (f v : Nat) : (m.fireMsix f v).links = m.links := by
  unfold Module.fireMsix; dsimp only; split
  · rfl
  · split <;> rfl
@[simp] theorem Module.fireMsix_ports (f v : Nat) : (m.fireMsix f v).ports = m.ports := by
  unfold Module.fireMsix; dsimp only; split
  · rfl
  · split <;> rfl
@[simp] theorem Module.fireMsix_dat (f v : Nat) : (m.fireMsix f v).dat = m.dat := by
  unfold Module.fireMsix; dsimp only; split
  · rfl
  · split <;> rfl
@[simp] theorem Module.fireMsix_lockLost (f v : Nat) : (m.fireMsix f v).lockLost = m.lockLost := by
  unfold Module.fireMsix; dsimp only; split
  · rfl
  · split <;> rfl
@[simp] theorem Module.fireMsix_fuses (f v : Nat) : (m.fireMsix f v).fuses = m.fuses := by
  unfold Module.fireMsix; dsimp only; split
  · rfl
  · split <;> rfl
@[simp] theorem Module.fireMsix_arqs (f v : Nat) : (m.fireMsix f v).arqs = m.arqs := by
  unfold Module.fireMsix; dsimp only; split
  · rfl
  · split <;> rfl
@[simp] theorem Module.fireMsix_dpqs (f v : Nat) : (m.fireMsix f v).dpqs = m.dpqs := by
  unfold Module.fireMsix; dsimp only; split
  · rfl
  · split <;> rfl
@[simp] theorem Module.fireMsix_counters (f v : Nat) : (m.fireMsix f v).counters = m.counters := by
  unfold Module.fireMsix; dsimp only; split
  · rfl
  · split <;> rfl
@[simp] theorem Module.fireMsix_datum (f v : Nat) : (m.fireMsix f v).datum = m.datum := by
  unfold Module.fireMsix; dsimp only; split
  · rfl
  · split <;> rfl
@[simp] theorem Module.fireMsix_now (f v : Nat) : (m.fireMsix f v).now = m.now := by
  unfold Module.fireMsix; dsimp only; split
  · rfl
  · split <;> rfl
@[simp] theorem Module.fireMsix_freeCtr (f v : Nat) : (m.fireMsix f v).freeCtr = m.freeCtr := by
  unfold Module.fireMsix; dsimp only; split
  · rfl
  · split <;> rfl

/-! ### `event` -/

@[simp] theorem Module.event_mem (f e : Nat) : (m.event f e).mem = m.mem := by
  unfold Module.event; split <;> simp
@[simp] theorem Module.event_poison (f e : Nat) : (m.event f e).poison = m.poison := by
  unfold Module.event; split <;> simp
@[simp] theorem Module.event_scrErr (f e : Nat) : (m.event f e).scrErr = m.scrErr := by
  unfold Module.event; split <;> simp
@[simp] theorem Module.event_wordErr (f e : Nat) : (m.event f e).wordErr = m.wordErr := by
  unfold Module.event; split <;> simp
@[simp] theorem Module.event_ckErr (f e : Nat) : (m.event f e).ckErr = m.ckErr := by
  unfold Module.event; split <;> simp
@[simp] theorem Module.event_ckOff (f e : Nat) : (m.event f e).ckOff = m.ckOff := by
  unfold Module.event; split <;> simp
@[simp] theorem Module.event_nearLost (f e : Nat) : (m.event f e).nearLost = m.nearLost := by
  unfold Module.event; split <;> simp
@[simp] theorem Module.event_cores (f e : Nat) : (m.event f e).cores = m.cores := by
  unfold Module.event; split <;> simp
@[simp] theorem Module.event_slices (f e : Nat) : (m.event f e).slices = m.slices := by
  unfold Module.event; split <;> simp
@[simp] theorem Module.event_fars (f e : Nat) : (m.event f e).fars = m.fars := by
  unfold Module.event; split <;> simp
@[simp] theorem Module.event_slow (f e : Nat) : (m.event f e).slow = m.slow := by
  unfold Module.event; split <;> simp
@[simp] theorem Module.event_net (f e : Nat) : (m.event f e).net = m.net := by
  unfold Module.event; split <;> simp
@[simp] theorem Module.event_ctl (f e : Nat) : (m.event f e).ctl = m.ctl := by
  unfold Module.event; split <;> simp
@[simp] theorem Module.event_qos (f e : Nat) : (m.event f e).qos = m.qos := by
  unfold Module.event; split <;> simp
@[simp] theorem Module.event_plat (f e : Nat) : (m.event f e).plat = m.plat := by
  unfold Module.event; split <;> simp
@[simp] theorem Module.event_platLoaded (f e : Nat) : (m.event f e).platLoaded = m.platLoaded := by
  unfold Module.event; split <;> simp
@[simp] theorem Module.event_codes (f e : Nat) : (m.event f e).codes = m.codes := by
  unfold Module.event; split <;> simp
@[simp] theorem Module.event_resetting (f e : Nat) : (m.event f e).resetting = m.resetting := by
  unfold Module.event; split <;> simp
@[simp] theorem Module.event_obs (f e : Nat) : (m.event f e).obs = m.obs := by
  unfold Module.event; split <;> simp
@[simp] theorem Module.event_links (f e : Nat) : (m.event f e).links = m.links := by
  unfold Module.event; split <;> simp
@[simp] theorem Module.event_ports (f e : Nat) : (m.event f e).ports = m.ports := by
  unfold Module.event; split <;> simp
@[simp] theorem Module.event_dat (f e : Nat) : (m.event f e).dat = m.dat := by
  unfold Module.event; split <;> simp
@[simp] theorem Module.event_lockLost (f e : Nat) : (m.event f e).lockLost = m.lockLost := by
  unfold Module.event; split <;> simp
@[simp] theorem Module.event_fuses (f e : Nat) : (m.event f e).fuses = m.fuses := by
  unfold Module.event; split <;> simp
@[simp] theorem Module.event_arqs (f e : Nat) : (m.event f e).arqs = m.arqs := by
  unfold Module.event; split <;> simp
@[simp] theorem Module.event_dpqs (f e : Nat) : (m.event f e).dpqs = m.dpqs := by
  unfold Module.event; split <;> simp
@[simp] theorem Module.event_counters (f e : Nat) : (m.event f e).counters = m.counters := by
  unfold Module.event; split <;> simp
@[simp] theorem Module.event_datum (f e : Nat) : (m.event f e).datum = m.datum := by
  unfold Module.event; split <;> simp
@[simp] theorem Module.event_now (f e : Nat) : (m.event f e).now = m.now := by
  unfold Module.event; split <;> simp
@[simp] theorem Module.event_freeCtr (f e : Nat) : (m.event f e).freeCtr = m.freeCtr := by
  unfold Module.event; split <;> simp

/-! ### `memErr` -/

@[simp] theorem Module.memErr_mem (w k : Nat) : (m.memErr w k).mem = m.mem := by simp [Module.memErr]
@[simp] theorem Module.memErr_poison (w k : Nat) : (m.memErr w k).poison = m.poison := by simp [Module.memErr]
@[simp] theorem Module.memErr_scrErr (w k : Nat) : (m.memErr w k).scrErr = m.scrErr := by simp [Module.memErr]
@[simp] theorem Module.memErr_wordErr (w k : Nat) : (m.memErr w k).wordErr = m.wordErr := by simp [Module.memErr]
@[simp] theorem Module.memErr_ckErr (w k : Nat) : (m.memErr w k).ckErr = m.ckErr := by simp [Module.memErr]
@[simp] theorem Module.memErr_ckOff (w k : Nat) : (m.memErr w k).ckOff = m.ckOff := by simp [Module.memErr]
@[simp] theorem Module.memErr_nearLost (w k : Nat) : (m.memErr w k).nearLost = m.nearLost := by simp [Module.memErr]
@[simp] theorem Module.memErr_cores (w k : Nat) : (m.memErr w k).cores = m.cores := by simp [Module.memErr]
@[simp] theorem Module.memErr_slices (w k : Nat) : (m.memErr w k).slices = m.slices := by simp [Module.memErr]
@[simp] theorem Module.memErr_fars (w k : Nat) : (m.memErr w k).fars = m.fars := by simp [Module.memErr]
@[simp] theorem Module.memErr_slow (w k : Nat) : (m.memErr w k).slow = m.slow := by simp [Module.memErr]
@[simp] theorem Module.memErr_net (w k : Nat) : (m.memErr w k).net = m.net := by simp [Module.memErr]
@[simp] theorem Module.memErr_ctl (w k : Nat) : (m.memErr w k).ctl = m.ctl := by simp [Module.memErr]
@[simp] theorem Module.memErr_qos (w k : Nat) : (m.memErr w k).qos = m.qos := by simp [Module.memErr]
@[simp] theorem Module.memErr_plat (w k : Nat) : (m.memErr w k).plat = m.plat := by simp [Module.memErr]
@[simp] theorem Module.memErr_platLoaded (w k : Nat) : (m.memErr w k).platLoaded = m.platLoaded := by simp [Module.memErr]
@[simp] theorem Module.memErr_codes (w k : Nat) : (m.memErr w k).codes = m.codes := by simp [Module.memErr]
@[simp] theorem Module.memErr_resetting (w k : Nat) : (m.memErr w k).resetting = m.resetting := by simp [Module.memErr]
@[simp] theorem Module.memErr_links (w k : Nat) : (m.memErr w k).links = m.links := by simp [Module.memErr]
@[simp] theorem Module.memErr_ports (w k : Nat) : (m.memErr w k).ports = m.ports := by simp [Module.memErr]
@[simp] theorem Module.memErr_dat (w k : Nat) : (m.memErr w k).dat = m.dat := by simp [Module.memErr]
@[simp] theorem Module.memErr_lockLost (w k : Nat) : (m.memErr w k).lockLost = m.lockLost := by simp [Module.memErr]
@[simp] theorem Module.memErr_fuses (w k : Nat) : (m.memErr w k).fuses = m.fuses := by simp [Module.memErr]
@[simp] theorem Module.memErr_fns (w k : Nat) : (m.memErr w k).fns = m.fns := by simp [Module.memErr]
@[simp] theorem Module.memErr_arqs (w k : Nat) : (m.memErr w k).arqs = m.arqs := by simp [Module.memErr]
@[simp] theorem Module.memErr_dpqs (w k : Nat) : (m.memErr w k).dpqs = m.dpqs := by simp [Module.memErr]
@[simp] theorem Module.memErr_counters (w k : Nat) : (m.memErr w k).counters = m.counters := by simp [Module.memErr]
@[simp] theorem Module.memErr_datum (w k : Nat) : (m.memErr w k).datum = m.datum := by simp [Module.memErr]
@[simp] theorem Module.memErr_now (w k : Nat) : (m.memErr w k).now = m.now := by simp [Module.memErr]
@[simp] theorem Module.memErr_freeCtr (w k : Nat) : (m.memErr w k).freeCtr = m.freeCtr := by simp [Module.memErr]
@[simp] theorem Module.memErr_outbox (w k : Nat) : (m.memErr w k).outbox = m.outbox := by simp [Module.memErr]

/-! ### `setCoreSt` -/

@[simp] theorem Module.setCoreSt_mem (c : Nat) (st : CoreSt) (x : Nat) : (m.setCoreSt c st x).mem = m.mem := by simp [Module.setCoreSt]
@[simp] theorem Module.setCoreSt_poison (c : Nat) (st : CoreSt) (x : Nat) : (m.setCoreSt c st x).poison = m.poison := by simp [Module.setCoreSt]
@[simp] theorem Module.setCoreSt_scrErr (c : Nat) (st : CoreSt) (x : Nat) : (m.setCoreSt c st x).scrErr = m.scrErr := by simp [Module.setCoreSt]
@[simp] theorem Module.setCoreSt_wordErr (c : Nat) (st : CoreSt) (x : Nat) : (m.setCoreSt c st x).wordErr = m.wordErr := by simp [Module.setCoreSt]
@[simp] theorem Module.setCoreSt_ckErr (c : Nat) (st : CoreSt) (x : Nat) : (m.setCoreSt c st x).ckErr = m.ckErr := by simp [Module.setCoreSt]
@[simp] theorem Module.setCoreSt_ckOff (c : Nat) (st : CoreSt) (x : Nat) : (m.setCoreSt c st x).ckOff = m.ckOff := by simp [Module.setCoreSt]
@[simp] theorem Module.setCoreSt_nearLost (c : Nat) (st : CoreSt) (x : Nat) : (m.setCoreSt c st x).nearLost = m.nearLost := by simp [Module.setCoreSt]
@[simp] theorem Module.setCoreSt_slices (c : Nat) (st : CoreSt) (x : Nat) : (m.setCoreSt c st x).slices = m.slices := by simp [Module.setCoreSt]
@[simp] theorem Module.setCoreSt_fars (c : Nat) (st : CoreSt) (x : Nat) : (m.setCoreSt c st x).fars = m.fars := by simp [Module.setCoreSt]
@[simp] theorem Module.setCoreSt_slow (c : Nat) (st : CoreSt) (x : Nat) : (m.setCoreSt c st x).slow = m.slow := by simp [Module.setCoreSt]
@[simp] theorem Module.setCoreSt_net (c : Nat) (st : CoreSt) (x : Nat) : (m.setCoreSt c st x).net = m.net := by simp [Module.setCoreSt]
@[simp] theorem Module.setCoreSt_ctl (c : Nat) (st : CoreSt) (x : Nat) : (m.setCoreSt c st x).ctl = m.ctl := by simp [Module.setCoreSt]
@[simp] theorem Module.setCoreSt_qos (c : Nat) (st : CoreSt) (x : Nat) : (m.setCoreSt c st x).qos = m.qos := by simp [Module.setCoreSt]
@[simp] theorem Module.setCoreSt_plat (c : Nat) (st : CoreSt) (x : Nat) : (m.setCoreSt c st x).plat = m.plat := by simp [Module.setCoreSt]
@[simp] theorem Module.setCoreSt_platLoaded (c : Nat) (st : CoreSt) (x : Nat) : (m.setCoreSt c st x).platLoaded = m.platLoaded := by simp [Module.setCoreSt]
@[simp] theorem Module.setCoreSt_codes (c : Nat) (st : CoreSt) (x : Nat) : (m.setCoreSt c st x).codes = m.codes := by simp [Module.setCoreSt]
@[simp] theorem Module.setCoreSt_resetting (c : Nat) (st : CoreSt) (x : Nat) : (m.setCoreSt c st x).resetting = m.resetting := by simp [Module.setCoreSt]
@[simp] theorem Module.setCoreSt_links (c : Nat) (st : CoreSt) (x : Nat) : (m.setCoreSt c st x).links = m.links := by simp [Module.setCoreSt]
@[simp] theorem Module.setCoreSt_ports (c : Nat) (st : CoreSt) (x : Nat) : (m.setCoreSt c st x).ports = m.ports := by simp [Module.setCoreSt]
@[simp] theorem Module.setCoreSt_dat (c : Nat) (st : CoreSt) (x : Nat) : (m.setCoreSt c st x).dat = m.dat := by simp [Module.setCoreSt]
@[simp] theorem Module.setCoreSt_lockLost (c : Nat) (st : CoreSt) (x : Nat) : (m.setCoreSt c st x).lockLost = m.lockLost := by simp [Module.setCoreSt]
@[simp] theorem Module.setCoreSt_fuses (c : Nat) (st : CoreSt) (x : Nat) : (m.setCoreSt c st x).fuses = m.fuses := by simp [Module.setCoreSt]
@[simp] theorem Module.setCoreSt_fns (c : Nat) (st : CoreSt) (x : Nat) : (m.setCoreSt c st x).fns = m.fns := by simp [Module.setCoreSt]
@[simp] theorem Module.setCoreSt_arqs (c : Nat) (st : CoreSt) (x : Nat) : (m.setCoreSt c st x).arqs = m.arqs := by simp [Module.setCoreSt]
@[simp] theorem Module.setCoreSt_dpqs (c : Nat) (st : CoreSt) (x : Nat) : (m.setCoreSt c st x).dpqs = m.dpqs := by simp [Module.setCoreSt]
@[simp] theorem Module.setCoreSt_counters (c : Nat) (st : CoreSt) (x : Nat) : (m.setCoreSt c st x).counters = m.counters := by simp [Module.setCoreSt]
@[simp] theorem Module.setCoreSt_datum (c : Nat) (st : CoreSt) (x : Nat) : (m.setCoreSt c st x).datum = m.datum := by simp [Module.setCoreSt]
@[simp] theorem Module.setCoreSt_now (c : Nat) (st : CoreSt) (x : Nat) : (m.setCoreSt c st x).now = m.now := by simp [Module.setCoreSt]
@[simp] theorem Module.setCoreSt_freeCtr (c : Nat) (st : CoreSt) (x : Nat) : (m.setCoreSt c st x).freeCtr = m.freeCtr := by simp [Module.setCoreSt]
@[simp] theorem Module.setCoreSt_outbox (c : Nat) (st : CoreSt) (x : Nat) : (m.setCoreSt c st x).outbox = m.outbox := by simp [Module.setCoreSt]

/-! ### `notePoison` -/

@[simp] theorem Module.notePoison_mem (w : Nat) : (m.notePoison w).mem = m.mem := by
  unfold Module.notePoison; split <;> simp
@[simp] theorem Module.notePoison_poison (w : Nat) : (m.notePoison w).poison = m.poison := by
  unfold Module.notePoison; split <;> simp
@[simp] theorem Module.notePoison_scrErr (w : Nat) : (m.notePoison w).scrErr = m.scrErr := by
  unfold Module.notePoison; split <;> simp
@[simp] theorem Module.notePoison_wordErr (w : Nat) : (m.notePoison w).wordErr = m.wordErr := by
  unfold Module.notePoison; split <;> simp
@[simp] theorem Module.notePoison_ckErr (w : Nat) : (m.notePoison w).ckErr = m.ckErr := by
  unfold Module.notePoison; split <;> simp
@[simp] theorem Module.notePoison_ckOff (w : Nat) : (m.notePoison w).ckOff = m.ckOff := by
  unfold Module.notePoison; split <;> simp
@[simp] theorem Module.notePoison_nearLost (w : Nat) : (m.notePoison w).nearLost = m.nearLost := by
  unfold Module.notePoison; split <;> simp
@[simp] theorem Module.notePoison_cores (w : Nat) : (m.notePoison w).cores = m.cores := by
  unfold Module.notePoison; split <;> simp
@[simp] theorem Module.notePoison_slices (w : Nat) : (m.notePoison w).slices = m.slices := by
  unfold Module.notePoison; split <;> simp
@[simp] theorem Module.notePoison_fars (w : Nat) : (m.notePoison w).fars = m.fars := by
  unfold Module.notePoison; split <;> simp
@[simp] theorem Module.notePoison_slow (w : Nat) : (m.notePoison w).slow = m.slow := by
  unfold Module.notePoison; split <;> simp
@[simp] theorem Module.notePoison_net (w : Nat) : (m.notePoison w).net = m.net := by
  unfold Module.notePoison; split <;> simp
@[simp] theorem Module.notePoison_ctl (w : Nat) : (m.notePoison w).ctl = m.ctl := by
  unfold Module.notePoison; split <;> simp
@[simp] theorem Module.notePoison_qos (w : Nat) : (m.notePoison w).qos = m.qos := by
  unfold Module.notePoison; split <;> simp
@[simp] theorem Module.notePoison_plat (w : Nat) : (m.notePoison w).plat = m.plat := by
  unfold Module.notePoison; split <;> simp
@[simp] theorem Module.notePoison_platLoaded (w : Nat) : (m.notePoison w).platLoaded = m.platLoaded := by
  unfold Module.notePoison; split <;> simp
@[simp] theorem Module.notePoison_codes (w : Nat) : (m.notePoison w).codes = m.codes := by
  unfold Module.notePoison; split <;> simp
@[simp] theorem Module.notePoison_resetting (w : Nat) : (m.notePoison w).resetting = m.resetting := by
  unfold Module.notePoison; split <;> simp
@[simp] theorem Module.notePoison_links (w : Nat) : (m.notePoison w).links = m.links := by
  unfold Module.notePoison; split <;> simp
@[simp] theorem Module.notePoison_ports (w : Nat) : (m.notePoison w).ports = m.ports := by
  unfold Module.notePoison; split <;> simp
@[simp] theorem Module.notePoison_dat (w : Nat) : (m.notePoison w).dat = m.dat := by
  unfold Module.notePoison; split <;> simp
@[simp] theorem Module.notePoison_lockLost (w : Nat) : (m.notePoison w).lockLost = m.lockLost := by
  unfold Module.notePoison; split <;> simp
@[simp] theorem Module.notePoison_fuses (w : Nat) : (m.notePoison w).fuses = m.fuses := by
  unfold Module.notePoison; split <;> simp
@[simp] theorem Module.notePoison_fns (w : Nat) : (m.notePoison w).fns = m.fns := by
  unfold Module.notePoison; split <;> simp
@[simp] theorem Module.notePoison_arqs (w : Nat) : (m.notePoison w).arqs = m.arqs := by
  unfold Module.notePoison; split <;> simp
@[simp] theorem Module.notePoison_dpqs (w : Nat) : (m.notePoison w).dpqs = m.dpqs := by
  unfold Module.notePoison; split <;> simp
@[simp] theorem Module.notePoison_counters (w : Nat) : (m.notePoison w).counters = m.counters := by
  unfold Module.notePoison; split <;> simp
@[simp] theorem Module.notePoison_datum (w : Nat) : (m.notePoison w).datum = m.datum := by
  unfold Module.notePoison; split <;> simp
@[simp] theorem Module.notePoison_now (w : Nat) : (m.notePoison w).now = m.now := by
  unfold Module.notePoison; split <;> simp
@[simp] theorem Module.notePoison_freeCtr (w : Nat) : (m.notePoison w).freeCtr = m.freeCtr := by
  unfold Module.notePoison; split <;> simp
@[simp] theorem Module.notePoison_outbox (w : Nat) : (m.notePoison w).outbox = m.outbox := by
  unfold Module.notePoison; split <;> simp

/-! ### `noteLight` -/

@[simp] theorem Module.noteLight_mem (w : Nat) : (m.noteLight w).mem = m.mem := by
  unfold Module.noteLight; split <;> simp
@[simp] theorem Module.noteLight_poison (w : Nat) : (m.noteLight w).poison = m.poison := by
  unfold Module.noteLight; split <;> simp
@[simp] theorem Module.noteLight_scrErr (w : Nat) : (m.noteLight w).scrErr = m.scrErr := by
  unfold Module.noteLight; split <;> simp
@[simp] theorem Module.noteLight_wordErr (w : Nat) : (m.noteLight w).wordErr = m.wordErr := by
  unfold Module.noteLight; split <;> simp
@[simp] theorem Module.noteLight_ckErr (w : Nat) : (m.noteLight w).ckErr = m.ckErr := by
  unfold Module.noteLight; split <;> simp
@[simp] theorem Module.noteLight_ckOff (w : Nat) : (m.noteLight w).ckOff = m.ckOff := by
  unfold Module.noteLight; split <;> simp
@[simp] theorem Module.noteLight_nearLost (w : Nat) : (m.noteLight w).nearLost = m.nearLost := by
  unfold Module.noteLight; split <;> simp
@[simp] theorem Module.noteLight_cores (w : Nat) : (m.noteLight w).cores = m.cores := by
  unfold Module.noteLight; split <;> simp
@[simp] theorem Module.noteLight_slices (w : Nat) : (m.noteLight w).slices = m.slices := by
  unfold Module.noteLight; split <;> simp
@[simp] theorem Module.noteLight_fars (w : Nat) : (m.noteLight w).fars = m.fars := by
  unfold Module.noteLight; split <;> simp
@[simp] theorem Module.noteLight_slow (w : Nat) : (m.noteLight w).slow = m.slow := by
  unfold Module.noteLight; split <;> simp
@[simp] theorem Module.noteLight_net (w : Nat) : (m.noteLight w).net = m.net := by
  unfold Module.noteLight; split <;> simp
@[simp] theorem Module.noteLight_ctl (w : Nat) : (m.noteLight w).ctl = m.ctl := by
  unfold Module.noteLight; split <;> simp
@[simp] theorem Module.noteLight_qos (w : Nat) : (m.noteLight w).qos = m.qos := by
  unfold Module.noteLight; split <;> simp
@[simp] theorem Module.noteLight_plat (w : Nat) : (m.noteLight w).plat = m.plat := by
  unfold Module.noteLight; split <;> simp
@[simp] theorem Module.noteLight_platLoaded (w : Nat) : (m.noteLight w).platLoaded = m.platLoaded := by
  unfold Module.noteLight; split <;> simp
@[simp] theorem Module.noteLight_codes (w : Nat) : (m.noteLight w).codes = m.codes := by
  unfold Module.noteLight; split <;> simp
@[simp] theorem Module.noteLight_resetting (w : Nat) : (m.noteLight w).resetting = m.resetting := by
  unfold Module.noteLight; split <;> simp
@[simp] theorem Module.noteLight_links (w : Nat) : (m.noteLight w).links = m.links := by
  unfold Module.noteLight; split <;> simp
@[simp] theorem Module.noteLight_ports (w : Nat) : (m.noteLight w).ports = m.ports := by
  unfold Module.noteLight; split <;> simp
@[simp] theorem Module.noteLight_dat (w : Nat) : (m.noteLight w).dat = m.dat := by
  unfold Module.noteLight; split <;> simp
@[simp] theorem Module.noteLight_lockLost (w : Nat) : (m.noteLight w).lockLost = m.lockLost := by
  unfold Module.noteLight; split <;> simp
@[simp] theorem Module.noteLight_fuses (w : Nat) : (m.noteLight w).fuses = m.fuses := by
  unfold Module.noteLight; split <;> simp
@[simp] theorem Module.noteLight_fns (w : Nat) : (m.noteLight w).fns = m.fns := by
  unfold Module.noteLight; split <;> simp
@[simp] theorem Module.noteLight_arqs (w : Nat) : (m.noteLight w).arqs = m.arqs := by
  unfold Module.noteLight; split <;> simp
@[simp] theorem Module.noteLight_dpqs (w : Nat) : (m.noteLight w).dpqs = m.dpqs := by
  unfold Module.noteLight; split <;> simp
@[simp] theorem Module.noteLight_counters (w : Nat) : (m.noteLight w).counters = m.counters := by
  unfold Module.noteLight; split <;> simp
@[simp] theorem Module.noteLight_datum (w : Nat) : (m.noteLight w).datum = m.datum := by
  unfold Module.noteLight; split <;> simp
@[simp] theorem Module.noteLight_now (w : Nat) : (m.noteLight w).now = m.now := by
  unfold Module.noteLight; split <;> simp
@[simp] theorem Module.noteLight_freeCtr (w : Nat) : (m.noteLight w).freeCtr = m.freeCtr := by
  unfold Module.noteLight; split <;> simp
@[simp] theorem Module.noteLight_outbox (w : Nat) : (m.noteLight w).outbox = m.outbox := by
  unfold Module.noteLight; split <;> simp

/-! ### `noteSlow` -/

@[simp] theorem Module.noteSlow_mem (w : Nat) : (m.noteSlow w).mem = m.mem := by
  unfold Module.noteSlow; dsimp only; split <;> split <;> (try split) <;> simp
@[simp] theorem Module.noteSlow_poison (w : Nat) : (m.noteSlow w).poison = m.poison := by
  unfold Module.noteSlow; dsimp only; split <;> split <;> (try split) <;> simp
@[simp] theorem Module.noteSlow_scrErr (w : Nat) : (m.noteSlow w).scrErr = m.scrErr := by
  unfold Module.noteSlow; dsimp only; split <;> split <;> (try split) <;> simp
@[simp] theorem Module.noteSlow_wordErr (w : Nat) : (m.noteSlow w).wordErr = m.wordErr := by
  unfold Module.noteSlow; dsimp only; split <;> split <;> (try split) <;> simp
@[simp] theorem Module.noteSlow_ckErr (w : Nat) : (m.noteSlow w).ckErr = m.ckErr := by
  unfold Module.noteSlow; dsimp only; split <;> split <;> (try split) <;> simp
@[simp] theorem Module.noteSlow_ckOff (w : Nat) : (m.noteSlow w).ckOff = m.ckOff := by
  unfold Module.noteSlow; dsimp only; split <;> split <;> (try split) <;> simp
@[simp] theorem Module.noteSlow_nearLost (w : Nat) : (m.noteSlow w).nearLost = m.nearLost := by
  unfold Module.noteSlow; dsimp only; split <;> split <;> (try split) <;> simp
@[simp] theorem Module.noteSlow_cores (w : Nat) : (m.noteSlow w).cores = m.cores := by
  unfold Module.noteSlow; dsimp only; split <;> split <;> (try split) <;> simp
@[simp] theorem Module.noteSlow_slices (w : Nat) : (m.noteSlow w).slices = m.slices := by
  unfold Module.noteSlow; dsimp only; split <;> split <;> (try split) <;> simp
@[simp] theorem Module.noteSlow_fars (w : Nat) : (m.noteSlow w).fars = m.fars := by
  unfold Module.noteSlow; dsimp only; split <;> split <;> (try split) <;> simp
@[simp] theorem Module.noteSlow_slow (w : Nat) : (m.noteSlow w).slow = m.slow := by
  unfold Module.noteSlow; dsimp only; split <;> split <;> (try split) <;> simp
@[simp] theorem Module.noteSlow_net (w : Nat) : (m.noteSlow w).net = m.net := by
  unfold Module.noteSlow; dsimp only; split <;> split <;> (try split) <;> simp
@[simp] theorem Module.noteSlow_ctl (w : Nat) : (m.noteSlow w).ctl = m.ctl := by
  unfold Module.noteSlow; dsimp only; split <;> split <;> (try split) <;> simp
@[simp] theorem Module.noteSlow_qos (w : Nat) : (m.noteSlow w).qos = m.qos := by
  unfold Module.noteSlow; dsimp only; split <;> split <;> (try split) <;> simp
@[simp] theorem Module.noteSlow_plat (w : Nat) : (m.noteSlow w).plat = m.plat := by
  unfold Module.noteSlow; dsimp only; split <;> split <;> (try split) <;> simp
@[simp] theorem Module.noteSlow_platLoaded (w : Nat) : (m.noteSlow w).platLoaded = m.platLoaded := by
  unfold Module.noteSlow; dsimp only; split <;> split <;> (try split) <;> simp
@[simp] theorem Module.noteSlow_codes (w : Nat) : (m.noteSlow w).codes = m.codes := by
  unfold Module.noteSlow; dsimp only; split <;> split <;> (try split) <;> simp
@[simp] theorem Module.noteSlow_resetting (w : Nat) : (m.noteSlow w).resetting = m.resetting := by
  unfold Module.noteSlow; dsimp only; split <;> split <;> (try split) <;> simp
@[simp] theorem Module.noteSlow_links (w : Nat) : (m.noteSlow w).links = m.links := by
  unfold Module.noteSlow; dsimp only; split <;> split <;> (try split) <;> simp
@[simp] theorem Module.noteSlow_ports (w : Nat) : (m.noteSlow w).ports = m.ports := by
  unfold Module.noteSlow; dsimp only; split <;> split <;> (try split) <;> simp
@[simp] theorem Module.noteSlow_dat (w : Nat) : (m.noteSlow w).dat = m.dat := by
  unfold Module.noteSlow; dsimp only; split <;> split <;> (try split) <;> simp
@[simp] theorem Module.noteSlow_lockLost (w : Nat) : (m.noteSlow w).lockLost = m.lockLost := by
  unfold Module.noteSlow; dsimp only; split <;> split <;> (try split) <;> simp
@[simp] theorem Module.noteSlow_fuses (w : Nat) : (m.noteSlow w).fuses = m.fuses := by
  unfold Module.noteSlow; dsimp only; split <;> split <;> (try split) <;> simp
@[simp] theorem Module.noteSlow_fns (w : Nat) : (m.noteSlow w).fns = m.fns := by
  unfold Module.noteSlow; dsimp only; split <;> split <;> (try split) <;> simp
@[simp] theorem Module.noteSlow_arqs (w : Nat) : (m.noteSlow w).arqs = m.arqs := by
  unfold Module.noteSlow; dsimp only; split <;> split <;> (try split) <;> simp
@[simp] theorem Module.noteSlow_dpqs (w : Nat) : (m.noteSlow w).dpqs = m.dpqs := by
  unfold Module.noteSlow; dsimp only; split <;> split <;> (try split) <;> simp
@[simp] theorem Module.noteSlow_counters (w : Nat) : (m.noteSlow w).counters = m.counters := by
  unfold Module.noteSlow; dsimp only; split <;> split <;> (try split) <;> simp
@[simp] theorem Module.noteSlow_datum (w : Nat) : (m.noteSlow w).datum = m.datum := by
  unfold Module.noteSlow; dsimp only; split <;> split <;> (try split) <;> simp
@[simp] theorem Module.noteSlow_now (w : Nat) : (m.noteSlow w).now = m.now := by
  unfold Module.noteSlow; dsimp only; split <;> split <;> (try split) <;> simp
@[simp] theorem Module.noteSlow_freeCtr (w : Nat) : (m.noteSlow w).freeCtr = m.freeCtr := by
  unfold Module.noteSlow; dsimp only; split <;> split <;> (try split) <;> simp
@[simp] theorem Module.noteSlow_outbox (w : Nat) : (m.noteSlow w).outbox = m.outbox := by
  unfold Module.noteSlow; dsimp only; split <;> split <;> (try split) <;> simp

/-! ### `noteWord` -/

@[simp] theorem Module.noteWord_mem (w : Nat) (ran : Bool) : (m.noteWord w ran).mem = m.mem := by
  unfold Module.noteWord; dsimp only; repeat' split
  all_goals simp
@[simp] theorem Module.noteWord_poison (w : Nat) (ran : Bool) : (m.noteWord w ran).poison = m.poison := by
  unfold Module.noteWord; dsimp only; repeat' split
  all_goals simp
@[simp] theorem Module.noteWord_scrErr (w : Nat) (ran : Bool) : (m.noteWord w ran).scrErr = m.scrErr := by
  unfold Module.noteWord; dsimp only; repeat' split
  all_goals simp
@[simp] theorem Module.noteWord_wordErr (w : Nat) (ran : Bool) : (m.noteWord w ran).wordErr = m.wordErr := by
  unfold Module.noteWord; dsimp only; repeat' split
  all_goals simp
@[simp] theorem Module.noteWord_ckErr (w : Nat) (ran : Bool) : (m.noteWord w ran).ckErr = m.ckErr := by
  unfold Module.noteWord; dsimp only; repeat' split
  all_goals simp
@[simp] theorem Module.noteWord_ckOff (w : Nat) (ran : Bool) : (m.noteWord w ran).ckOff = m.ckOff := by
  unfold Module.noteWord; dsimp only; repeat' split
  all_goals simp
@[simp] theorem Module.noteWord_nearLost (w : Nat) (ran : Bool) : (m.noteWord w ran).nearLost = m.nearLost := by
  unfold Module.noteWord; dsimp only; repeat' split
  all_goals simp
@[simp] theorem Module.noteWord_cores (w : Nat) (ran : Bool) : (m.noteWord w ran).cores = m.cores := by
  unfold Module.noteWord; dsimp only; repeat' split
  all_goals simp
@[simp] theorem Module.noteWord_slices (w : Nat) (ran : Bool) : (m.noteWord w ran).slices = m.slices := by
  unfold Module.noteWord; dsimp only; repeat' split
  all_goals simp
@[simp] theorem Module.noteWord_fars (w : Nat) (ran : Bool) : (m.noteWord w ran).fars = m.fars := by
  unfold Module.noteWord; dsimp only; repeat' split
  all_goals simp
@[simp] theorem Module.noteWord_slow (w : Nat) (ran : Bool) : (m.noteWord w ran).slow = m.slow := by
  unfold Module.noteWord; dsimp only; repeat' split
  all_goals simp
@[simp] theorem Module.noteWord_net (w : Nat) (ran : Bool) : (m.noteWord w ran).net = m.net := by
  unfold Module.noteWord; dsimp only; repeat' split
  all_goals simp
@[simp] theorem Module.noteWord_ctl (w : Nat) (ran : Bool) : (m.noteWord w ran).ctl = m.ctl := by
  unfold Module.noteWord; dsimp only; repeat' split
  all_goals simp
@[simp] theorem Module.noteWord_qos (w : Nat) (ran : Bool) : (m.noteWord w ran).qos = m.qos := by
  unfold Module.noteWord; dsimp only; repeat' split
  all_goals simp
@[simp] theorem Module.noteWord_plat (w : Nat) (ran : Bool) : (m.noteWord w ran).plat = m.plat := by
  unfold Module.noteWord; dsimp only; repeat' split
  all_goals simp
@[simp] theorem Module.noteWord_platLoaded (w : Nat) (ran : Bool) : (m.noteWord w ran).platLoaded = m.platLoaded := by
  unfold Module.noteWord; dsimp only; repeat' split
  all_goals simp
@[simp] theorem Module.noteWord_codes (w : Nat) (ran : Bool) : (m.noteWord w ran).codes = m.codes := by
  unfold Module.noteWord; dsimp only; repeat' split
  all_goals simp
@[simp] theorem Module.noteWord_resetting (w : Nat) (ran : Bool) : (m.noteWord w ran).resetting = m.resetting := by
  unfold Module.noteWord; dsimp only; repeat' split
  all_goals simp
@[simp] theorem Module.noteWord_links (w : Nat) (ran : Bool) : (m.noteWord w ran).links = m.links := by
  unfold Module.noteWord; dsimp only; repeat' split
  all_goals simp
@[simp] theorem Module.noteWord_ports (w : Nat) (ran : Bool) : (m.noteWord w ran).ports = m.ports := by
  unfold Module.noteWord; dsimp only; repeat' split
  all_goals simp
@[simp] theorem Module.noteWord_dat (w : Nat) (ran : Bool) : (m.noteWord w ran).dat = m.dat := by
  unfold Module.noteWord; dsimp only; repeat' split
  all_goals simp
@[simp] theorem Module.noteWord_lockLost (w : Nat) (ran : Bool) : (m.noteWord w ran).lockLost = m.lockLost := by
  unfold Module.noteWord; dsimp only; repeat' split
  all_goals simp
@[simp] theorem Module.noteWord_fuses (w : Nat) (ran : Bool) : (m.noteWord w ran).fuses = m.fuses := by
  unfold Module.noteWord; dsimp only; repeat' split
  all_goals simp
@[simp] theorem Module.noteWord_fns (w : Nat) (ran : Bool) : (m.noteWord w ran).fns = m.fns := by
  unfold Module.noteWord; dsimp only; repeat' split
  all_goals simp
@[simp] theorem Module.noteWord_arqs (w : Nat) (ran : Bool) : (m.noteWord w ran).arqs = m.arqs := by
  unfold Module.noteWord; dsimp only; repeat' split
  all_goals simp
@[simp] theorem Module.noteWord_dpqs (w : Nat) (ran : Bool) : (m.noteWord w ran).dpqs = m.dpqs := by
  unfold Module.noteWord; dsimp only; repeat' split
  all_goals simp
@[simp] theorem Module.noteWord_counters (w : Nat) (ran : Bool) : (m.noteWord w ran).counters = m.counters := by
  unfold Module.noteWord; dsimp only; repeat' split
  all_goals simp
@[simp] theorem Module.noteWord_datum (w : Nat) (ran : Bool) : (m.noteWord w ran).datum = m.datum := by
  unfold Module.noteWord; dsimp only; repeat' split
  all_goals simp
@[simp] theorem Module.noteWord_now (w : Nat) (ran : Bool) : (m.noteWord w ran).now = m.now := by
  unfold Module.noteWord; dsimp only; repeat' split
  all_goals simp
@[simp] theorem Module.noteWord_freeCtr (w : Nat) (ran : Bool) : (m.noteWord w ran).freeCtr = m.freeCtr := by
  unfold Module.noteWord; dsimp only; repeat' split
  all_goals simp
@[simp] theorem Module.noteWord_outbox (w : Nat) (ran : Bool) : (m.noteWord w ran).outbox = m.outbox := by
  unfold Module.noteWord; dsimp only; repeat' split
  all_goals simp

/-! ### `pushCtl` -/

@[simp] theorem Module.pushCtl_mem (c : Nat) (x : CtlMsg) : (m.pushCtl c x).mem = m.mem := by
  unfold Module.pushCtl; dsimp only; repeat' split
  all_goals simp
@[simp] theorem Module.pushCtl_poison (c : Nat) (x : CtlMsg) : (m.pushCtl c x).poison = m.poison := by
  unfold Module.pushCtl; dsimp only; repeat' split
  all_goals simp
@[simp] theorem Module.pushCtl_scrErr (c : Nat) (x : CtlMsg) : (m.pushCtl c x).scrErr = m.scrErr := by
  unfold Module.pushCtl; dsimp only; repeat' split
  all_goals simp
@[simp] theorem Module.pushCtl_wordErr (c : Nat) (x : CtlMsg) : (m.pushCtl c x).wordErr = m.wordErr := by
  unfold Module.pushCtl; dsimp only; repeat' split
  all_goals simp
@[simp] theorem Module.pushCtl_ckErr (c : Nat) (x : CtlMsg) : (m.pushCtl c x).ckErr = m.ckErr := by
  unfold Module.pushCtl; dsimp only; repeat' split
  all_goals simp
@[simp] theorem Module.pushCtl_ckOff (c : Nat) (x : CtlMsg) : (m.pushCtl c x).ckOff = m.ckOff := by
  unfold Module.pushCtl; dsimp only; repeat' split
  all_goals simp
@[simp] theorem Module.pushCtl_nearLost (c : Nat) (x : CtlMsg) : (m.pushCtl c x).nearLost = m.nearLost := by
  unfold Module.pushCtl; dsimp only; repeat' split
  all_goals simp
@[simp] theorem Module.pushCtl_cores (c : Nat) (x : CtlMsg) : (m.pushCtl c x).cores = m.cores := by
  unfold Module.pushCtl; dsimp only; repeat' split
  all_goals simp
@[simp] theorem Module.pushCtl_slices (c : Nat) (x : CtlMsg) : (m.pushCtl c x).slices = m.slices := by
  unfold Module.pushCtl; dsimp only; repeat' split
  all_goals simp
@[simp] theorem Module.pushCtl_fars (c : Nat) (x : CtlMsg) : (m.pushCtl c x).fars = m.fars := by
  unfold Module.pushCtl; dsimp only; repeat' split
  all_goals simp
@[simp] theorem Module.pushCtl_slow (c : Nat) (x : CtlMsg) : (m.pushCtl c x).slow = m.slow := by
  unfold Module.pushCtl; dsimp only; repeat' split
  all_goals simp
@[simp] theorem Module.pushCtl_net (c : Nat) (x : CtlMsg) : (m.pushCtl c x).net = m.net := by
  unfold Module.pushCtl; dsimp only; repeat' split
  all_goals simp
@[simp] theorem Module.pushCtl_qos (c : Nat) (x : CtlMsg) : (m.pushCtl c x).qos = m.qos := by
  unfold Module.pushCtl; dsimp only; repeat' split
  all_goals simp
@[simp] theorem Module.pushCtl_plat (c : Nat) (x : CtlMsg) : (m.pushCtl c x).plat = m.plat := by
  unfold Module.pushCtl; dsimp only; repeat' split
  all_goals simp
@[simp] theorem Module.pushCtl_platLoaded (c : Nat) (x : CtlMsg) : (m.pushCtl c x).platLoaded = m.platLoaded := by
  unfold Module.pushCtl; dsimp only; repeat' split
  all_goals simp
@[simp] theorem Module.pushCtl_codes (c : Nat) (x : CtlMsg) : (m.pushCtl c x).codes = m.codes := by
  unfold Module.pushCtl; dsimp only; repeat' split
  all_goals simp
@[simp] theorem Module.pushCtl_resetting (c : Nat) (x : CtlMsg) : (m.pushCtl c x).resetting = m.resetting := by
  unfold Module.pushCtl; dsimp only; repeat' split
  all_goals simp
@[simp] theorem Module.pushCtl_obs (c : Nat) (x : CtlMsg) : (m.pushCtl c x).obs = m.obs := by
  unfold Module.pushCtl; dsimp only; repeat' split
  all_goals simp
@[simp] theorem Module.pushCtl_links (c : Nat) (x : CtlMsg) : (m.pushCtl c x).links = m.links := by
  unfold Module.pushCtl; dsimp only; repeat' split
  all_goals simp
@[simp] theorem Module.pushCtl_ports (c : Nat) (x : CtlMsg) : (m.pushCtl c x).ports = m.ports := by
  unfold Module.pushCtl; dsimp only; repeat' split
  all_goals simp
@[simp] theorem Module.pushCtl_dat (c : Nat) (x : CtlMsg) : (m.pushCtl c x).dat = m.dat := by
  unfold Module.pushCtl; dsimp only; repeat' split
  all_goals simp
@[simp] theorem Module.pushCtl_lockLost (c : Nat) (x : CtlMsg) : (m.pushCtl c x).lockLost = m.lockLost := by
  unfold Module.pushCtl; dsimp only; repeat' split
  all_goals simp
@[simp] theorem Module.pushCtl_fuses (c : Nat) (x : CtlMsg) : (m.pushCtl c x).fuses = m.fuses := by
  unfold Module.pushCtl; dsimp only; repeat' split
  all_goals simp
@[simp] theorem Module.pushCtl_fns (c : Nat) (x : CtlMsg) : (m.pushCtl c x).fns = m.fns := by
  unfold Module.pushCtl; dsimp only; repeat' split
  all_goals simp
@[simp] theorem Module.pushCtl_arqs (c : Nat) (x : CtlMsg) : (m.pushCtl c x).arqs = m.arqs := by
  unfold Module.pushCtl; dsimp only; repeat' split
  all_goals simp
@[simp] theorem Module.pushCtl_dpqs (c : Nat) (x : CtlMsg) : (m.pushCtl c x).dpqs = m.dpqs := by
  unfold Module.pushCtl; dsimp only; repeat' split
  all_goals simp
@[simp] theorem Module.pushCtl_counters (c : Nat) (x : CtlMsg) : (m.pushCtl c x).counters = m.counters := by
  unfold Module.pushCtl; dsimp only; repeat' split
  all_goals simp
@[simp] theorem Module.pushCtl_datum (c : Nat) (x : CtlMsg) : (m.pushCtl c x).datum = m.datum := by
  unfold Module.pushCtl; dsimp only; repeat' split
  all_goals simp
@[simp] theorem Module.pushCtl_now (c : Nat) (x : CtlMsg) : (m.pushCtl c x).now = m.now := by
  unfold Module.pushCtl; dsimp only; repeat' split
  all_goals simp
@[simp] theorem Module.pushCtl_freeCtr (c : Nat) (x : CtlMsg) : (m.pushCtl c x).freeCtr = m.freeCtr := by
  unfold Module.pushCtl; dsimp only; repeat' split
  all_goals simp
@[simp] theorem Module.pushCtl_outbox (c : Nat) (x : CtlMsg) : (m.pushCtl c x).outbox = m.outbox := by
  unfold Module.pushCtl; dsimp only; repeat' split
  all_goals simp

/-! ### `coreFault` -/

@[simp] theorem Module.coreFault_mem (c fault engine sts : Nat) (pc : DWord) : (m.coreFault c fault engine sts pc).mem = m.mem := by
  unfold Module.coreFault; dsimp only; split <;> simp
@[simp] theorem Module.coreFault_poison (c fault engine sts : Nat) (pc : DWord) : (m.coreFault c fault engine sts pc).poison = m.poison := by
  unfold Module.coreFault; dsimp only; split <;> simp
@[simp] theorem Module.coreFault_scrErr (c fault engine sts : Nat) (pc : DWord) : (m.coreFault c fault engine sts pc).scrErr = m.scrErr := by
  unfold Module.coreFault; dsimp only; split <;> simp
@[simp] theorem Module.coreFault_wordErr (c fault engine sts : Nat) (pc : DWord) : (m.coreFault c fault engine sts pc).wordErr = m.wordErr := by
  unfold Module.coreFault; dsimp only; split <;> simp
@[simp] theorem Module.coreFault_ckErr (c fault engine sts : Nat) (pc : DWord) : (m.coreFault c fault engine sts pc).ckErr = m.ckErr := by
  unfold Module.coreFault; dsimp only; split <;> simp
@[simp] theorem Module.coreFault_ckOff (c fault engine sts : Nat) (pc : DWord) : (m.coreFault c fault engine sts pc).ckOff = m.ckOff := by
  unfold Module.coreFault; dsimp only; split <;> simp
@[simp] theorem Module.coreFault_nearLost (c fault engine sts : Nat) (pc : DWord) : (m.coreFault c fault engine sts pc).nearLost = m.nearLost := by
  unfold Module.coreFault; dsimp only; split <;> simp
@[simp] theorem Module.coreFault_slices (c fault engine sts : Nat) (pc : DWord) : (m.coreFault c fault engine sts pc).slices = m.slices := by
  unfold Module.coreFault; dsimp only; split <;> simp
@[simp] theorem Module.coreFault_fars (c fault engine sts : Nat) (pc : DWord) : (m.coreFault c fault engine sts pc).fars = m.fars := by
  unfold Module.coreFault; dsimp only; split <;> simp
@[simp] theorem Module.coreFault_slow (c fault engine sts : Nat) (pc : DWord) : (m.coreFault c fault engine sts pc).slow = m.slow := by
  unfold Module.coreFault; dsimp only; split <;> simp
@[simp] theorem Module.coreFault_net (c fault engine sts : Nat) (pc : DWord) : (m.coreFault c fault engine sts pc).net = m.net := by
  unfold Module.coreFault; dsimp only; split <;> simp
@[simp] theorem Module.coreFault_qos (c fault engine sts : Nat) (pc : DWord) : (m.coreFault c fault engine sts pc).qos = m.qos := by
  unfold Module.coreFault; dsimp only; split <;> simp
@[simp] theorem Module.coreFault_plat (c fault engine sts : Nat) (pc : DWord) : (m.coreFault c fault engine sts pc).plat = m.plat := by
  unfold Module.coreFault; dsimp only; split <;> simp
@[simp] theorem Module.coreFault_platLoaded (c fault engine sts : Nat) (pc : DWord) : (m.coreFault c fault engine sts pc).platLoaded = m.platLoaded := by
  unfold Module.coreFault; dsimp only; split <;> simp
@[simp] theorem Module.coreFault_codes (c fault engine sts : Nat) (pc : DWord) : (m.coreFault c fault engine sts pc).codes = m.codes := by
  unfold Module.coreFault; dsimp only; split <;> simp
@[simp] theorem Module.coreFault_resetting (c fault engine sts : Nat) (pc : DWord) : (m.coreFault c fault engine sts pc).resetting = m.resetting := by
  unfold Module.coreFault; dsimp only; split <;> simp
@[simp] theorem Module.coreFault_links (c fault engine sts : Nat) (pc : DWord) : (m.coreFault c fault engine sts pc).links = m.links := by
  unfold Module.coreFault; dsimp only; split <;> simp
@[simp] theorem Module.coreFault_ports (c fault engine sts : Nat) (pc : DWord) : (m.coreFault c fault engine sts pc).ports = m.ports := by
  unfold Module.coreFault; dsimp only; split <;> simp
@[simp] theorem Module.coreFault_dat (c fault engine sts : Nat) (pc : DWord) : (m.coreFault c fault engine sts pc).dat = m.dat := by
  unfold Module.coreFault; dsimp only; split <;> simp
@[simp] theorem Module.coreFault_lockLost (c fault engine sts : Nat) (pc : DWord) : (m.coreFault c fault engine sts pc).lockLost = m.lockLost := by
  unfold Module.coreFault; dsimp only; split <;> simp
@[simp] theorem Module.coreFault_fuses (c fault engine sts : Nat) (pc : DWord) : (m.coreFault c fault engine sts pc).fuses = m.fuses := by
  unfold Module.coreFault; dsimp only; split <;> simp
@[simp] theorem Module.coreFault_fns (c fault engine sts : Nat) (pc : DWord) : (m.coreFault c fault engine sts pc).fns = m.fns := by
  unfold Module.coreFault; dsimp only; split <;> simp
@[simp] theorem Module.coreFault_arqs (c fault engine sts : Nat) (pc : DWord) : (m.coreFault c fault engine sts pc).arqs = m.arqs := by
  unfold Module.coreFault; dsimp only; split <;> simp
@[simp] theorem Module.coreFault_dpqs (c fault engine sts : Nat) (pc : DWord) : (m.coreFault c fault engine sts pc).dpqs = m.dpqs := by
  unfold Module.coreFault; dsimp only; split <;> simp
@[simp] theorem Module.coreFault_counters (c fault engine sts : Nat) (pc : DWord) : (m.coreFault c fault engine sts pc).counters = m.counters := by
  unfold Module.coreFault; dsimp only; split <;> simp
@[simp] theorem Module.coreFault_datum (c fault engine sts : Nat) (pc : DWord) : (m.coreFault c fault engine sts pc).datum = m.datum := by
  unfold Module.coreFault; dsimp only; split <;> simp
@[simp] theorem Module.coreFault_now (c fault engine sts : Nat) (pc : DWord) : (m.coreFault c fault engine sts pc).now = m.now := by
  unfold Module.coreFault; dsimp only; split <;> simp
@[simp] theorem Module.coreFault_freeCtr (c fault engine sts : Nat) (pc : DWord) : (m.coreFault c fault engine sts pc).freeCtr = m.freeCtr := by
  unfold Module.coreFault; dsimp only; split <;> simp
@[simp] theorem Module.coreFault_outbox (c fault engine sts : Nat) (pc : DWord) : (m.coreFault c fault engine sts pc).outbox = m.outbox := by
  unfold Module.coreFault; dsimp only; split <;> simp

end Sys2Proof.Machine
end

