-- ==== Sys2Proof/Laws/Tbl.lean ====
section
/-! SUPPORT. Sparse tables and sets: what a read gives after a write, and that every update keeps the canonical form. -/

namespace Sys2Proof.Machine

variable {α : Type} [DecidableEq α] {d : α}

theorem Tbl.get_below {t : Tbl α} {lo i : Nat} (h : Tbl.sortedFrom d lo t = true) (hi : i < lo) : Tbl.get d t i = d := by
  induction t generalizing lo with
  | nil => rfl
  | cons p t ih =>
    obtain ⟨k, v⟩ := p
    simp only [Tbl.sortedFrom, Bool.and_eq_true, decide_eq_true_eq] at h
    rw [Tbl.get, if_neg (by omega)]
    exact ih h.2 (by omega)

theorem Tbl.sortedFrom_mono {t : Tbl α} {lo lo' : Nat} (h : Tbl.sortedFrom d lo t = true) (hl : lo' ≤ lo) :
    Tbl.sortedFrom d lo' t = true := by
  cases t with
  | nil => rfl
  | cons p t =>
    simp only [Tbl.sortedFrom, Bool.and_eq_true, decide_eq_true_eq] at h ⊢
    exact ⟨⟨by omega, h.1.2⟩, h.2⟩

omit [DecidableEq α] in
theorem Tbl.get_put (t : Tbl α) (i j : Nat) (x : α) : Tbl.get d (Tbl.put t i x) j = if j = i then x else Tbl.get d t j := by
  induction t with
  | nil => by_cases h : j = i <;> simp [Tbl.put, Tbl.get, h]
  | cons p t ih =>
    obtain ⟨k, v⟩ := p
    simp only [Tbl.put]
    split
    · by_cases h : j = i <;> simp [Tbl.get, h]
    · split
      · subst_vars
        by_cases h : j = k <;> simp [Tbl.get, h]
      · by_cases h : j = k
        · subst h
          simp only [Tbl.get, if_true]
          rw [if_neg (by omega)]
        · simp only [Tbl.get, h, if_false, ih]

omit [DecidableEq α] in
theorem Tbl.get_drop (t : Tbl α) (i j : Nat) : Tbl.get d (Tbl.drop t i) j = if j = i then d else Tbl.get d t j := by
  induction t with
  | nil => simp [Tbl.drop, Tbl.get]
  | cons p t ih =>
    obtain ⟨k, v⟩ := p
    simp only [Tbl.drop]
    split
    · subst_vars
      rw [ih]
      by_cases hj : j = k <;> simp [Tbl.get, hj]
    · rename_i hk
      by_cases hj : j = k
      · subst hj
        simp only [Tbl.get, if_true]
        rw [if_neg (by omega)]
      · simp only [Tbl.get, hj, if_false, ih]

/-- After a write of a key a table reads the value written there, and elsewhere what it read before. -/
theorem Tbl.get_set (t : Tbl α) (i j : Nat) (x : α) : Tbl.get d (Tbl.set d t i x) j = if j = i then x else Tbl.get d t j := by
  unfold Tbl.set
  split
  · subst_vars
    exact Tbl.get_drop t i j
  · exact Tbl.get_put t i j x

@[simp] theorem Tbl.get_set_self (t : Tbl α) (i : Nat) (x : α) : Tbl.get d (Tbl.set d t i x) i = x := by simp [Tbl.get_set]

theorem Tbl.get_set_ne (t : Tbl α) {i j : Nat} (h : j ≠ i) (x : α) : Tbl.get d (Tbl.set d t i x) j = Tbl.get d t j := by
  simp [Tbl.get_set, h]

theorem Tbl.sortedFrom_put {t : Tbl α} {lo i : Nat} {x : α} (h : Tbl.sortedFrom d lo t = true) (hi : lo ≤ i) (hx : x ≠ d) :
    Tbl.sortedFrom d lo (Tbl.put t i x) = true := by
  induction t generalizing lo with
  | nil => simp [Tbl.put, Tbl.sortedFrom, hi, hx]
  | cons p t ih =>
    obtain ⟨k, v⟩ := p
    simp only [Tbl.sortedFrom, Bool.and_eq_true, decide_eq_true_eq] at h
    simp only [Tbl.put]
    split
    · simp only [Tbl.sortedFrom, Bool.and_eq_true, decide_eq_true_eq]
      exact ⟨⟨hi, hx⟩, ⟨by omega, h.1.2⟩, h.2⟩
    · split
      · subst_vars
        simp only [Tbl.sortedFrom, Bool.and_eq_true, decide_eq_true_eq]
        exact ⟨⟨hi, hx⟩, h.2⟩
      · simp only [Tbl.sortedFrom, Bool.and_eq_true, decide_eq_true_eq]
        exact ⟨h.1, ih h.2 (by omega)⟩

theorem Tbl.sortedFrom_drop {t : Tbl α} {lo i : Nat} (h : Tbl.sortedFrom d lo t = true) : Tbl.sortedFrom d lo (Tbl.drop t i) = true := by
  induction t generalizing lo with
  | nil => rfl
  | cons p t ih =>
    obtain ⟨k, v⟩ := p
    simp only [Tbl.sortedFrom, Bool.and_eq_true, decide_eq_true_eq] at h
    simp only [Tbl.drop]
    split
    · exact Tbl.sortedFrom_mono (ih h.2) (by omega)
    · simp only [Tbl.sortedFrom, Bool.and_eq_true, decide_eq_true_eq]
      exact ⟨h.1, ih h.2⟩

/-- A write keeps a table canonical. -/
theorem Tbl.wf_set {t : Tbl α} (h : Tbl.wf d t = true) (i : Nat) (x : α) : Tbl.wf d (Tbl.set d t i x) = true := by
  unfold Tbl.set
  split
  · exact Tbl.sortedFrom_drop h
  · exact Tbl.sortedFrom_put h (Nat.zero_le _) ‹_›

theorem Tbl.wf_upd {t : Tbl α} (h : Tbl.wf d t = true) (i : Nat) (f : α → α) : Tbl.wf d (Tbl.upd d t i f) = true := Tbl.wf_set h i _

theorem Tbl.wf_foldl_set {β : Type} {t : Tbl α} (h : Tbl.wf d t = true) (l : List β) (key : β → Nat) (val : Tbl α → β → α) :
    Tbl.wf d (l.foldl (fun t b => Tbl.set d t (key b) (val t b)) t) = true := by
  induction l generalizing t with
  | nil => exact h
  | cons b l ih => exact ih (Tbl.wf_set h _ _)

theorem NSet.sortedFrom_mono {s : NSet} {lo lo' : Nat} (h : NSet.sortedFrom lo s = true) (hl : lo' ≤ lo) : NSet.sortedFrom lo' s = true := by
  cases s with
  | nil => rfl
  | cons k s =>
    simp only [NSet.sortedFrom, Bool.and_eq_true, decide_eq_true_eq] at h ⊢
    exact ⟨by omega, h.2⟩

theorem NSet.not_mem_below {s : NSet} {lo i : Nat} (h : NSet.sortedFrom lo s = true) (hi : i < lo) : i ∉ s := by
  induction s generalizing lo with
  | nil => exact List.not_mem_nil
  | cons k s ih =>
    simp only [NSet.sortedFrom, Bool.and_eq_true, decide_eq_true_eq] at h
    simp only [List.mem_cons, not_or]
    exact ⟨by omega, ih h.2 (by omega)⟩

theorem NSet.mem_insert (s : NSet) (i j : Nat) : j ∈ NSet.insert s i ↔ j = i ∨ j ∈ s := by
  induction s with
  | nil => simp [NSet.insert]
  | cons k s ih =>
    simp only [NSet.insert]
    split
    · simp
    · split
      · subst_vars; simp
      · simp only [List.mem_cons, ih]
        constructor
        · rintro (a | a | a)
          · exact .inr (.inl a)
          · exact .inl a
          · exact .inr (.inr a)
        · rintro (a | a | a)
          · exact .inr (.inl a)
          · exact .inl a
          · exact .inr (.inr a)

theorem NSet.mem_erase (s : NSet) (i j : Nat) : j ∈ NSet.erase s i ↔ j ≠ i ∧ j ∈ s := by
  induction s with
  | nil => simp [NSet.erase]
  | cons k s ih =>
    simp only [NSet.erase]
    split
    · rename_i e
      subst e
      simp only [ih, List.mem_cons]
      constructor
      · rintro ⟨a, b⟩; exact ⟨a, .inr b⟩
      · rintro ⟨a, rfl | b⟩
        · exact absurd rfl a
        · exact ⟨a, b⟩
    · simp only [List.mem_cons, ih]
      constructor
      · rintro (rfl | ⟨a, b⟩)
        · exact ⟨by omega, .inl rfl⟩
        · exact ⟨a, .inr b⟩
      · rintro ⟨a, rfl | b⟩
        · exact .inl rfl
        · exact .inr ⟨a, b⟩

theorem NSet.sortedFrom_insert {s : NSet} {lo i : Nat} (h : NSet.sortedFrom lo s = true) (hi : lo ≤ i) :
    NSet.sortedFrom lo (NSet.insert s i) = true := by
  induction s generalizing lo with
  | nil => simp [NSet.insert, NSet.sortedFrom, hi]
  | cons k s ih =>
    have h' := h
    simp only [NSet.sortedFrom, Bool.and_eq_true, decide_eq_true_eq] at h
    simp only [NSet.insert]
    split
    · simp only [NSet.sortedFrom, Bool.and_eq_true, decide_eq_true_eq]
      exact ⟨hi, by omega, h.2⟩
    · split
      · exact h'
      · simp only [NSet.sortedFrom, Bool.and_eq_true, decide_eq_true_eq]
        exact ⟨h.1, ih h.2 (by omega)⟩

theorem NSet.sortedFrom_erase {s : NSet} {lo i : Nat} (h : NSet.sortedFrom lo s = true) : NSet.sortedFrom lo (NSet.erase s i) = true := by
  induction s generalizing lo with
  | nil => rfl
  | cons k s ih =>
    simp only [NSet.sortedFrom, Bool.and_eq_true, decide_eq_true_eq] at h
    simp only [NSet.erase]
    split
    · exact NSet.sortedFrom_mono (ih h.2) (by omega)
    · simp only [NSet.sortedFrom, Bool.and_eq_true, decide_eq_true_eq]
      exact ⟨h.1, ih h.2⟩

theorem NSet.wf_insert {s : NSet} (h : NSet.wf s = true) (i : Nat) : NSet.wf (NSet.insert s i) = true :=
  NSet.sortedFrom_insert h (Nat.zero_le _)

theorem NSet.wf_erase {s : NSet} (h : NSet.wf s = true) (i : Nat) : NSet.wf (NSet.erase s i) = true := NSet.sortedFrom_erase h

theorem NSet.sortedFrom_filter {s : NSet} {lo : Nat} (h : NSet.sortedFrom lo s = true) (p : Nat → Bool) :
    NSet.sortedFrom lo (s.filter p) = true := by
  induction s generalizing lo with
  | nil => rfl
  | cons k s ih =>
    simp only [NSet.sortedFrom, Bool.and_eq_true, decide_eq_true_eq] at h
    simp only [List.filter_cons]
    split
    · simp only [NSet.sortedFrom, Bool.and_eq_true, decide_eq_true_eq]
      exact ⟨h.1, ih h.2⟩
    · exact NSet.sortedFrom_mono (ih h.2) (by omega)

theorem NSet.wf_filter {s : NSet} (h : NSet.wf s = true) (p : Nat → Bool) : NSet.wf (s.filter p) = true := NSet.sortedFrom_filter h p

theorem Tbl.sortedFrom_filter {t : Tbl α} {lo : Nat} (h : Tbl.sortedFrom d lo t = true) (p : Nat × α → Bool) :
    Tbl.sortedFrom d lo (t.filter p) = true := by
  induction t generalizing lo with
  | nil => rfl
  | cons q t ih =>
    obtain ⟨k, v⟩ := q
    simp only [Tbl.sortedFrom, Bool.and_eq_true, decide_eq_true_eq] at h
    simp only [List.filter_cons]
    split
    · simp only [Tbl.sortedFrom, Bool.and_eq_true, decide_eq_true_eq]
      exact ⟨h.1, ih h.2⟩
    · exact Tbl.sortedFrom_mono (ih h.2) (by omega)

theorem Tbl.wf_filter {t : Tbl α} (h : Tbl.wf d t = true) (p : Nat × α → Bool) : Tbl.wf d (t.filter p) = true :=
  Tbl.sortedFrom_filter h p

theorem NSet.wf_foldl_insert {s : NSet} (h : NSet.wf s = true) (l : List Nat) : NSet.wf (l.foldl NSet.insert s) = true := by
  induction l generalizing s with
  | nil => exact h
  | cons b l ih => exact ih (NSet.wf_insert h b)

end Sys2Proof.Machine
end

