-- ==== Sys2Proof/Laws/Regs.lean ====
section
/-! SUPPORT. The register store: what a read gives after a write of the same field, of another field, of another register. Units stay
below 1,024 and indexes below 2,048, so that no two registers share a key. -/

namespace Sys2Proof.Machine

variable (m : Module)

theorem Reg.ctorIdx_inj {r s : Reg} (h : r.ctorIdx = s.ctorIdx) : r = s := by
  have hr : Reg.ofNat r.ctorIdx = r := by cases r <;> rfl
  have hs : Reg.ofNat s.ctorIdx = s := by cases s <;> rfl
  rw [← hr, ← hs, h]

/-- Registers of the module have keys of their own. -/
theorem RegId.key_inj {a b : RegId} (ha : a.unit < 1024) (hb : b.unit < 1024) (ia : a.idx < 2048) (ib : b.idx < 2048)
    (h : a.key = b.key) : a = b := by
  obtain ⟨r, u, i⟩ := a
  obtain ⟨s, v, j⟩ := b
  simp only [RegId.key] at h ha hb ia ib
  have h1 : r.ctorIdx = s.ctorIdx := by omega
  have h2 : u = v := by omega
  have h3 : i = j := by omega
  rw [Reg.ctorIdx_inj h1, h2, h3]

/-- A register reads the word last written to it. -/
@[simp] theorem Module.word_setWord_self (r : Reg) (u i : Nat) (w : Word) : (m.setWord r u i w).word r u i = w := by
  simp [Module.word, Module.setWord, BitVec.xor_assoc]

/-- A write of one register leaves every other. -/
theorem Module.word_setWord_ne {r s : Reg} {u v i j : Nat} (w : Word) (hu : u < 1024) (hv : v < 1024) (hi : i < 2048) (hj : j < 2048)
    (h : ¬(s = r ∧ v = u ∧ j = i)) : (m.setWord r u i w).word s v j = m.word s v j := by
  simp only [Module.word, Module.setWord]
  rw [Tbl.get_set_ne]
  intro e
  have := RegId.key_inj (a := ⟨s, v, j⟩) (b := ⟨r, u, i⟩) hv hu hj hi e
  simp only [RegId.mk.injEq] at this
  exact h this

theorem Module.word_setWord {r s : Reg} {u v i j : Nat} (w : Word) (hu : u < 1024) (hv : v < 1024) (hi : i < 2048) (hj : j < 2048) :
    (m.setWord r u i w).word s v j = if s = r ∧ v = u ∧ j = i then w else m.word s v j := by
  split
  · obtain ⟨rfl, rfl, rfl⟩ := ‹_›
    exact Module.word_setWord_self m _ _ _ _
  · exact Module.word_setWord_ne m w hu hv hi hj ‹_›

/-- The field that a word holds at a place. -/
def fieldOf (w : Word) (lo width : Nat) : Nat := w.toNat / 2 ^ lo % 2 ^ width

theorem testBit_fieldOf (w : Word) (lo width k : Nat) :
    Nat.testBit (fieldOf w lo width) k = (decide (k < width) && Nat.testBit w.toNat (lo + k)) := by
  simp only [fieldOf, Nat.testBit_mod_two_pow, Nat.testBit_div_two_pow, Nat.add_comm]

theorem RegField.testBit_put (f : RegField) (w : Word) (v k : Nat) (hf : f.lo + f.width ≤ 32) :
    Nat.testBit (f.put w v).toNat k =
      if f.lo ≤ k ∧ k < f.lo + f.width then Nat.testBit v (k - f.lo) else Nat.testBit w.toNat k := by
  by_cases hk : k < 32
  · simp only [RegField.put, BitVec.toNat_or, BitVec.toNat_and, BitVec.toNat_not, BitVec.toNat_ofNat, Nat.testBit_or, Nat.testBit_and,
      Nat.testBit_mod_two_pow, Nat.testBit_shiftLeft]
    rw [show (2 : Nat) ^ 32 - 1 - ((2 ^ f.width - 1) <<< f.lo) % 2 ^ 32 = 2 ^ 32 - (((2 ^ f.width - 1) <<< f.lo) % 2 ^ 32 + 1) by omega]
    rw [Nat.testBit_two_pow_sub_succ (Nat.mod_lt _ (by decide))]
    simp only [Nat.testBit_mod_two_pow, Nat.testBit_shiftLeft, Nat.testBit_two_pow_sub_one, hk, decide_true, Bool.true_and]
    by_cases h1 : f.lo ≤ k
    · by_cases h2 : k < f.lo + f.width
      · have : k - f.lo < f.width := by omega
        simp [h1, h2, this]
      · have : ¬ k - f.lo < f.width := by omega
        simp [h2, this]
    · simp [h1]
  · have h1 : ¬(f.lo ≤ k ∧ k < f.lo + f.width) := by omega
    rw [if_neg h1, Nat.testBit_lt_two_pow, Nat.testBit_lt_two_pow]
    · exact Nat.lt_of_lt_of_le w.isLt (Nat.pow_le_pow_right (by decide) (by omega))
    · exact Nat.lt_of_lt_of_le (f.put w v).isLt (Nat.pow_le_pow_right (by decide) (by omega))

/-- A field reads what its own write stored, as far as its width goes. -/
theorem RegField.fieldOf_put_self (f : RegField) (w : Word) (v : Nat) (hf : f.lo + f.width ≤ 32) :
    fieldOf (f.put w v) f.lo f.width = v % 2 ^ f.width := by
  apply Nat.eq_of_testBit_eq
  intro k
  rw [testBit_fieldOf, RegField.testBit_put f w v _ hf, Nat.testBit_mod_two_pow]
  by_cases h : k < f.width
  · simp [h]
  · simp [h]

/-- A field is untouched by a write of a field that shares no bit with it. -/
theorem RegField.fieldOf_put_ne (f : RegField) (w : Word) (v lo width : Nat) (hf : f.lo + f.width ≤ 32)
    (h : lo + width ≤ f.lo ∨ f.lo + f.width ≤ lo) : fieldOf (f.put w v) lo width = fieldOf w lo width := by
  apply Nat.eq_of_testBit_eq
  intro k
  rw [testBit_fieldOf, testBit_fieldOf, RegField.testBit_put f w v _ hf]
  by_cases hk : k < width
  · rw [if_neg (by omega)]
  · simp [hk]

/-- A field reads what was written to it. -/
theorem Module.rd_wr_self (f : RegField) (u v i : Nat) (hf : f.lo + f.width ≤ 32) : (m.wr f u v i).rd f u i = v % 2 ^ f.width := by
  simp only [Module.rd, Module.wr, Module.word_setWord_self]
  exact f.fieldOf_put_self _ v hf

/-- A write of one field leaves a field of another register, unit or index, or one at other bits of the same word. -/
theorem Module.rd_wr_ne {f g : RegField} {u v i j : Nat} (x : Nat) (hf : f.lo + f.width ≤ 32) (hu : u < 1024) (hv : v < 1024)
    (hi : i < 2048) (hj : j < 2048)
    (h : ¬(g.reg = f.reg ∧ v = u ∧ j = i) ∨ g.lo + g.width ≤ f.lo ∨ f.lo + f.width ≤ g.lo) :
    (m.wr f u x i).rd g v j = m.rd g v j := by
  simp only [Module.rd, Module.wr]
  rw [Module.word_setWord m _ hu hv hi hj]
  split
  · obtain ⟨h1, rfl, rfl⟩ := ‹_›
    rcases h with h | h
    · exact absurd ⟨h1, rfl, rfl⟩ h
    · rw [h1]
      exact f.fieldOf_put_ne _ x _ _ hf h
  · rfl

/-- A write of a field leaves the words of other registers. -/
theorem Module.word_wr_ne {f : RegField} {s : Reg} {u v i j : Nat} (x : Nat) (hu : u < 1024) (hv : v < 1024)
    (hi : i < 2048) (hj : j < 2048) (h : ¬(s = f.reg ∧ v = u ∧ j = i)) : (m.wr f u x i).word s v j = m.word s v j :=
  Module.word_setWord_ne m _ hu hv hi hj h

/-- What an update of a unit leaves of the registers. -/
theorem Module.word_congr {m m' : Module} (h : m'.regs = m.regs) (r : Reg) (u i : Nat) : m'.word r u i = m.word r u i := by
  simp [Module.word, h]

theorem Module.rd_congr {m m' : Module} (h : m'.regs = m.regs) (f : RegField) (u i : Nat) : m'.rd f u i = m.rd f u i := by
  simp [Module.rd, Module.word_congr h]

end Sys2Proof.Machine
end

