-- ==== Sys2Proof/Laws/Units.lean ====
section
/-! SUPPORT. Reading a unit after it is replaced, and the general registers of a core. -/

namespace Sys2Proof.Machine

variable (m : Module)

theorem Module.core_setCore (c d : Nat) (k : Core) : (m.setCore c k).core d = if d = c then k else m.core d := by
  simp [Module.core, Module.setCore, Tbl.get_set]

@[simp] theorem Module.core_setCore_self (c : Nat) (k : Core) : (m.setCore c k).core c = k := by simp [Module.core_setCore]

theorem Module.core_setCore_ne {c d : Nat} (h : d ≠ c) (k : Core) : (m.setCore c k).core d = m.core d := by simp [Module.core_setCore, h]

theorem Module.slice_setSlice (c d : Nat) (s : Slice) : (m.setSlice c s).slice d = if d = c then s else m.slice d := by
  simp [Module.slice, Module.setSlice, Tbl.get_set]

@[simp] theorem Module.slice_setSlice_self (c : Nat) (s : Slice) : (m.setSlice c s).slice c = s := by simp [Module.slice_setSlice]

theorem Module.far_setFar (j i : Nat) (d : FarDev) : (m.setFar j d).far i = if i = j then d else m.far i := by
  simp [Module.far, Module.setFar, Tbl.get_set]

@[simp] theorem Module.far_setFar_self (j : Nat) (d : FarDev) : (m.setFar j d).far j = d := by simp [Module.far_setFar]

theorem Module.station_setStation (c d : Nat) (s : CtlSt) : (m.setStation c s).station d = if d = c then s else m.station d := by
  simp [Module.station, Module.setStation, Tbl.get_set]

theorem Module.store_setStore (d e : Nat) (s : Store) : (m.setStore d s).store e = if e = d then s else m.store e := by
  simp [Module.store, Module.setStore, Tbl.get_set]

theorem Module.fn_setFn (f g : Nat) (x : Fn) : (m.setFn f x).fn g = if g = f then x else m.fn g := by
  simp [Module.fn, Module.setFn, Tbl.get_set]

@[simp] theorem Module.fn_setFn_self (f : Nat) (x : Fn) : (m.setFn f x).fn f = x := by simp [Module.fn_setFn]

/-- G0 reads 0 whatever is written (R129). -/
@[simp] theorem Core.getG_zero (k : Core) : k.getG 0 = 0 := rfl

theorem Core.getG_setG (k : Core) (r q : Nat) (v : DWord) : (k.setG r v).getG q = if q = r then (if r = 0 then 0 else v) else k.getG q := by
  unfold Core.getG Core.setG
  by_cases hr : r = 0
  · subst hr; by_cases hq : q = 0 <;> simp [hq]
  · by_cases hq : q = 0
    · subst hq; simp [Ne.symm hr]
    · by_cases h : q = r
      · subst h; simp [hq]
      · simp [hr, hq, h, Tbl.get_set_ne]

/-- A counter of a core rises; every other stays. -/
theorem Module.counters_count (c n k j : Nat) : Tbl.get 0 (m.count c n k).counters j =
    if j = c * 64 + n then Tbl.get 0 m.counters j + BitVec.ofNat 64 k else Tbl.get 0 m.counters j := by
  unfold Module.count
  by_cases h : j = c * 64 + n
  · subst h; simp
  · simp [Tbl.get_set_ne, h]

/-- A core enters a state and keeps everything else; every other core stays. -/
theorem Module.core_setCoreSt (c d : Nat) (st : CoreSt) (fault : Nat) :
    (m.setCoreSt c st fault).core d = if d = c then { m.core c with st := st } else m.core d := by
  unfold Module.setCoreSt
  simp only [Module.core, Module.record_cores]
  exact Module.core_setCore m c d _

end Sys2Proof.Machine
end

