-- ==== Sys2Proof/Laws/Memory.lean ====
section
/-! SUPPORT. Memory: what a write leaves, what a read finds, and that every write keeps the canonical form. -/

namespace Sys2Proof.Machine

variable (m : Module)

/-! ### Bytes -/

/-- A table with bytes written holds them beside their bases, and every other key as it was. -/
theorem get_memPut (base : Nat → Byte) (t : Tbl Byte) (k : Nat) (l : List Byte) (j : Nat) :
    Tbl.get 0 (memPut base t k l) j = if k ≤ j ∧ j < k + l.length then l.getD (j - k) 0 ^^^ base j else Tbl.get 0 t j := by
  induction l generalizing t k with
  | nil => simp only [memPut, List.length_nil]; rw [if_neg (by omega)]
  | cons b l ih =>
    simp only [memPut, List.length_cons]
    rw [ih]
    by_cases h : k + 1 ≤ j ∧ j < k + 1 + l.length
    · rw [if_pos h, if_pos (by omega)]
      have : j - k = (j - (k + 1)) + 1 := by omega
      rw [this, List.getD_cons_succ]
    · rw [if_neg h, Tbl.get_set]
      by_cases e : j = k
      · subst e
        rw [if_pos rfl, if_pos (by omega)]
        simp
      · rw [if_neg e, if_neg (by omega)]

/-- The base of a byte rests on the state of the slices' contents alone. -/
theorem Module.base_congr {m m' : Module} (h : ∀ c, (m'.slice c).fill = (m.slice c).fill) (h' : m'.nearLost = m.nearLost) (k : Nat) :
    m'.base k = m.base k := by simp only [Module.base, h, h']

/-- Bytes rest on `mem` and the bases. -/
theorem Module.byte_congr {m m' : Module} (h : m'.mem = m.mem) (h1 : ∀ c, (m'.slice c).fill = (m.slice c).fill)
    (h2 : m'.nearLost = m.nearLost) (k : Nat) : m'.byte k = m.byte k := by simp only [Module.byte, h, Module.base_congr h1 h2]

/-- Bytes outside a store are as they were, and the bytes stored read as stored. -/
theorem Module.byte_storeView (k : Nat) (l : List Byte) (tag : Nat → Bool) (j : Nat) :
    (m.storeView k l tag).byte j = if k ≤ j ∧ j < k + l.length then l.getD (j - k) 0 else m.byte j := by
  have h : (m.storeView k l tag).byte j = Tbl.get 0 (memPut m.base m.mem k l) j ^^^ m.base j := rfl
  rw [h, get_memPut]
  split
  · rw [BitVec.xor_assoc, BitVec.xor_self, BitVec.xor_zero]
  · rfl

theorem Module.byte_storeTag (k : Nat) (l : List Byte) (tag : Nat → Bool) (j : Nat) :
    (m.storeTag k l tag).byte j = if k ≤ j ∧ j < k + l.length then l.getD (j - k) 0 else m.byte j := m.byte_storeView k l tag j

/-- A store leaves every byte outside it. -/
theorem Module.byte_put_out (k : Nat) (l : List Byte) (j : Nat) (h : j < k ∨ k + l.length ≤ j) : (m.put k l).byte j = m.byte j := by
  rw [Module.put, Module.byte_storeTag, if_neg (by omega)]

@[simp] theorem leBytes_length (n v : Nat) : (leBytes n v).length = n := by
  induction n generalizing v with
  | zero => rfl
  | succ n ih => simp [leBytes, ih]

/-- The number that little-endian bytes spell is the number they were made of. -/
theorem leNat_leBytes (n v : Nat) : leNat (leBytes n v) = v % 256 ^ n := by
  induction n generalizing v with
  | zero => simp [leBytes, leNat, Nat.mod_one]
  | succ n ih =>
    simp only [leBytes, leNat, ih, BitVec.toNat_ofNat]
    rw [show (256 : Nat) ^ (n + 1) = 256 * 256 ^ n from Nat.pow_succ', Nat.mod_mul]

/-! ### The canonical form -/

/-- The memory tables decide it. -/
theorem Module.memWf_congr {m m' : Module} (h1 : m'.mem = m.mem) (h2 : m'.poison = m.poison) (h3 : m'.scrErr = m.scrErr)
    (h4 : m'.wordErr = m.wordErr) (h5 : m'.ckErr = m.ckErr) (h6 : m'.ckOff = m.ckOff) : m'.memWf = m.memWf := by
  simp only [Module.memWf, h1, h2, h3, h4, h5, h6]

theorem Module.memWf_iff : m.memWf = true ↔ Tbl.wf 0 m.mem = true ∧ NSet.wf m.poison = true ∧ Tbl.wf 0 m.scrErr = true ∧
    Tbl.wf 0 m.wordErr = true ∧ Tbl.wf 0 m.ckErr = true ∧ Tbl.wf 0 m.ckOff = true := by
  simp [Module.memWf, and_assoc]

theorem wf_memPut {base : Nat → Byte} {t : Tbl Byte} (h : Tbl.wf 0 t = true) (k : Nat) (l : List Byte) :
    Tbl.wf 0 (memPut base t k l) = true := by
  induction l generalizing t k with
  | nil => exact h
  | cons b l ih => exact ih (Tbl.wf_set h _ _) _

theorem wf_poisonAfter {p : NSet} (h : NSet.wf p = true) (k n : Nat) (tag : Nat → Bool) : NSet.wf (poisonAfter p k n tag) = true := by
  unfold poisonAfter
  generalize wordsOf k n = l
  induction l generalizing p with
  | nil => exact h
  | cons b l ih =>
    simp only [List.foldl_cons]
    apply ih
    split
    · exact NSet.wf_insert h _
    · split
      · exact NSet.wf_erase h _
      · exact h

/-- A fold of steps that each keep memory in its canonical form keeps it. -/
theorem Module.memWf_foldl {β : Type} (f : Module → β → Module) (hf : ∀ (n : Module) (b : β), n.memWf = true → (f n b).memWf = true)
    (l : List β) : ∀ n : Module, n.memWf = true → (l.foldl f n).memWf = true := by
  induction l with
  | nil => exact fun _ h => h
  | cons b t ih => exact fun n h => ih _ (hf n b h)

/-- A fold of steps that each leave a field leaves it. -/
theorem Module.foldl_frame {α β : Type} (g : Module → α) (f : Module → β → Module) (hf : ∀ (n : Module) (b : β), g (f n b) = g n)
    (l : List β) : ∀ n : Module, g (l.foldl f n) = g n := by
  induction l with
  | nil => exact fun _ => rfl
  | cons b t ih => exact fun n => (ih _).trans (hf n b)

theorem Module.memWf_storeView (h : m.memWf = true) (k : Nat) (l : List Byte) (tag : Nat → Bool) : (m.storeView k l tag).memWf = true := by
  rw [Module.memWf_iff] at h ⊢
  exact ⟨wf_memPut h.1 _ _, wf_poisonAfter h.2.1 _ _ _, h.2.2⟩

theorem Module.memWf_freshCodes (h : m.memWf = true) (p : Nat → Bool) : (m.freshCodes p).memWf = true := by
  rw [Module.memWf_iff] at h ⊢
  exact ⟨h.1, h.2.1, h.2.2.1, Tbl.wf_filter h.2.2.2.1 _, h.2.2.2.2⟩

/-- A store keeps memory canonical. -/
theorem Module.memWf_storeTag (h : m.memWf = true) (k : Nat) (l : List Byte) (tag : Nat → Bool) : (m.storeTag k l tag).memWf = true := by
  have h' := Module.memWf_freshCodes _ (m.memWf_storeView h k l tag) (touchesWord k l.length)
  rw [Module.memWf_iff] at h' ⊢
  exact ⟨h'.1, h'.2.1, Tbl.wf_filter h'.2.2.1 _, h'.2.2.2⟩

theorem Module.memWf_put (h : m.memWf = true) (k : Nat) (l : List Byte) : (m.put k l).memWf = true := m.memWf_storeTag h _ _ _

/-- Marking words as poisoned keeps memory canonical. -/
theorem Module.memWf_setPoison (h : m.memWf = true) (ws : List Nat) : (m.setPoison ws).memWf = true := by
  rw [Module.memWf_iff] at h ⊢
  exact ⟨h.1, NSet.wf_foldl_insert h.2.1 _, h.2.2.1, Tbl.wf_filter h.2.2.2.1 _, h.2.2.2.2⟩

theorem Module.memWf_markPoison (h : m.memWf = true) (w : Nat) : Module.memWf { m with poison := NSet.insert m.poison w } = true := by
  rw [Module.memWf_iff] at h ⊢
  exact ⟨h.1, NSet.wf_insert h.2.1 _, h.2.2⟩

/-- Rewriting a page's check word keeps memory canonical. -/
theorem Module.memWf_recheck (h : m.memWf = true) (page : Nat) (fixed : List Nat) : (m.recheck page fixed).memWf = true := by
  rw [Module.memWf_iff] at h ⊢
  exact ⟨h.1, h.2.1, h.2.2.1, h.2.2.2.1, Tbl.wf_filter h.2.2.2.2.1 _, Tbl.wf_foldl_set (Tbl.wf_filter h.2.2.2.2.2 _) _ _ _⟩

@[simp] theorem Module.memWf_noteWord (w : Nat) (ran : Bool) : (m.noteWord w ran).memWf = m.memWf := by simp [Module.memWf]
@[simp] theorem Module.memWf_noteLight (w : Nat) : (m.noteLight w).memWf = m.memWf := by simp [Module.memWf]
@[simp] theorem Module.memWf_noteSlow (w : Nat) : (m.noteSlow w).memWf = m.memWf := by simp [Module.memWf]
@[simp] theorem Module.memWf_notePoison (w : Nat) : (m.notePoison w).memWf = m.memWf := by simp [Module.memWf]
@[simp] theorem Module.memWf_setSlice (c : Nat) (s : Slice) : (m.setSlice c s).memWf = m.memWf := rfl

/-- Reading the old words of a write keeps memory canonical. -/
theorem Module.memWf_oldWords (h : m.memWf = true) (k n : Nat) (ran : List Nat) (seen : Bool) : (m.oldWords k n ran seen).memWf = true := by
  unfold Module.oldWords
  dsimp only
  generalize (wordsOf k n).filter (fun w => !m.wordPending w) = ws
  have h1 : (ws.foldl (fun (n : Module) w =>
      if n.wordClass w = 1 then (if seen then n else n.noteLight w) else if n.wordClass w = 2 && !ran.contains w then n.noteSlow w else n)
      m).memWf = true := by
    refine Module.memWf_foldl _ (fun n b hn => ?_) ws m h
    split
    · split
      · exact hn
      · rwa [Module.memWf_noteLight]
    · split
      · rwa [Module.memWf_noteSlow]
      · exact hn
  split
  · exact Module.memWf_setPoison _ h1 _
  · rw [Module.memWf_iff] at h1 ⊢
    exact ⟨h1.1, h1.2.1, h1.2.2.1, h1.2.2.2.1, Tbl.wf_filter h1.2.2.2.2.1 _, h1.2.2.2.2.2⟩

/-- A write to memory keeps it canonical where its store does. -/
theorem Module.memWf_writeMem (h : m.memWf = true) (k n : Nat) {store : Module → Module}
    (hs : ∀ x : Module, x.memWf = true → (store x).memWf = true) (ran : List Nat) (seen : Bool) :
    (m.writeMem k n store ran seen).memWf = true := by
  unfold Module.writeMem
  dsimp only
  split
  · exact Module.memWf_recheck _ (hs _ (m.memWf_oldWords h _ _ _ _)) _ _
  · exact hs _ (m.memWf_oldWords h _ _ _ _)

/-! ### The slice caches -/

theorem Module.memWf_writeBack (h : m.memWf = true) (w : Nat) (ran : List Nat) : (m.writeBack w ran).memWf = true :=
  m.memWf_writeMem h _ _ (fun x hx => x.memWf_freshCodes hx _) _ _

theorem Module.memWf_install (h : m.memWf = true) (l : Line) (ran : List Nat) : (m.install l ran).memWf = true := by
  unfold Module.install
  dsimp only
  split
  · exact h
  · rw [Module.memWf_setSlice]
    split
    · exact m.memWf_writeBack h _ _
    · exact h

theorem Module.memWf_cacheRead (h : m.memWf = true) (w : Nat) (ran : List Nat) (alloc : Bool) :
    (m.cacheRead w ran alloc).1.memWf = true := by
  unfold Module.cacheRead
  split
  · dsimp only
    split
    · rw [Module.memWf_notePoison]; exact m.memWf_install h _ _
    · exact m.memWf_install h _ _
  · have h' : (m.noteWord w (ran.contains w)).memWf = true := by rwa [Module.memWf_noteWord]
    dsimp only
    split
    · exact Module.memWf_install _ h' _ _
    · exact h'

theorem Module.memWf_cacheWrite (h : m.memWf = true) (w : Nat) (whole : Bool) (ran : List Nat) :
    (m.cacheWrite w whole ran).memWf = true := by
  unfold Module.cacheWrite
  split
  · dsimp only
    split
    · exact Module.memWf_markPoison _ (m.memWf_install h _ _) _
    · exact m.memWf_install h _ _
  · split
    · exact m.memWf_install h _ _
    · have h' : (m.noteWord w (ran.contains w)).memWf = true := by rwa [Module.memWf_noteWord]
      dsimp only
      split
      · exact Module.memWf_markPoison _ (Module.memWf_install _ h' _ _) _
      · exact Module.memWf_install _ h' _ _

theorem Module.memWf_cleanWord (h : m.memWf = true) (w : Nat) (ran : List Nat) : (Module.cleanWord ran m w).memWf = true := by
  unfold Module.cleanWord
  dsimp only
  split
  · exact h
  · rw [Module.memWf_setSlice]
    split
    · exact m.memWf_writeBack h _ _
    · exact h

/-! ### Reads and writes at a place -/

/-- A write at any site keeps memory canonical. -/
theorem Module.memWf_writeSite (h : m.memWf = true) (s : Site) (l : List Byte) (tag : Nat → Bool) (ran : List Nat) (via : Via) (seen : Bool) :
    (m.writeSite s l tag ran via seen).memWf = true := by
  unfold Module.writeSite
  split
  · exact Module.memWf_writeMem _ (Module.memWf_foldl _ (fun n b hn => n.memWf_cleanWord hn b ran) _ _ h) _ _
      (fun x hx => x.memWf_storeTag hx _ _ _) _ _
  · exact Module.memWf_storeView _ (Module.memWf_foldl _ (fun n b hn => n.memWf_cacheWrite hn b _ _) _ _ h) _ _ _
  · exact m.memWf_storeTag h _ _ _
  · exact m.memWf_writeMem h _ _ (fun x hx => x.memWf_storeTag hx _ _ _) _ _
  · exact h

/-- Reading a span of memory changes no byte, no poison and no code. -/
theorem Module.load'_mem (k n : Nat) (ran : List Nat) : (m.load' k n ran).1.mem = m.mem ∧ (m.load' k n ran).1.poison = m.poison ∧
    (m.load' k n ran).1.scrErr = m.scrErr ∧ (m.load' k n ran).1.wordErr = m.wordErr ∧ (m.load' k n ran).1.ckErr = m.ckErr ∧
    (m.load' k n ran).1.ckOff = m.ckOff := by
  unfold Module.load'
  dsimp only
  generalize wordsOf k n = l
  induction l generalizing m with
  | nil => exact ⟨rfl, rfl, rfl, rfl, rfl, rfl⟩
  | cons b l ih => simpa using ih (m.noteWord b (ran.contains b))

theorem Module.memWf_load' (h : m.memWf = true) (k n : Nat) (ran : List Nat) : (m.load' k n ran).1.memWf = true := by
  obtain ⟨h1, h2, h3, h4, h5, h6⟩ := m.load'_mem k n ran
  rw [Module.memWf_congr h1 h2 h3 h4 h5 h6]
  exact h

/-- A read at any site keeps memory canonical. -/
theorem Module.memWf_readSite (h : m.memWf = true) (s : Site) (k n : Nat) (ran : List Nat) (via : Via) :
    (m.readSite s k n ran via).1.memWf = true := by
  unfold Module.readSite
  split
  · exact Module.memWf_load' _ (Module.memWf_foldl _ (fun n b hn => n.memWf_cleanWord hn b ran) _ _ h) _ _ _
  · dsimp only
    generalize wordsOf k n = ws
    suffices H : ∀ acc : Module × List Nat, acc.1.memWf = true → (ws.foldl (fun (acc : Module × List Nat) w =>
        ((acc.1.cacheRead w ran (via == .cache)).1,
          if (acc.1.cacheRead w ran (via == .cache)).2 = true then acc.2 ++ [w] else acc.2)) acc).1.memWf = true from H _ h
    induction ws with
    | nil => exact fun _ ha => ha
    | cons b t ih => exact fun acc ha => ih _ (acc.1.memWf_cacheRead ha _ _ _)
  · exact m.memWf_load' h _ _ _

end Sys2Proof.Machine
end

