-- ==== Sys2Proof/Laws/Seq.lean ====
section
/-! SUPPORT. The fetch of a core's instruction, said once: what each of its four outcomes does, and what ending an instruction leaves. -/

namespace Sys2Proof.Machine

variable {m : Module} {c : Nat} {act : Module → Core → Module}

/-- A core that does not execute stays as it is (R124). -/
theorem Module.fetch_idle (h : (m.core c).fetching = false) : m.fetch c act = m := by simp [Module.fetch, h]

/-- A PC outside scratch takes FETCH_RANGE (R139). -/
theorem Module.fetch_range (h : (m.core c).fetching = true) (hp : 0x18_0000 ≤ (m.core c).pc.toNat) :
    m.fetch c act = m.coreFault c Flt.fetchRange 0 0 (m.core c).pc := by
  simp [Module.fetch, h, hp]

/-- A poisoned line takes POISON (R139). -/
theorem Module.fetch_poison (h : (m.core c).fetching = true) (hp : (m.core c).pc.toNat < 0x18_0000)
    (hb : m.wordBad (scrKey c (m.core c).pc.toNat / 64) = true) :
    m.fetch c act = (m.noteWord (scrKey c (m.core c).pc.toNat / 64)).coreFault c Flt.poison 0 0 (m.core c).pc := by
  simp [Module.fetch, h, hb, Nat.not_le.mpr hp]

/-- Every other fetch acts on the instruction. -/
theorem Module.fetch_go (h : (m.core c).fetching = true) (hp : (m.core c).pc.toNat < 0x18_0000)
    (hb : m.wordBad (scrKey c (m.core c).pc.toNat / 64) = false) :
    m.fetch c act = act (m.noteWord (scrKey c (m.core c).pc.toNat / 64)) (m.core c) := by
  simp [Module.fetch, h, hb, Nat.not_le.mpr hp]

/-- What a fetch may do: nothing, a core fault, or the instruction, on the module whose counters took note of the line. -/
theorem Module.fetch_cases (m : Module) (c : Nat) (act : Module → Core → Module) :
    m.fetch c act = m ∨ (m.fetch c act = m.coreFault c Flt.fetchRange 0 0 (m.core c).pc) ∨
      ∃ w, m.fetch c act = (m.noteWord w).coreFault c Flt.poison 0 0 (m.core c).pc ∨ m.fetch c act = act (m.noteWord w) (m.core c) := by
  by_cases h : (m.core c).fetching = true
  · by_cases hp : 0x18_0000 ≤ (m.core c).pc.toNat
    · exact .inr (.inl (Module.fetch_range h hp))
    · refine .inr (.inr ⟨scrKey c (m.core c).pc.toNat / 64, ?_⟩)
      cases hb : m.wordBad (scrKey c (m.core c).pc.toNat / 64)
      · exact .inr (Module.fetch_go h (by omega) hb)
      · exact .inl (Module.fetch_poison h (by omega) hb)
  · exact .inl (Module.fetch_idle (by simpa using h))

theorem Module.core_retireTo (m : Module) (c d : Nat) (k : Core) (pc : DWord) :
    (m.retireTo c k pc).core d = if d = c then { k with lastPc := k.pc, pc := pc } else m.core d := Module.core_setCore m c d _

@[simp] theorem Module.core_retire_self (m : Module) (c : Nat) (k : Core) :
    (m.retire c k).core c = { k with lastPc := k.pc, pc := k.pc + 8 } := Module.core_setCore_self m c _

@[simp] theorem Module.retire_mem (m : Module) (c : Nat) (k : Core) : (m.retire c k).mem = m.mem := rfl
@[simp] theorem Module.retire_poison (m : Module) (c : Nat) (k : Core) : (m.retire c k).poison = m.poison := rfl
@[simp] theorem Module.retire_scrErr (m : Module) (c : Nat) (k : Core) : (m.retire c k).scrErr = m.scrErr := rfl
@[simp] theorem Module.retire_wordErr (m : Module) (c : Nat) (k : Core) : (m.retire c k).wordErr = m.wordErr := rfl
@[simp] theorem Module.retire_ckErr (m : Module) (c : Nat) (k : Core) : (m.retire c k).ckErr = m.ckErr := rfl
@[simp] theorem Module.retire_ckOff (m : Module) (c : Nat) (k : Core) : (m.retire c k).ckOff = m.ckOff := rfl
@[simp] theorem Module.retire_fuses (m : Module) (c : Nat) (k : Core) : (m.retire c k).fuses = m.fuses := rfl
@[simp] theorem Module.retire_regs (m : Module) (c : Nat) (k : Core) : (m.retire c k).regs = m.regs := rfl

/-- Whatever a fetch does, a field that the instruction, a core fault and the count of a line's errors leave is left. -/
theorem Module.fetch_frame {α : Type} (g : Module → α) (hf : ∀ (n : Module) (f e s : Nat) (pc : DWord), g (n.coreFault c f e s pc) = g n)
    (hn : ∀ (n : Module) (w : Nat), g (n.noteWord w) = g n) (ha : ∀ w, g (act (m.noteWord w) (m.core c)) = g (m.noteWord w)) :
    g (m.fetch c act) = g m := by
  rcases m.fetch_cases c act with h | h | ⟨w, h | h⟩ <;> rw [h]
  · exact hf ..
  · rw [hf, hn]
  · rw [ha, hn]

end Sys2Proof.Machine
end

