-- ==== Sys2Proof/Tests/Slice0.lean ====
section
/-! SUPPORT. Tests: each check of well-formedness refuses an ill-formed command; for each statement with hypotheses a state and operands
that meet them, clause by clause; and single steps with the results that the manual states. -/

set_option Elab.async false

namespace Sys2Proof.Tests

open Sys2Proof.Machine Sys2Proof.Claim

/-- The module at reset. -/
def base : Module := State.reset.m

/-- A state with no command waiting. -/
def st (m : Module) : State := { m := m }

/-- The module that a command leaves. -/
def after (i : Instr) (m : Module) : Module :=
  match exec i (st m) with
  | .next t => t.m
  | _ => {}


/-- While no slice's cache holds a line, words whose codes are good read well. -/
theorem readsWell_of {k n : Nat} (m : Module) (h : m.slices = []) (hw : ∀ w ∈ wordsOf k n, m.wordBad w = false) : ReadsWell m k n := by
  refine fun w hm => ⟨hw w hm, fun t l hl => ?_⟩
  have : m.slice t = {} := by simp [Module.slice, h, Tbl.get]
  rw [this] at hl
  have hn : ({} : Slice).wayOf w = none := List.find?_eq_none.mpr fun _ _ => by simp [Slice.line, Tbl.get]
  simp [Slice.lineOf, hn] at hl

/-- A table gives at a key the default, or the value of an entry of that key. -/
theorem get_all {α : Type} {P : α → Prop} {d : α} {k : Nat} : ∀ t : Tbl α, P d → (∀ e ∈ t, e.1 = k → P e.2) → P (Tbl.get d t k)
  | [], h, _ => h
  | (i, v) :: t, h, ht => by
    simp only [Tbl.get]
    split
    case isTrue hk => exact ht (i, v) (by simp) hk.symm
    case isFalse => exact get_all t h fun e he => ht e (by simp [he])

/-- While no register at or above DTD_STS shows TEST or RETRAIN in its low bits, no link holds what comes to it. -/
theorem noLinkHolds (m : Module) (h : ∀ e ∈ m.regs, e.1 < RegId.key ⟨.DTD_STS, 0, 0⟩ ∨ (e.2 ^^^ Reg.resetWord .DTD_STS 0).toNat % 8 < 4)
    (l : Nat) : m.linkHolds l = false := by
  have hu (u : Nat) : m.rd F.DTD_STS_STATE u < 4 := by
    have := get_all (P := fun w : Word => (w ^^^ Reg.resetWord .DTD_STS 0).toNat % 8 < 4) (k := RegId.key ⟨.DTD_STS, u, 0⟩) m.regs
      (show ((0 : Word) ^^^ Reg.resetWord .DTD_STS 0).toNat % 8 < 4 by decide) fun e he hk => by
        rcases h e he with h1 | h1
        · rw [hk] at h1; simp only [RegId.key] at h1; omega
        · exact h1
    simpa [Module.rd, Module.word, F.DTD_STS_STATE] using this
  simp only [Module.linkHolds, Bool.and_eq_false_iff, List.any_eq_false]
  exact .inr fun u _ => by have := hu u; simp; omega
/-! ### The sequencer -/

/-- Core 0 as given, every other core as at reset. -/
def core0 (k : Core) : Module := base.setCore 0 k

/-- Core 0 runs at PC 64 with G1 = 16 and G2 = −1. -/
def live : Module := core0 { st := .running, pc := 64, lastPc := 56, g := [(1, 16), (2, -1)] }

theorem wit_fetches : Fetches live 0 := by refine ⟨?_, ?_, ?_⟩ <;> decide

theorem wit_loadStore : Fetches live 0 ∧ (((live.core 0).getG 1 + (8 : Word).signExtend 64).toNat = 24) ∧
    ((live.core 0).getG 1 + (0x21_7FE8 : Word).signExtend 64).toNat + 8 = 0x21_8000 ∧ live.wordBad (scrKey 0 24 / 64) = false := by
  refine ⟨wit_fetches, ?_, ?_, ?_⟩ <;> decide

/-- The line at scratch offset 128 holds an uncorrectable error. -/
def badLine : Module := { live with scrErr := [(scrKey 0 128 / 8, 3)] }

theorem wit_loadStoreFaults : Fetches badLine 0 ∧ ((badLine.core 0).getG 1 + (4 : Word).signExtend 64).toNat % 8 ≠ 0 ∧
    0x18_0000 < ((badLine.core 0).getG 1 + (0x17_FFF0 : Word).signExtend 64).toNat + 8 ∧
    ((badLine.core 0).getG 1 + (112 : Word).signExtend 64).toNat = 128 ∧ (fetched badLine 0).wordBad (scrKey 0 128 / 64) = true := by
  refine ⟨?_, ?_, ?_, ?_, ?_⟩ <;> first | decide | (refine ⟨?_, ?_, ?_⟩ <;> decide)

theorem wit_frames : ∃ t, exec (.st 0 1 2 8) (st live) = .next t := ⟨_, rfl⟩

theorem wit_branch : Fetches live 0 ∧ (live.core 0).getG 2 ≠ (live.core 0).getG 1 ∧ ((live.core 0).getG 2).toInt < ((live.core 0).getG 1).toInt ∧
    ((live.core 0).getG 1).toNat < ((live.core 0).getG 2).toNat := by
  refine ⟨wit_fetches, ?_, ?_, ?_⟩ <;> decide

theorem wit_coreFault : (live.core 0).st = .running ∧ (live.station 0).tx.length < 4 := by decide

theorem wit_reserved : Fetches live 0 ∧ coreWordOk 0xFF = false := ⟨wit_fetches, by decide⟩

/-- Core 0 waits for its event counter 0 to reach 5, with a time limit. -/
def waiting : Module := (core0 { st := .waiting, wait := some (.event 0 5) }).wr F.SEQ_CFG_CFG 0 0x100

theorem wit_waitTimeout : (waiting.core 0).st = .waiting ∧ waiting.rd F.SEQ_CFG_CFG 0 / 256 % 16 ≠ 0 := by decide

theorem wit_wait : (0 : Int) ≤ (live.word .SEQ_EVC 0 0 - ((live.core 0).getG 0).setWidth 32).toInt ∧
    (live.word .SEQ_EVC 0 0 - ((live.core 0).getG 1).setWidth 32).toInt < 0 := by decide

theorem wit_waitSatisfied : let m := waiting.setWord .SEQ_EVC 0 0 5
    (m.core 0).st = .waiting ∧ (m.core 0).wait = some (.event 0 5) ∧ (0 : Int) ≤ (m.word .SEQ_EVC 0 0 - 5).toInt := by decide

theorem wit_haltComplete : let m := core0 { st := .running, halting := true }
    (m.core 0).st = .running ∧ (m.core 0).halting = true ∧ m.enginesIdle 0 = true := by decide

theorem wit_issue : let d : Desc := ⟨.dma, 0, none, 0⟩
    let m := core0 { st := .running, mxq := List.replicate 8 d }
    (m.core 0).fetching = true ∧ ((m.core 0).mxq.length = 8) ∧ (m.core 0).dmq.length < 8 := by decide

/-- Core 1 is good and in the partition of core 0, and core 0's message 7 for it stands in the transmit queue. -/
def talk : Module :=
  { live with
    plat := { parts := [{ num := 1, fn := 1, clusters := 2 ^ 144 - 1, arqMap := 1, dpqMap := 1 }] }
    ctl := [(0, { tx := [⟨0, 1, false, none, 7⟩] })] }

theorem wit_send : (talk.station 0).tx.length < 4 ∧ talk.undeliverable ⟨0, 16, false, none, 3⟩ = false := by decide

theorem wit_recv : let m := { live with ctl := [(0, { rx0 := [⟨1, 0, false, none, 7⟩], rx1 := [⟨1, 0, true, none, 8⟩] })] }
    (m.station 0).rx0 = ⟨1, 0, false, none, 7⟩ :: [] ∧ (live.station 0).rx0 = [] ∧ (live.station 0).rx1 = [] ∧
    ({ live with ctl := [(0, { rx1 := [⟨1, 0, true, none, 8⟩] })] } : Module).station 0 = { rx1 := [⟨1, 0, true, none, 8⟩] } := by decide

theorem wit_arrive : (talk.station 0).tx.find? (fun y => y.c0 == false) = some ⟨0, 1, false, none, 7⟩ ∧
    talk.undeliverable ⟨0, 1, false, none, 7⟩ = false ∧ talk.coreAbsorbs 1 = false ∧ (talk.station 1).rx1.length < 16 := by decide

theorem wit_crecvResume : let m := { core0 { st := .waiting, wait := some (.message 2) } with ctl := [(0, { rx0 := [⟨1, 0, false, none, 7⟩] })] }
    (m.core 0).st = .waiting ∧ (m.core 0).wait = some (.message 2) ∧ (m.station 0).takeRx = some (⟨1, 0, false, none, 7⟩, {}) := by decide

theorem wit_faultNotice : let x : CtlMsg := ⟨0, 576, true, none, 0x400_0000⟩
    let m : Module := { talk with ctl := [(576, { rx0 := [x] })] }
    (m.station 576).takeRx = some (x, {}) ∧ x.word.toNat / 2 ^ 26 = 1 ∧ (m.partOf 0).isSome ∧ m.rd F.RST_PFAULT_A_VALID 4 1 = 0 := by decide


/-- The way between the stations of one die, with and without the clock of its routers. -/
theorem wit_controlWay : talk.ctlHolds (ctlDie 0) (ctlDie 1) = false ∧
    ({ talk with lockLost := [1] } : Module).ctlHolds (ctlDie 0) (ctlDie 1) = true := by decide
/-! ### The engines -/

/-- An INT8 pass of one row: LOAD, the bundle at offset 0, the row at 8192, the output at 16384. -/
def passBits : Nat := 5 + 5 * 16 + 256 + 2048 + 128 * 2 ^ 55 + 256 * 2 ^ 113

/-- A descriptor of an event counter. -/
def desc (kind : DescKind) (bits : Nat) : Desc := ⟨kind, bits, some 3, 0⟩

theorem wit_passReject : let m := core0 { st := .running, mxq := [desc .mpass 0x2800] }
    (m.core 0).mxq = desc .mpass 0x2800 :: [] ∧ (m.core 0).pass = none ∧ m.mpStatus 0 0x2800 = some 3 := by decide

theorem wit_passLoad : let m := core0 { st := .running, mxq := [desc .mpass passBits] }
    m.mpStatus 0 passBits = none ∧ mpRing passBits = false ∧ mpLoad passBits = true ∧ mpPair passBits = some (.int8, .int8, 64) := by decide

theorem wit_passTile : let m := core0 { st := .running, mxq := [desc .mpass (passBits - 256)], tile := some ⟨.int8, [], [], [], []⟩ }
    m.mpStatus 0 (passBits - 256) = none ∧ mpRing (passBits - 256) = false ∧ mpLoad (passBits - 256) = false ∧ (m.core 0).tile.isSome := by
  decide

/-- A pass with a sidecar that names no format of R104. -/
theorem wit_passSidecar : let m := core0 { st := .running, mxq := [desc .mpass (passBits + 512)] }
    m.mpStatus 0 (passBits + 512) = none ∧ mpScx (passBits + 512) = true ∧ sidecarFmt .int8 = false := by decide

/-- A pass of one row that writes ring 0. -/
def ringBits : Nat := 5 + 5 * 16 + 2 ^ 13 + 128 * 2 ^ 55

theorem wit_ringStall : let m := core0 { st := .running, tile := some ⟨.int8, [], [], [], []⟩, pass := some ⟨desc .mpass ringBits, 0, 0, []⟩ }
    let long := ringBits + 64 * 2 ^ 16
    (m.core 0).tile.isSome ∧ mpRing ringBits = true ∧ (mpPair ringBits).isSome ∧ 0 < mpRows ringBits ∧ m.ringHeld 0 ringBits 0 = false ∧
    m.rowHolds 0 (desc .mpass ringBits) 0 = none ∧ m.ringHeld 0 long 64 = true ∧ 64 < mpRows long := by decide

theorem wit_passEnds : mpRows passBits = 1 := by decide

theorem wit_mcvt : cvtOk 0 = true ∧ (cvtTarget 0).blockScaled = false ∧ cvtOk 0xFFFF_FFFF = false := by decide

theorem wit_columnSum : let t : Tile := ⟨.int8, List.replicate 4096 0, [], [], []⟩
    t.side = [] ∧ t.weight 3 5 = .fin (Dy.ofInt 0) := by decide

/-- COPY of one FP32 row from 0 to 4096. -/
def copyBits : Nat := 3 * 2 ^ 60 + 1024 * 2 ^ 92

theorem wit_vector : let m := core0 { st := .running, vxq := [desc .vop copyBits] }
    (m.core 0).vxq = desc .vop copyBits :: [] ∧ (m.core 0).vec = none ∧ vOp copyBits = 0 ∧ m.vStatus 0 copyBits = none ∧
    vRing copyBits = false ∧ m.vStatus 0 (copyBits + 2 ^ 13) = some 3 := by decide

theorem wit_vectorRow : vKind (vOp copyBits) = some .unary ∧ bitsAt copyBits 7 3 = 0 ∧ vCvt copyBits = 0 ∧ vRing copyBits = false ∧
    (base.vOperand 0 copyBits (vAmode copyBits) (vAaddr copyBits) (vApitch copyBits) 0 none).2.length = 64 ∧
    (∀ x ∈ (base.vOperand 0 copyBits (vAmode copyBits) (vAaddr copyBits) (vApitch copyBits) 0 none).2, x.bad = false) := by decide

theorem wit_control : ∀ x ∈ [0x30 + 2 ^ 32, 0x31 + 2 ^ 32, 0x32 + 2 ^ 32, 0x33 + 2 ^ 32, 0x34, 0x35, 0x36, 0x37],
    (core0 { st := .running }).vStatus 0 x = none := by decide

theorem wit_vecEnds : let v : VecRun := ⟨desc .vop copyBits, 1, 0, false, 0, 0, 0, [], some (2, 5)⟩
    v.next = vRows v.desc.bits ∧ vKind (vOp 0x0F) = none ∧ 4 ≤ aOp 4 := by decide

/-- COPY that reads ring 1. -/
def ringRead : Nat := copyBits + 2 ^ 12 + 0x204000 / 4 * 2 ^ 32

theorem wit_ringShort : let v : VecRun := ⟨desc .vop ringRead, 0, 0, true, 0, 0, 0, [], none⟩
    let m := core0 { st := .running, vec := some v }
    v.next < vRows ringRead ∧ m.ringReady 0 v = false ∧ tileOf (vAaddr ringRead) = some 1 ∧ (m.core 0).ringPending 1 = false := by decide

theorem wit_ringReady : let v : VecRun := ⟨desc .vop ringRead, 0, 0, true, 0, 0, 0, [], none⟩
    ((core0 { st := .running, vec := some v }).wr F.VEC_RWCNT_COUNT 0 1 1).ringReady 0 v = true := by decide

/-- INIT of a state of one row, O at 4096. -/
def initBits : Nat := 16 + 1024 * 2 ^ 72

theorem wit_attention : let m := core0 { st := .running, vxq := [desc .atn initBits] }
    m.aStatus 0 initBits = none ∧ aOp initBits = 0 ∧ m.aStatus 0 (initBits + 2 ^ 19) = some 3 ∧ aW initBits = 1 ∧
    aScratch initBits = true ∧ aS initBits + 512 ≤ aO initBits := by decide

/-- m is 1.0 in the state of row 0 and the new maximum 0. -/
theorem wit_rescale : let m := base.put (scrKey 0 0) (leBytes 4 0x3F80_0000)
    let d := 1 + 16 + 512 / 4 * 2 ^ 52 + 1024 * 2 ^ 72
    (m.fpAt (aS d) 0).isNan = false ∧ (m.fpAt (aN d) 0).isNan = false ∧ Val.cmp 0 (m.fpAt (aN d) 0) (m.fpAt (aS d) 0) = true ∧
    Val.cmp 0 (m.fpAt (aS d) 0) (m.fpAt (aN d) 0) = false := by decide

/-! ### The DMA engine -/

/-- Core 0 as given, in a partition that may use all memory and whose pool has its table at far address 0. -/
def home (k : Core) : Module :=
  { core0 k with
    plat := {
      parts := [{ num := 1, fn := 1, clusters := 2 ^ 144 - 1, arqMap := 1, dpqMap := 1, ring := 0, bankEn := 2 ^ 144 - 1 }]
      memmap := [⟨1, 15, 0, 0, 2 ^ 47⟩]
      pools := [⟨1, 1, 0, false, 0, 1, 0x1_0000, 0⟩]
      survey := { rings := [⟨0, 2, 0, 7, 7, 1, 0⟩] } } }

/-- COPY of 64 bytes from scratch offset 0 to 4096. -/
def dmaBits : Nat := 64 * 2 ^ 32 + 0x2000_0000_0000 * 2 ^ 64 + 0x2000_0000_1000 * 2 ^ 128

/-- The module with a COPY at the head of the queue. -/
def copying : Module := home { st := .running, dmq := [desc .dma dmaBits] }

theorem wit_dma : (copying.core 0).dmq = desc .dma dmaBits :: [] ∧ (copying.core 0).dma = none ∧ dOp dmaBits = 0 ∧
    dRemote dmaBits = false ∧ copying.dStatus 0 dmaBits = none ∧ copying.dStatus 0 (dmaBits + 2 ^ 25) = some 3 ∧ 8 < dOp 9 := by decide +kernel

theorem wit_ways : ClearWays copying := ⟨rfl, rfl, rfl, noLinkHolds _ (by decide)⟩

theorem wit_quiet : Quiet copying ∧ Unregulated copying 0 ∧ copying.companionUp = false :=
  ⟨⟨wit_ways, rfl, rfl, rfl, rfl, fun _ => rfl, fun _ => rfl⟩, fun _ _ => rfl, by decide⟩

theorem wit_dmaCopy : copying.plat.rules = [] ∧ dSrc dmaBits % 4096 + dN dmaBits ≤ 4096 ∧ dDst dmaBits % 4096 + dN dmaBits ≤ 4096 ∧
    copying.gate 0 (dSrc dmaBits) (dN dmaBits) Right.read = .ok (.scratch 0 0) ∧
    copying.gate 0 (dDst dmaBits) (dN dmaBits) Right.write = .ok (.scratch 0 4096) ∧ ReadsWell copying (scrKey 0 0) (dN dmaBits) := by
  have h : ∀ w ∈ wordsOf (scrKey 0 0) (dN dmaBits), copying.wordBad w = false := by decide
  exact ⟨rfl, by decide, by decide, by rfl, by rfl, readsWell_of copying rfl h⟩

/-- A DMA descriptor in progress. -/
def dmaRun (bits : Nat) (phase : DmaPhase) : Module := home { st := .running, dma := some ⟨desc .dma bits, phase, 0, 0, 0, 0⟩ }

theorem wit_dmaDone : ((dmaRun dmaBits .done).core 0).dma = some ⟨desc .dma dmaBits, .done, 0, 0, 0, 0⟩ := by decide +kernel

/-- RSEND of no payload to unit 7, the header at scratch offset 0. -/
def rsendBits : Nat := 6 + 2 ^ 24 + 0x2000_0000_0000 * 2 ^ 64 + 7 * 2 ^ 240

/-- Every die-to-die link is FULL. -/
def linksUp (m : Module) : Module := (List.range 12).foldl (fun (m : Module) u => m.wr F.DTD_STS_STATE u 2) m

/-- A plat is loaded, this module is unit 5, and port 0 reaches unit 7 over its link 0. -/
def linked (m : Module) : Module :=
  let m : Module := { m with platLoaded := true, plat := { m.plat with survey := { m.plat.survey with unit := 5 } } }
  linksUp (((m.wr F.TWP_MBR_PRIMARY 0 0 7).wr F.TWP_STS_RESULT 0 1).wr F.TWL_STS_STATE 0 3)

theorem wit_ringSend : let m := linked (dmaRun rsendBits .full)
    let n := linked (dmaRun rsendBits .ready)
    let f (m : Module) := sendDma 0 (desc .dma rsendBits) (m.ringPort 0)
    (m.readHeader (f m) 7 0).2 = 0 ∧ (n.ringOf 0).isSome ∧
    (n.readSpan (f n).q 3 (dSrc rsendBits) 64).2.1 = St.ok ∧ (n.readSpan (f n).q 3 (dSrc rsendBits) 64).2.2.2 = [] ∧
    ((((n.kvdPoison 0 0).forget 0).count 0 21 64).fabReq (f n) .seal 7 0 0x09 64 [] [false]).2 = 0 := by decide +kernel

/-- Core 0 relays a ring of slots of 256 bytes, the first at scratch offset 0 and FULL. -/
def relaying : Module :=
  let m := linked (home { st := .running })
  let m : Module := { m with plat := { m.plat with parts := m.plat.parts.map fun p => { p with kind := 2 } } }
  let m := (m.wr F.ATN_RELAY_CFG_EN 0 1).wr F.ATN_RELAY_CFG_SLOT_LINES 0 4
  (m.wr F.ATN_RELAY_LAND_HI_ADDR_HI 0 0x2000).put (scrKey 0 0) (leBytes 4 ringMagic ++ [1])

theorem wit_relay : let m := relaying
    let seen (m : Module) := (m.relayLook 0 0x2000_0000_0000).2
    m.relayOk 0 = true ∧ ({ m with surveyOk := true } : Module).surveyOk = true ∧ m.tokensFor (m.relayLook 0 0x2000_0000_0000).1 0 = true ∧ (m.core 0).relay = none ∧ m.relaySlot 0 (m.core 0).relayNext = (256, 0x2000_0000_0000, 0) ∧
    (seen m).1 = St.ok ∧ (seen m).2.2 = false ∧ headNum (seen m).2.1 0 4 = ringMagic ∧ headNum (seen m).2.1 4 1 = 1 ∧
    headNum (seen m).2.1 0x24 4 = 0 ∧ (m.readHeader (m.sendRelay 0) (m.ringUnit 0) 0).2 = 0 ∧
    headNum (seen (m.put (scrKey 0 0x24) [193])).2.1 0x24 4 = 193 ∧ headNum (seen (m.put (scrKey 0 4) [0])).2.1 4 1 = 0 := by decide +kernel

/-- The last step of a forward, with the slot still to be freed. -/
theorem wit_relayDone : let m := relaying.setRelay 0 (some ⟨0, 0x2000_0000_0000, 0, .done, 0, false⟩)
    (m.core 0).relay = some ⟨0, 0x2000_0000_0000, 0, .done, 0, false⟩ ∧
    (m.writeSpan (askRelay 0) (fun _ => false) 2 (0x2000_0000_0000 + 4) [0]).2 = St.ok := by decide +kernel

theorem wit_ring : let m := dmaRun rsendBits .polling
    (m.ringOf 0).isSome ∧ (m.readSpan (askDma 0 0) 3 (dSrc rsendBits) 64).2.1 = St.ok ∧ (m.readSpan (askDma 0 0) 3 (dSrc rsendBits) 64).2.2.2 = [] ∧
    m.tokensFor (m.readSpan (askDma 0 0) 3 (dSrc rsendBits) 64).1 0 = true := by decide +kernel

/-- Core 0 polls, and its bucket of channel 2, of 40 flits, holds none or all of them. -/
def metered (drawn : Nat) : Module :=
  let m := dmaRun rsendBits .polling
  { m with
    plat := { m.plat with progs := [⟨0, 0, 64, 64, 5, 0⟩], fares := [⟨1, 0, 0, 1, 1000 * 2 ^ 32 + 40 * 2 ^ 48, 0⟩] }
    qos := { m.qos with drawn := if drawn = 0 then [] else [(bucketKey 0 2, drawn * 5120)] } }

theorem wit_tokens : (metered 40).srcReg 0 2 = (1000, 40) ∧ (metered 0).tokensFor ((metered 0).draw 0 2 3) 0 = true ∧
    (metered 40).tokensFor ((metered 40).draw 0 2 3) 0 = false := by decide +kernel

/-- A slot with the header of block 0 of ring 0. -/
def fullSlot : Module := (dmaRun rsendBits .polling).put (scrKey 0 0) (leBytes 4 ringMagic ++ [1, 0, 0, 0] ++ leBytes 4 0)

theorem wit_ringSlot : let l := (fullSlot.readSpan (askDma 0 0) 3 (dSrc rsendBits) 64).2.2.1
    headNum l 0 4 = ringMagic ∧ headNum l 4 1 = 1 ∧ headNum l 6 1 = 0 ∧ headNum l 8 4 = dN rsendBits := by decide +kernel

theorem wit_table : let m := copying
    m.poolOf 0 = some ⟨1, 1, 0, false, 0, 1, 0x1_0000, 0⟩ ∧ m.poison = [] := by decide +kernel

theorem wit_tableGate (x n r : Nat) (hr : r ∈ [Right.read, Right.write]) (h : x + n ≤ 72) :
    copying.gate 0 x n r = .ok (.far 0 (x - 0 + 0)) := by
  have h2 : x + n ≤ 2 ^ 47 := by omega
  have h2' : x + n ≤ 140737488355328 := by omega
  have h3 : x / 4096 = 0 := by omega
  have h4 : x % 4096 = x := by omega
  have h5 : x < 0x0780_0000_0000 := by omega
  have hp : copying.rights 1 x n = 15 := by
    have hr : ∀ l : List MemRange, l = [⟨1, 15, 0, 0, 2 ^ 47⟩] → x + max n 1 ≤ reachOf 2 l x := by
      rintro l rfl
      have h6 : max n 1 ≤ 72 - x ∨ x = 72 := by omega
      have h7 : x < 140737488355328 := by omega
      simp [reachOf, h7]; omega
    simp [Module.rights, copying, home, List.filter_cons, hr]
  have hq : copying.partOf 0 = some { num := 1, fn := 1, clusters := 2 ^ 144 - 1, arqMap := 1, dpqMap := 1, ring := 0, bankEn := 2 ^ 144 - 1 } := by decide
  have hm : copying.mapAllows 0 x n r = true := by
    simp only [List.mem_cons, List.not_mem_nil, or_false] at hr
    rcases hr with rfl | rfl <;> simp [Module.mapAllows, hq, hp] <;> decide
  have hs : copying.site x = .ok (.far 0 x) := by
    have : copying.regionsNow = [implicitRegion] := rfl
    simp [Module.site, h5, Module.placeFar, this, implicitRegion, Region.place, h3, h4]
  have hk : copying.pathStatus 0 x (.far 0 x) = St.ok := by
    have : copying.pathLinks (some 0) (destRouter x (.far 0 x)) = [] := show copying.pathLinks (some 0) (some (farRouter 0)) = [] by decide +kernel
    simp [Module.pathStatus, this]
  have hd : copying.farLost 0 = false := by decide
  simp [Module.gate, hm, hs, hk, Module.siteStatus, hd]

/-- A table with one free billet, and one with none free whose billet is counted twice. -/
theorem wit_tableClauses : let m := copying.put (farKey 0 8) [1]
    let n := copying.put (farKey 0 64) [2]
    m.num (farKey 0 8) 4 = 1 ∧ m.num (farKey 0 12) 4 = 0 ∧ n.num (farKey 0 64) 2 = 2 ∧ n.num (farKey 0 8) 4 = 0 ∧
    (copying.put (farKey 0 64) [1]).num (farKey 0 64) 2 = 1 ∧ (copying.put (farKey 0 64) [1]).num (farKey 0 8) 4 < 2 ^ 32 - 1 := by decide +kernel

/-! ### Bank operations, refresh, codes, far memory, scrubs -/

/-- FILL of page 2 with 0. -/
def fillBits : Nat := 2 * 2 ^ 128 + 2 ^ 160

/-- A bank operation in progress on slice 0. -/
def bopRun (cleaning : Bool) (done : Tbl Nat) (status : Nat) : BopRun :=
  ⟨desc .bop fillBits, 0, cleaning, done, [], 0, 0, status, false, []⟩

/-- The module with that operation. -/
def banking (cleaning : Bool) (done : Tbl Nat) (status : Nat) : Module :=
  (home { st := .running }).setSlice 0 { bop := some (bopRun cleaning done status), cache := [(0, some ⟨1, true, false⟩), (2048, some ⟨128, true, false⟩)] }

theorem wit_bank : let m := home { st := .running, bkq := [desc .bop fillBits] }
    bSlice 0 fillBits = 0 ∧ (m.core 0).bkq = desc .bop fillBits :: [] ∧ (m.slice 0).bop = none ∧ m.bopGrant 0 = some (corePlace 0) ∧
    bOp fillBits = 0 ∧ m.bStatus 0 fillBits = none ∧ m.bStatus 0 (fillBits + 2 ^ 31) = some 3 ∧ 10 ≤ bOp 10 := by decide +kernel

theorem wit_bankSteps : ((banking true [] 0).slice 0).bop = some (bopRun true [] 0) ∧ (bopRun true [] 0).cleaning = true ∧
    2 ∈ (bopRun false [] 0).stepping ∧ ((banking false [] 0).slice 0).held = [] ∧ bOp fillBits = 0 ∧ bDfmt fillBits = 0 ∧ bT fillBits = 0 := by
  decide +kernel

theorem wit_bankWrites (w : Nat) : (banking true [] 0).bankHolds ((banking true [] 0).ranOf { src := 0, key := 8192 }) w = none := by
  have h : (banking true [] 0).needsSlow w = false := by
    have : (banking true [] 0).wordClass w = 0 := by
      simp [Module.wordClass, banking, home, core0, base, State.reset, Module.setSlice, Module.setCore, patOf, lightClass]
    simp [Module.needsSlow, this]
  simp only [Module.bankHolds, h]
  simp [Module.repairHolds, Module.slowOn, Module.slowOf, banking, home, core0, base, State.reset, Module.setSlice, Module.setCore, Tbl.get]

theorem wit_bankPage : bOp fillBits ≤ 8 ∧ bAfmt fillBits = 0 ∧ bBfmt fillBits = 0 ∧ bDfmt fillBits = 0 ∧
    ∀ p ∈ [bApage fillBits, bBpage fillBits, bDpage fillBits], ∀ w ∈ wordsOf (nearKey 0 ((p + 0) * 4096)) 4096, base.wordBad w = false := by
  decide +kernel

theorem wit_bankEnds : (bopRun false [(2, 1)] 0).stepping = [] ∧ (bopRun false [(2, 1)] 9).stepping = [] ∧
    ((banking false [(2, 1)] 9).slice 0).bop = some (bopRun false [(2, 1)] 9) := by decide +kernel

theorem wit_refresh : base.sliceLive 0 = true ∧ ({ base with codes := [(0, 1)] } : Module).sliceLive 0 = false ∧
    (base.slice 0).stepIn 2 = false ∧ ((banking false [] 0).slice 0).stepIn 2 = true ∧
    (base.setSlice 0 { pending := [7] }).pagePending 0 7 = true := by decide +kernel

theorem wit_slow : let a : SlowPath := ⟨5, 320, false, [], [3]⟩
    let m := base.setSlow 0 [a]
    let n := base.setSlow 0 [{ a with begun := true }]
    m.slowOf 0 = [] ++ a :: [] ∧ ((([] ++ a :: []) : List SlowPath).filter (·.begun)).length < decoders 0 ∧ n.slowOf 0 = [] ++ { a with begun := true } :: [] ∧
    Tbl.get [] n.slowBack 0 = [] := by
  decide

theorem wit_far : base.farLost 0 = false ∧ (base.far 0).retraining = false ∧ (base.setFar 0 { retraining := true }).far 0 = { retraining := true } ∧
    (base.setFar 0 { retraining := true, fails := 1 }).far 0 = { retraining := true, fails := 1 } ∧ privileged reqHost = true ∧
    base.rd F.FMC_CTL_ISOLATE 0 = 0 ∧ privileged 3 = false := by decide

/-- Scrub registers of die 0: the first page of a target. -/
def scrubbing : Module := base.wr F.SCB_LEN_LO_VALUE_LO 0 1

theorem wit_scrub : let m := scrubbing
    m.rd F.SCB_LEN_LO_VALUE_LO 0 * 4096 + m.rd F.SCB_LEN_HI_VALUE_HI 0 * 2 ^ 32 = 4096 ∧ m.rd F.SCB_STS_BUSY 0 = 0 ∧
    m.scrubTarget 0 0 3 = 0 ∧ (m.wr F.SCB_STS_BUSY 0 1).rd F.SCB_STS_BUSY 0 = 1 ∧
    scrubSize 0 < (m.wr F.SCB_START_LO_VALUE_LO 0 0x5_0000).rd F.SCB_START_LO_VALUE_LO 0 * 4096 + 4096 := by decide

/-- A SCAN of the first page of slice 3. -/
def scan : Scrub := ⟨false, 0, 3, 0, 0, 4096, 0, 0, 0, 0, 0, 0, 0, 0, 0, [], [], 0, 0, false⟩

theorem wit_scrubEnds : let m : Module := { base with scrubs := [(0, some scan)] }
    m.scrubEnds 0 scan = none ∧ m.scrubWaits 0 scan = false ∧ m.scrubEnds 0 { scan with next := 1 } = some 0 ∧
    m.scrubEnds 0 { scan with abort := true } = some 5 ∧
    ((linked m).writeSpan askOstler (fun _ => false) 6 0 (scan.summary 0 5)).2 ≠ 0 ∧
    ((linked m).writeSpan askOstler (fun _ => false) 6 0 (scan.summary 0 5)).2 ≠ St.waits ∧
    (linked m).tokensFor ((linked m).writeSpan askOstler (fun _ => false) 6 0 (scan.summary 0 5)).1 ostlerIface = true := by decide +kernel

/-- A REPAIR whose first word has one wrong symbol, and so is written back. -/
theorem wit_scrubRepair : let m : Module := { base with wordErr := [(nearKey 3 0 / 64 * 72, 7)] }
    m.wordClass (nearKey 3 0 / 64) = 1 ∧ nearKey 3 0 / 64 ∉ m.poison ∧ m.keepsWord 0 3 0 (nearKey 3 0 / 64) = false ∧
    m.scrubWaits 0 { scan with repair := true } = false := by decide +kernel

theorem wit_repair : let m := base
    m.rd F.SCB_RPR_STS_BUSY 0 = 0 ∧ m.scrubTarget 0 0 3 = 0 ∧ m.rd F.SCB_RPR_PAGE_PAGE 0 * 4096 < scrubSize 0 ∧
    m.protects (scrubUnit 0 0 3) 0 4096 = false := by decide

/-- The repair of page 5 of slice 3, before and after its copy. -/
theorem wit_repairRuns : ∀ copied ∈ [false, true], let r : Repair := ⟨0, 3, 5, copied, []⟩
    let m : Module := { base with repairs := [(0, some r)] }
    Tbl.get none m.repairs 0 = some r ∧ m.protects (scrubUnit 0 r.kind r.unit) (r.page * 4096) 4096 = false ∧ r.held = [] := by decide
/-! ### The mesh -/

/-- A request of core 0 of 8 bytes at the start of its own slice. -/
def pkt (data : List Byte) (poison : List Bool) : Packet := ⟨0, 5, 0, 1, none, 0x1000_0000_0000, 8, data, poison, {}⟩

/-- Core 0 may use all memory, and every die-to-die link is FULL. -/
def meshed : Module := linked (home { st := .running })

theorem meshed_links : ∀ e ∈ meshed.regs, e.1 < RegId.key ⟨.DTD_STS, 0, 0⟩ ∨ (e.2 ^^^ Reg.resetWord .DTD_STS 0).toNat % 8 < 4 := by decide +kernel

theorem meshed_ways : ClearWays meshed := ⟨rfl, rfl, rfl, noLinkHolds _ meshed_links⟩

theorem meshed_quiet : Quiet meshed := ⟨meshed_ways, rfl, rfl, rfl, rfl, fun _ => rfl, fun _ => rfl⟩

theorem wit_served (data : List Byte) (poison : List Bool) (op : Nat)
    (h : (op, data, poison) ∈ [(0, [], []), (1, leBytes 8 9, [false]), (2, leBytes 8 9, [false]), (3, leBytes 8 9 ++ leBytes 8 0, [false])]) :
    Served meshed (pkt data poison) op (.slice 0 0) (nearKey 0 0) := by
  simp only [List.mem_cons, List.not_mem_nil, or_false, Prod.mk.injEq] at h
  rcases h with ⟨rfl, rfl, rfl⟩ | ⟨rfl, rfl, rfl⟩ | ⟨rfl, rfl, rfl⟩ | ⟨rfl, rfl, rfl⟩ <;>
    exact ⟨⟨by decide +kernel, by decide +kernel, by decide +kernel⟩, ⟨by decide +kernel, by decide +kernel, by decide +kernel⟩, by rfl, by rfl,
      by unfold LinksUp; decide +kernel, by decide +kernel, meshed_quiet, readsWell_of meshed rfl (by decide +kernel)⟩

theorem wit_noRule : meshed.ruleOf (pkt (leBytes 8 9) [false]) = none ∧ ∀ c o, Site.slice 0 0 ≠ .scratch c o := by
  refine ⟨by decide +kernel, fun _ _ => by simp⟩

theorem wit_stopped : let m := base
    let p := pkt (leBytes 8 9) [false]
    packetWf p 2 = true ∧ m.mayIssue 2 p = true ∧ Tbl.get [] m.qos.held (srcIface 0 none * 4 + (channel m p).val) = [] ∧
    m.txWaits (bucketKey (srcIface 0 none) (channel m p)) = false ∧ p.src.toNat ≠ reqCompanion ∧ m.tripped = false ∧
    m.bucketHolds (srcIface 0 none) (channel m p) (m.charged 2 p) = true ∧ m.ruleOf p = none ∧ m.net.has 0 5 = false ∧
    (match m.sourceCheck 0 p.addr p.len Right.write with | .error e => e == St.outOfMap | .ok _ => false) = true := by decide +kernel

/-- A position that resets issues nothing, and a request waits behind one that waits on its channel. -/
theorem wit_notIssued : let p := pkt (leBytes 8 9) [false]
    let k := srcIface 0 none * 4 + (channel base p).val
    ({ base with resetting := [0] } : Module).mayIssue 2 p = false ∧
    let m : Module := { base with qos := { base.qos with held := [(k, [(2, p)])] } }
    channel m p = channel base p ∧ Tbl.get [] m.qos.held k ≠ [] ∧ m.mayIssue 2 p = true := by decide +kernel

/-- Domain N of die 0 is without lock, and what comes to its routers waits. -/
def dark : Module := { meshed with lockLost := [1] }

theorem wit_heldWay : let p := pkt (leBytes 8 9) [false]
    packetWf p 2 = true ∧ dark.mayIssue 2 p = true ∧ Tbl.get [] dark.qos.held (bucketKey (srcIface 0 none) (channel dark p)) = [] ∧
    dark.bucketHolds (srcIface 0 none) (channel dark p) (dark.charged 2 p) = true ∧ dark.ruleOf p = none ∧
    (match dark.sourceCheck 0 p.addr p.len Right.write with | .ok x => decide (x = .slice 0 0) | .error _ => false) = true ∧
    dark.pathTests (way dark p (.slice 0 0)) = true := by decide +kernel

theorem wit_atomicScratch : let p : Packet := ⟨0, 5, 0, 1, none, 0x2000_0000_0000, 8, leBytes 16 9, [false], {}⟩
    packetWf p 3 = true ∧ meshed.siteStatus 0 (.scratch 0 0) 8 = St.ok ∧
    (match meshed.sourceCheck 0 p.addr 8 Right.atomic with | .ok x => decide (x = .scratch 0 0) | .error _ => false) = true := by decide +kernel

/-- A rule of two cores at scratch offset 0, led by core 0. -/
def rule : McRule := ⟨1, 0, 0, ⟨0, 0, 1, 0⟩, 0, 64, 0⟩

/-- The mesh with that rule. -/
def multi : Module := { meshed with plat := { meshed.plat with rules := [rule] } }

/-- A write of 64 bytes there. -/
def mpkt : Packet := ⟨0, 5, 0, 1, none, 0x2000_0000_0000, 64, List.replicate 64 7, [false], {}⟩

theorem wit_multicast : let m := multi
    packetWf mpkt 1 = true ∧ m.mayIssue 1 mpkt = true ∧ Tbl.get [] m.qos.held (srcIface 0 none * 4 + (channel m mpkt).val) = [] ∧
    m.txWaits (bucketKey (srcIface 0 none) (channel m mpkt)) = false ∧ mpkt.src.toNat ≠ reqCompanion ∧
    m.bucketHolds (srcIface 0 none) (channel m mpkt) (m.charged 1 mpkt) = true ∧ m.ruleOf mpkt = some rule ∧ m.net.has 0 5 = false ∧
    (match m.multiCheck mpkt rule with | .ok x => decide (x = .scratch 0 0) | .error _ => false) = true ∧ rule.endpoint = 0 ∧
    rule.box.x0 ≤ rule.box.x1 ∧ rule.box.x1 < 24 ∧ rule.box.y0 ≤ rule.box.y1 ∧ rule.box.y1 < 24 ∧ m.net.ret = [] ∧ mpkt.len ≤ 448 ∧
    (∀ t ∈ rule.box.cores, m.siteStatus 0 (.scratch t 0) 64 = St.ok) ∧ 0 + mpkt.len ≤ 2 ^ 22 ∧
    (∀ t ∈ rule.box.cores, ∃ b ∈ [((0 : CoreId), (0 : Fin 3)), (1, 0)], b.1.val = t) := by decide +kernel

theorem multi_tree : ∀ t ∈ rule.box.cores, LinksUp multi (multi.pathNodes (some 0) (some (coreAt 0 0)) ++ rule.box.treePath t) := by
  unfold LinksUp; decide +kernel

theorem quiet_plat (m : Module) (p : Plat) (h : Quiet m) : Quiet { m with plat := p } := h

theorem wit_multicastQuiet : Quiet multi := quiet_plat meshed _ meshed_quiet

/-- The copy of a local branch in its router's retention buffer. -/
def copy : Retained := ⟨mpkt, [0], true, 0, rule.box, 0, 2, false, 0, []⟩

theorem wit_retained : let m : Module := { multi with net := { multi.net with ret := [(1, [copy])] } }
    Tbl.get [] m.net.ret 1 = copy :: [] ∧ copy.branch = 0 ∧ copy.stalled = false ∧ copy.packet.vc = 1 := by decide

/-- Core 0 has the request of tag 5 outstanding, and its answer is on the mesh. -/
def answered (read stale : Bool) : Net := { outst := [⟨0, 5, read, stale⟩], resp := [⟨0, 5, read, 0, [], [], 3, 1, 0, [0]⟩] }

theorem wit_answers : ∀ read ∈ [true, false],
    (takeResp (fun x => x.read == read && x.src == 0 && x.tag == 5) [] (answered read false).resp).isSome ∧
    (answered read false).tagState 0 5 = some false ∧ (answered read true).tagState 0 5 = some true ∧
    ({ answered read false with outst := [] } : Net).tagState 0 5 = none ∧ meshed.absorbsAnswers 0 = false ∧
    ({ meshed with resetting := [0] } : Module).absorbsAnswers 0 = true ∧ meshed.tripped = false ∧ meshed.pathTests [0] = false ∧
    dark.pathTests [0] = true ∧ (∀ w ∈ (answered read false).mw, w.src ≠ 0 ∨ w.tag ≠ 5) := by decide +kernel

theorem wit_wack : let n : Net := { answered false false with mw := [⟨0, 5, [3], none, false⟩] }
    n.mw = [⟨0, 5, [3], none, false⟩] ∧
    (takeResp (fun x => (!x.read && x.src == 0 && x.tag == 5) && x.target == 3) [] n.resp).map (·.1.target) = some 3 := by decide

theorem wit_drain : ({ base with resetting := [0] } : Module).absorbs (0 : CoreId) = true := by decide

/-! ### Regulators and registers -/

theorem wit_regulators : let m := ((base.wr F.QOS_HUBSRC_CFG_VC 4 1 9).wr F.QOS_HUBSRC_REG_RATE 4 100 9).wr F.QOS_HUBSRC_REG_BURST 4 10 9
    let i := srcIface 0x900 none
    (m.srcReg i 1).1 ≠ 0 ∧ m.bucketHolds i 1 (flitCharge 0 8 1) = true ∧ m.bucketHolds i 1 11 = false ∧
    (base.wr F.QOS_PUB_STS_STALE 4 1).rd F.QOS_PUB_STS_STALE 4 = 1 := by decide +kernel

/-- A read waits on channel 1 of core 0, and a packet in transit on that of port 2, at interfaces whose buckets are free or lack its charge. -/
theorem wit_releases : let p := pkt [] []
    let i := srcIface 0 none
    let x : FabMsg := ⟨8, ⟨7, 5, 3, 0, 0, p⟩⟩
    let m : Module := { base with
      qos := { base.qos with held := [(i * 4 + 1, [(0, p)])] }
      transit := [(2 * 4 + 1, [(3, x)])] }
    let n := (m.wr F.TWP_REG_RATE 2 100 1).wr F.TWP_REG_BURST 2 1 1
    (∀ v, v < 4 → Tbl.get [] m.qos.held (i * 4 + v) = if v = 1 then (0, p) :: [] else []) ∧ m.kindOf 0 p = 0 ∧
    m.bucketHolds i 1 (m.charged 0 p) = true ∧ Tbl.get [] m.transit (2 * 4 + 1) = (3, x) :: [] ∧ m.transitTokens 2 x = true ∧
    ({ n with qos := { n.qos with drawn := [((592 + 2) * 4 + 1, 5120)] } } : Module).transitTokens 2 x = false := by
  decide +kernel

/-- The way of a packet in transit from port 2 to port 3 is free; the module is ready and port 3 carries traffic, or it is not ready, or no port
reaches unit 8. -/
theorem wit_transits : let x : FabMsg := ⟨8, ⟨8, 5, 3, 0, 0, pkt [] []⟩⟩
    let m := (linked { base with transit := [(2 * 4 + 1, [(3, x)])] }).wr F.BRG_MOD_STS_READY 4 1
    let n := (m.wr F.TWP_STS_RESULT 3 1).wr F.TWL_STS_STATE (linkKey 3 0) 3
    (!(m.transitUp 2 3 x.control && m.transitHolds 2 3 x.control) && m.transitTokens 2 x) = true ∧ m.ready = true ∧ n.portUsable 3 = true ∧
    n.transitUp 2 3 x.control = true ∧ m.portUsable 3 = false ∧ m.fabRoute 8 = .none ∧ (m.wr F.BRG_MOD_STS_READY 4 0).ready = false := by
  decide +kernel

/-- Two requests of fares 1 and 2 wait at target 0, where fare 1 has a guarantee. -/
theorem wit_targetOrder : let m : Module := { base with plat := { fares := [⟨0, 1, 0, 0, 1000 * 2 ^ 32, 0⟩] } }
    let a : Want := ⟨1, some 5, 0, 64⟩
    let b : Want := ⟨2, some 9, 0, 64⟩
    a.fare ≠ b.fare ∧ Tbl.get 0 m.qos.spent (0 * 4352 + a.fare) < m.budget 0 a.fare ∧
    m.budget 0 b.fare ≤ Tbl.get 0 m.qos.spent (0 * 4352 + b.fare) ∧ ((5 : BitVec 16) - 9).toInt < 0 := by decide +kernel

theorem wit_registerWrite : let a := 0x3000_1000_0000 + 3 * 0x10_0000
    (regAt (a + (Reg.PLT_SRC_LEN).place.off)).map (·.reg) = none ∧
    (regAt (0x3004_0000_0000 + 0x30_0000 + (Reg.PLT_SRC_LEN).place.off)).map (·.reg) = some .PLT_SRC_LEN ∧
    (regAt (0x3000_1130_0000 + (Reg.FBK_FILTER).place.off)).map (·.reg) = some .FBK_FILTER ∧
    aligned4 (0x3000_1130_0000 + (Reg.FBK_FILTER).place.off) 4 = true ∧
    queueWindow (0x3000_1130_0000 + (Reg.FBK_FILTER).place.off) = none := by decide +kernel

theorem wit_registerHole : regDie 0x3000_000F_0000 ≠ none ∧ regAt 0x3000_000F_0000 = none ∧ queueWindow 0x3000_000F_0000 = none := by
  decide +kernel

theorem wit_registerError : regDie 0x3000_0000_0000 = some 0 ∧ queueWindow 0x3000_0000_0000 = none ∧ aligned4 0x3000_0000_0000 2 = false ∧
    aligned4 0x3000_0000_0002 4 = false ∧ aligned4 0x3000_0000_0000 8 = false ∧ base.rd F.BRG_RAERR_STS_ERR 0 = 0 ∧
    (base.wr F.BRG_RAERR_STS_ERR 0 1).rd F.BRG_RAERR_STS_ERR 0 = 1 := by decide +kernel

/-! ### The module loader -/

/-- A module-scope image with one empty PARTITION section at far address 0. -/
def image : List Byte :=
  leBytes 4 0x5441_4C50 ++ leBytes 2 1 ++ leBytes 2 0 ++ leBytes 4 0x80 ++ leBytes 2 1 ++ leBytes 18 0 ++ leBytes 64 0 ++
    leBytes 2 1 ++ leBytes 2 0 ++ leBytes 4 0x80 ++ leBytes 4 0 ++ leBytes 4 0

/-- The loader waits for a command, with that image as its source. -/
def loadable : Module :=
  (linksUp ((base.wr F.BRG_MOD_STS_STAGE 4 Stage.awaitPlat).wr F.PLT_SRC_LEN_LEN 4 0x80)).put (farKey 0 0) image

theorem wit_lost : Stage.awaitPlat ≤ loadable.stage ∧ (loadable.wr F.PLT_STS_BUSY 4 1).rd F.PLT_STS_BUSY 4 = 1 ∧
    loadable.rd F.PLT_STS_BUSY 4 = 0 := by decide +kernel

theorem wit_load : loadable.sourceErr 1 0 0 0x60 = none ∧ headerErr (loadable.img 0) 1 0 0x80 = none ∧
    (headerErr (base.img 0) 1 0 0x80).isSome ∧
    (match step1 (loadable.img 0) 1 0 0x80 with | .ok l => decide (l = [⟨1, 0x80, 0⟩]) | .error _ => false) = true ∧
    loadable.sourceErr 1 0 0 (min 0x80 (dirEnd (loadable.img 0))) = none ∧
    (base.sourceErr 1 0 0 0x60).isSome ∧
    (match step1 (loadable.img 0) 1 0 0x90 with | .ok _ => false | .error e => decide (e = (Plt.badLength, 8, 0))) = true := by decide +kernel

theorem wit_parts : let m (n : Nat) := loadable.wr F.PLT_PART_STS_STATE 4 n 3
    (m PSt.running).partState 3 = PSt.running ∧ (m PSt.stopped).partState 3 = PSt.stopped ∧ (m PSt.failed).partState 3 = PSt.failed ∧
    loadable.partState 3 = PSt.absent := by decide +kernel

/-- A load of the image at a step. -/
def loadRun (op step : Nat) (digest : List Byte) : LoadRun := { op := op, part := 3, step := step, src := 0, len := 0x80, digest := digest }

theorem wit_loadSteps : (loadRun 1 5 []).plat.pools = [] ∧ NoneHeld loadable ∧ loadable.lockLost = [] ∧ (∀ t, (loadable.slice t).bop = none) :=
  ⟨rfl, ⟨rfl, fun _ => rfl⟩, rfl, fun _ => rfl⟩

/-- The image with its digest in place. -/
def sealed : Module := loadable.put (farKey 0 0x40) (loadable.imgDigest 0 0x80)

theorem place_sealed (o : Nat) (h : o < 0x80) : sealed.placeFar (0 + o) = some (0, o) ∧ loadable.placeFar (0 + o) = some (0, o) := by
  have h3 : o / 4096 = 0 := by omega
  have h4 : o % 4096 = o := by omega
  have h5 : o < 0x0780_0000_0000 := by omega
  have r1 : sealed.regionsNow = [implicitRegion] := by decide +kernel
  have r2 : loadable.regionsNow = [implicitRegion] := by decide +kernel
  simp [Module.placeFar, r1, r2, implicitRegion, Region.place, h3, h4, h5]

/-- Its digest is the one that stands in its header, and no word of it is poisoned. -/
theorem wit_sealed : sealed.imgDigest 0 0x80 = sealed.imgDigestField 0 ∧ ∀ i, i < (0x80 + 63) / 64 → sealed.imgBad 0 i = false := by
  have hl : (loadable.imgDigest 0 0x80).length = 32 := by simp only [Module.imgDigest, shake256, List.length_map, List.length_range]
  have hb (o : Nat) (h : o < 0x80) : sealed.imgByte 0 o =
      if 0x40 ≤ o ∧ o < 0x60 then (loadable.imgDigest 0 0x80).getD (o - 0x40) 0 else loadable.imgByte 0 o := by
    simp only [Module.imgByte, (place_sealed o h).1, (place_sealed o h).2]
    rw [sealed, Module.put, Module.byte_storeTag, hl]
    by_cases hc : 0x40 ≤ o ∧ o < 0x60
    · rw [if_pos (by simp only [farKey]; omega), if_pos hc,
        show farKey 0 o - farKey 0 0x40 = o - 0x40 by simp only [farKey]; omega]
    · rw [if_neg (by simp only [farKey]; omega), if_neg hc]
  refine ⟨?_, by decide +kernel⟩
  have h1 : sealed.imgDigest 0 0x80 = loadable.imgDigest 0 0x80 := by
    refine congrArg (fun l => shake256 l 32) (List.map_congr_left fun o ho => ?_)
    have ho := List.mem_range.mp ho
    by_cases hc : 0x40 ≤ o ∧ o < 0x60
    · rw [if_pos hc, if_pos hc]
    · rw [if_neg hc, if_neg hc, hb o ho, if_neg hc]
  rw [h1]
  refine List.ext_getElem (by simp [Module.imgDigestField, hl]) fun i h _ => ?_
  have hi : i < 32 := by rw [hl] at h; exact h
  simp only [Module.imgDigestField, List.getElem_map, List.getElem_range]
  rw [hb (0x40 + i) (by omega), if_pos (by omega)]
  have : 0x40 + i - 0x40 = i := by omega
  rw [this, List.getD_eq_getElem?_getD, List.getElem?_eq_getElem h]; rfl

/-- Core 7 has a program in partition 1, which a load is about to start. -/
theorem wit_loadStarts : let e : ProgEntry := ⟨7, 0, 64, 64, 5, 0⟩
    let m : Module := { loadable.wr F.PLT_PART_STS_STATE 4 PSt.loading 1 with plat := { talk.plat with progs := [e] } }
    m.plat.pools = [] ∧ m.plat.progs.find? (fun x => x.core == e.core) = some e ∧ m.good e.core = true ∧
    (∃ p ∈ m.targets, e.core ∈ m.partCores p) ∧ m.lockLost = [] := by decide +kernel
/-! ### Clocks, resets, self-tests -/

/-- The module is powered. -/
def powered : Module := base.wr F.BRG_MOD_STS_STAGE 4 Stage.ready

theorem wit_noneHeld : NoneHeld base ∧ NoneHeld talk ∧ NoneHeld powered ∧ base.slow = [] ∧ ∀ t, (base.slice t).bop = none :=
  ⟨⟨rfl, fun _ => rfl⟩, ⟨rfl, fun _ => rfl⟩, ⟨rfl, fun _ => rfl⟩, rfl, fun _ => rfl⟩

theorem wit_clock : powered.stage ≠ 0 ∧ base.stage = 0 ∧ domainId (.m 0) ∉ powered.lockLost ∧
    domainId (.m 0) ∈ ({ powered with lockLost := [2] } : Module).lockLost ∧ 32 + 3 ∈ ({ powered with lockLost := [35] } : Module).lockLost ∧
    (powered.far 3).lost = false := by decide

theorem wit_resetCommands : privileged 0x800 = true ∧ privileged 5 = false ∧ rstBusy base 7 = 0 ∧ base.rstHeld 7 1 7 = false ∧
    (base.rstCores 7 7).filter base.good ≠ [] ∧ (∀ x ∈ (base.rstCores 7 7).filter base.good, base.owner x = none) ∧
    (base.rstCores 576 1).filter base.good ≠ [] ∧ rstBusy (base.wr F.RST_STS_BUSY 7 1) 7 = 1 := by decide +kernel

theorem wit_tidy : RstTidy base := fun e h => by simp [base, State.reset] at h

theorem wit_resetHeld : ({ talk with resetting := [7] } : Module).rstHeld 7 2 7 = true := by decide +kernel

theorem wit_resetFenced : let m : Module := { base with codes := [(7, 1)] }
    m.rstHeld 7 1 7 = false ∧ (m.rstCores 7 7).filter m.good = [] := by decide +kernel

theorem wit_resetJoins : let m : Module := { base with rst := [(576, some ⟨1, 0x101, 1, 1, [7], []⟩)] }
    m.rstHeld 7 1 7 = false ∧ (m.rstCores 7 7).filter m.good = [7] ∧ (m.owner 7).map Prod.fst = some 576 ∧ rstBusy m 7 = 0 := by decide +kernel

theorem wit_partitionReset : base.partState 3 ≠ PSt.running ∧ base.rstHeld 580 1 3 = false ∧ rstBusy base 580 = 0 ∧
    (talk.wr F.PLT_PART_STS_STATE 4 PSt.running 1).partState 1 = PSt.running ∧
    ((talk.wr F.PLT_PART_STS_STATE 4 PSt.running 1).rstCores 580 1).filter talk.good ≠ [] := by decide +kernel

theorem wit_fenced : ∀ code ∈ [1, 2, 3, 5, 6, 9, 13], let m : Module := { base with codes := [(7, code)] }
    rstBusy m 7 = 0 ∧ m.rstHeld 7 1 7 = false ∧ m.rstHeld 7 2 7 = false ∧ m.rstHeld 7 3 7 = false ∧ m.rstHeld 7 4 7 = false ∧
    m.rstHeld 7 5 7 = false ∧ (m.slice 7).held = [] ∧ m.code 7 = code := by decide +kernel

theorem wit_tested : let m : Module := { base with codes := [(7, 5)], passed := [(7, 3)] }
    m.code 7 % 4 = 1 ∧ Nat.testBit (m.code 7) 2 = true ∧ Nat.testBit (m.code 7) 3 = false ∧ Nat.testBit (Tbl.get 0 m.passed 7) 0 = true ∧
    Nat.testBit (Tbl.get 0 m.passed 7) 1 = true := by decide

theorem wit_cluster : let m : Module := { base with codes := [(0, 1)] }
    rstBusy m 576 = 0 ∧ m.rstHeld 576 4 0 = false ∧ m.rstHeld 576 5 0 = false ∧ (m.rstCores 576 0).filter (fun c => m.code c % 4 == 1) = [0] ∧
    base.rstHeld 576 4 0 = false ∧ (base.rstCores 576 0).filter (fun c => base.code c % 4 == 1 || base.code c % 4 == 2) = [] := by
  decide +kernel

/-- The reset block of core 7 runs a command. -/
def resetting (op phase : Nat) : Module := { base with resetting := [7], rst := [(7, some ⟨op, op, 7, phase, [7], []⟩)] }

theorem wit_resetSteps : (resetting 2 1).run (rstKey (.core 7)) = some ⟨2, 2, 7, 1, [7], []⟩ ∧
    (resetting 1 2).run (rstKey (.core 7)) = some ⟨1, 1, 7, 2, [7], []⟩ ∧
    (∀ e ∈ (resetting 1 2).rst, ∀ x ∈ e.2, rstKey (.core 7) ∉ x.waits ∧ ¬(x.phase = 4 ∧ x.waits = [])) ∧
    ({ base with rst := [(7, some ⟨1, 1, 7, 0, [], []⟩)] } : Module).rstHeld 7 1 7 = false ∧
    ({ talk with resetting := [7], rst := [(7, some ⟨2, 2, 7, 0, [], []⟩)] } : Module).rstHeld 7 2 7 = true := by decide +kernel

/-- A running partition whose program starts core 7 at 64. -/
def programmed : Module :=
  ({ resetting 1 2 with plat := { talk.plat with progs := [⟨7, 0, 64, 64, 5, 0⟩] } }).wr F.PLT_PART_STS_STATE 4 PSt.running 1

theorem wit_release : programmed.mayRelease 7 = true ∧ programmed.coreUnclocked 7 = false ∧ (programmed.prog 7).isSome = true := by decide +kernel

theorem wit_selfTest : (resetting 5 3).run 7 = some ⟨5, 5, 7, 3, [7], []⟩ ∧ base.good 7 = true ∧ base.load = none ∧ base.rst = [] ∧
    ({ base with ueAt := [(7, List.replicate 16 0)] } : Module).ueRose 7 = true ∧ base.ueRose 7 = false := by decide

/-! ### Bring-up, the Ledger, the boot, housekeeping -/

/-- A module at a stage. -/
def stageAt (n : Nat) : Module := base.wr F.BRG_MOD_STS_STAGE 4 n

/-- Every local machine of every logic die has ended. -/
def machinesDone : Module := (List.range 4).foldl (fun (m : Module) d => m.wr F.BRG_LOCAL_STS_MACHINES d 0xAAA) (stageAt Stage.localTests)

theorem wit_bringUp : base.stage = 0 ∧ base.svc.trip = none ∧ (stageAt Stage.fuses).stage = Stage.fuses ∧
    (stageAt Stage.fuses).boot.fast = false ∧ ((stageAt Stage.localTests).wr F.BRG_LOCAL_STS_MACHINES 2 0x555).machine 2 3 = 1 ∧
    (∀ d, d < 4 → ∀ k, k < 6 → 2 ≤ machinesDone.machine d k) ∧ machinesDone.platLoaded = false ∧ machinesDone.stage = Stage.localTests ∧
    (∀ l, l < 6 → (linksUp (stageAt Stage.localTests)).d2dUp l = true) := by decide +kernel

theorem wit_fast (n : Nat) : ({ base with boot := { fast := true, step := n } } : Module).boot.step = n := rfl

theorem wit_moduleReset : privileged 0x800 = true ∧ powered.stage ≠ 0 ∧ (0x0940 : BitVec 16) ≠ 0 := by decide

theorem wit_ledger : let m : Module := { base with ledger := { queue := [(2, [1, 0, 0, 0])] } }
    let r : LedRec := ⟨2, m.ledger.nextKey 2, 1, [1, 0, 0, 0], true⟩
    r.size ≤ m.ledger.free ∧ base.ledger.compacting = false ∧ 32768 ≤ base.ledger.free := by decide +kernel

/-- A Ledger whose current bank has no room, a record at its queue. -/
theorem wit_ledgerFull : let l : Ledger := { a := [⟨2, 0, 1, List.replicate 4096 0, true⟩] }
    l.free < ({ a := [] } : Ledger).free ∧ ({ l with a := List.replicate 300 ⟨2, 0, 1, List.replicate 4096 0, true⟩ } : Ledger).free < 32768 ∧
    ({ l with a := List.replicate 300 ⟨2, 0, 1, List.replicate 4096 0, true⟩ } : Ledger).free < (⟨2, 0, 1, [], true⟩ : LedRec).size := by decide +kernel

theorem wit_boot : let m := stageAt Stage.firmware
    m.stage = Stage.firmware ∧ m.boot.exch = 0 ∧ m.rd F.SVC_STS_RECOVERY 4 = 0 ∧ m.jr.state = Slot.empty ∧ m.svc.open' = false ∧
    m.svc.low = false ∧ m.svc.locked = false ∧ Tbl.wf 255 m.nor = true := by decide

theorem wit_housekeeping : powered.stage ≠ 0 ∧ chanKind 0 0 = 0 ∧ chanKind 0 64 ≠ 0 ∧ chanKind 4 0 = 0 ∧
    ({ base with svc := { record := some [1] } } : Module).svc.record = some [1] ∧ base.svc.record = none := by decide

/-- The readings of the hub: zeros but for v in channels 8 and 9, whose product is P_in. -/
def hubReads (v : Nat) : List (BitVec 16) := (List.range 40).map fun i => if i = 8 ∨ i = 9 then BitVec.ofNat 16 v else 0

/-- The powered module at a level G, its counts of rounds above and below the limit. -/
def atG (g high low : Nat) : Module := ({ powered with hsk := { powHigh := high, powLow := low } } : Module).wr F.THM_STS_G 4 g

/-- A module after the first n logic dies have read zeros, the first readings that it takes. -/
def zeros (m : Module) (n : Nat) : Module :=
  { m with hsk := { m.hsk with hist := (List.range n).flatMap fun st =>
      ((List.range (chanCount st)).filter fun ch => chanKind st ch == 0).map fun ch => (st * 128 + ch, [0]) } }

/-- A round of a module that reads zeros at the logic dies, in two steps that are evaluated apart. -/
theorem roundRead_eq (m : Module) (v : Nat) (h : ∀ n, n < 4 → (zeros m n).sampleStation [] n 0 = zeros m (n + 1)) (h0 : m = zeros m 0)
    (hr : m.rd F.HSK_ROUND_ROUND 4 = 0) :
    m.roundRead [] (hubReads v) [] = ((zeros m 4).sampleStation (hubReads v) 4 0).judgeRound [] 0 := by
  have hs : m.sample [] (hubReads v) 0 = (zeros m 4).sampleStation (hubReads v) 4 0 := by
    rw [← h 3 (by omega), ← h 2 (by omega), ← h 1 (by omega), ← h 0 (by omega), ← h0]
    simp [Module.sample, List.range_succ]
  rw [Module.roundRead, hr, hs]

theorem zeros_calm0 : (zeros (atG 0 0 0) 0).sampleStation [] 0 0 = zeros (atG 0 0 0) 1 := by decide +kernel
theorem zeros_calm1 : (zeros (atG 0 0 0) 1).sampleStation [] 1 0 = zeros (atG 0 0 0) 2 := by decide +kernel
theorem zeros_calm2 : (zeros (atG 0 0 0) 2).sampleStation [] 2 0 = zeros (atG 0 0 0) 3 := by decide +kernel
theorem zeros_calm3 : (zeros (atG 0 0 0) 3).sampleStation [] 3 0 = zeros (atG 0 0 0) 4 := by decide +kernel
theorem zeros_high0 : (zeros (atG 12 99 0) 0).sampleStation [] 0 0 = zeros (atG 12 99 0) 1 := by decide +kernel
theorem zeros_high1 : (zeros (atG 12 99 0) 1).sampleStation [] 1 0 = zeros (atG 12 99 0) 2 := by decide +kernel
theorem zeros_high2 : (zeros (atG 12 99 0) 2).sampleStation [] 2 0 = zeros (atG 12 99 0) 3 := by decide +kernel
theorem zeros_high3 : (zeros (atG 12 99 0) 3).sampleStation [] 3 0 = zeros (atG 12 99 0) 4 := by decide +kernel

/-- A round above the power limit at G 0, where nothing trips. -/
theorem wit_round : let x := (atG 0 0 0).roundRead [] (hubReads 5000) []
    x.tripCause = none ∧ x.overPower = true ∧ x.gLevel = 0 ∧ (atG 0 0 0).stage ≠ 0 := by
  simp only [roundRead_eq (atG 0 0 0) 5000 (fun n hn => by
    match n, hn with
    | 0, _ => exact zeros_calm0
    | 1, _ => exact zeros_calm1
    | 2, _ => exact zeros_calm2
    | 3, _ => exact zeros_calm3) (by decide +kernel) (by decide +kernel)]
  decide +kernel

/-- The hundredth round in a row above the limit at G 12 trips. -/
theorem wit_roundTrips : ((atG 12 99 0).roundRead [] (hubReads 5000) []).tripCause.isSome = true := by
  rw [roundRead_eq (atG 12 99 0) 5000 (fun n hn => by
    match n, hn with
    | 0, _ => exact zeros_high0
    | 1, _ => exact zeros_high1
    | 2, _ => exact zeros_high2
    | 3, _ => exact zeros_high3) (by decide +kernel) (by decide +kernel)]
  decide +kernel

/-- Readings above, below and within the limit, at a level and after rounds at which G rises, the cap comes, G falls, or stays. -/
theorem wit_globalStage : let m (g high low p : Nat) : Module := let x := atG g high low; { x with hsk := { x.hsk with pin := [p] } }
    (m 12 50 0 25000000).overPower = true ∧ 50 ≤ (m 12 50 0 25000000).hsk.powHigh ∧ (m 12 50 0 25000000).rd F.THM_STS_POWER_UNHELD 4 ≠ 1 ∧
    (m 1 0 7 1000000).overPower = false ∧ (m 1 0 7 1000000).underPower = true ∧ ¬((m 1 0 7 1000000).hsk.powLow + 1 < 8 ∨ (m 1 0 7 1000000).gLevel = 0) ∧
    (m 0 0 0 1000000).underPower = true ∧ (m 0 0 0 1000000).gLevel = 0 ∧
    (m 0 0 0 19360000).overPower = false ∧ (m 0 0 0 19360000).underPower = false := by decide +kernel

theorem wit_throttle : (∀ u, u < 31 → base.unitTemp 0 u < throttleAt u) ∧
    ((powered.wr F.HSK_CH_VALUE 0 850 2).throttle 0).2 = [1] := by decide +kernel

/-! ### The service port -/

/-- The port has dynamic address 9. -/
def port : Module := powered.wr F.SVC_STS_DYN_ADDR 4 9

/-- The port with a journal. -/
def slot (j : Journal) : Module := { port with jr := j }

theorem wit_service : port.reachable = true ∧ powered.reachable = false ∧ port.svcBusy = false ∧
    ({ port with boot := { exch := 1 } } : Module).svcBusy = true ∧ port.refusal = none ∧
    ({ port with svc := { open' := true } } : Module).refusal = some Sv.interlockOpen := by decide

theorem wit_staging : let m := slot { state := Slot.receiving, len := 65600, bytes := 128 }
    m.jr.state = Slot.receiving ∧ m.reachable = true ∧ m.svcBusy = false ∧ m.refusal = none ∧ 128 + 64 ≤ m.jr.len ∧
    ((slot { state := Slot.previous }).jr.state = Slot.previous) := by decide

theorem wit_readLedger : let m : Module := { port with ledger := { a := [⟨2, 0, 1, [1, 0, 0, 0], true⟩] } }
    (m.ledger.records 2)[0]? = some ⟨2, 0, 1, [1, 0, 0, 0], true⟩ ∧ (m.ledger.records 3)[0]? = none ∧ 0 < max 1 (ledKeep 2) := by decide

theorem wit_restart : let m : Module := { port with svc := { trip := some 5 } }
    m.reachable = true ∧ m.now < 5 + 30_000_000_000 ∧ 5 + 30_000_000_000 ≤ ({ m with now := 30_000_000_005 } : Module).now ∧ port.stage ≠ 0 := by
  decide

theorem wit_owner : ({ base with svc := { lock := some true }, ledger := { a := [⟨2, 0, 1, [1, 0, 0, 0], true⟩] } } : Module).ledger.newest 2 =
    some ⟨2, 0, 1, [1, 0, 0, 0], true⟩ := by decide

theorem wit_att : base.svc.att = none ∧ base.attPlace base.attDst 50240 = true ∧
    (base.wr F.ATT_DST_HI_ADDR 4 0xFFF).attPlace (base.wr F.ATT_DST_HI_ADDR 4 0xFFF).attDst 50240 = false ∧
    (base.readSpan askNow 2 base.attDst 32).2.1 ≠ St.ok ∧
    ((linksUp base).readSpan askNow 2 (linksUp base).attDst 32).2.1 = St.ok := by decide +kernel

theorem wit_staged : let m := slot { state := Slot.receiving, len := 65600, bytes := 128 }
    m.svc.lock = none ∧ ({ m with svc := { m.svc with lock := some true } } : Module).svc.lock ≠ none ∧ (∀ r ∈ m.ledger.queue, r.1 ≠ 2) := by decide

/-! ### Observation -/

theorem wit_freeze : base.frozen = false ∧ ((base.wr F.CTR_FRZ_STS_FROZEN 4 1).frozen = true ∨ base.frozen = false) ∧
    before base.frzAt (base.datumOf 4) = false ∧ before 0 5 = true ∧
    (base.wr F.CTR_FRZ_STS_ARMED 4 1).rd F.CTR_FRZ_STS_ARMED 4 = 1 ∧ before (base.datumOf 4) base.frzAt = false := by decide

/-- The sampler is on, with an interval of 1 microsecond, and the hub's Datum is 5,500. -/
def sampling : Module :=
  { base.wr F.CTR_SMP_STS_ON 4 1 with plat := { observe := { intervalUs := 1, collect := 1 } }, datum := [(4, 5500)] }

theorem wit_sample : sampling.rd F.CTR_SMP_STS_ON 4 = 1 ∧ sampling.plat.observe.collect = 1 ∧ sampling.plat.observe.intervalUs * 1000 = 1000 ∧
    before sampling.obs.smp.last (5500 - 5500 % 1000) = true := by decide

/-- A record, of a type that the filter passes and of one that it does not. -/
def rec (t : Nat) : FbRec := ⟨9, t, 0, 0, 0, 0, 0⟩

/-- Store 0 in a mode with a record at its input. -/
def storing (mode t : Nat) : Module :=
  ((base.wr F.FBK_STS_MODE 0 mode).wr F.FBK_FILTER_TYPES 0 1).setStore 0 { inq := [rec t] }

theorem wit_store : ∀ mode, mode < 3 → let m := storing mode 2
    m.rd F.FBK_STS_STOPPED 0 = 0 ∧ m.rd F.FBK_TRIG_CFG_EN 0 = 0 ∧ m.rd F.FBK_STS_MODE 0 = mode ∧ m.rd F.FBK_WRPTR_VALUE 0 < storeSize 0 ∧
    Nat.testBit (m.rd F.FBK_FILTER_TYPES 0 * 4) 2 = true ∧ Nat.testBit (m.rd F.FBK_FILTER_TYPES 0 * 4) 3 = false ∧
    (m.store 0).inq = rec 2 :: [] ∧ m.rd F.FBK_WRPTR_VALUE 0 < m.reserveAt 0 ∧ m.rd F.FBK_POSTPTR_VALUE 0 + 1 < storeSize 0 := by decide +kernel

theorem wit_gap : let m := base.setStore 0 { gap := some ⟨3, 5, 9⟩ }
    (m.store 0).gap = some ⟨3, 5, 9⟩ ∧ (m.store 0).inq.length < 64 := by decide

theorem wit_trigger : before (rec 2).datum 5 = false ∧ before (rec 2).datum 10 = true := by decide

theorem wit_fieldbook : base.rd F.FBK_CMD_STS_BUSY 4 = 0 ∧ (∀ d, d < 5 → base.rd F.FBK_STS_TRIGGERED d = 0) ∧
    base.rd F.FBK_DUMP_COUNT_VALUE 4 = 0 ∧ (base.wr F.FBK_DUMP_COUNT_VALUE 4 1).rd F.FBK_DUMP_COUNT_VALUE 4 = 1 ∧
    before (base.datumOf 4) base.fbkAt = false ∧ (base.store 4).inq.length < 64 ∧
    (base.wr F.FBK_DUMP_COUNT_VALUE 4 0xF_FFFF).rd F.FBK_DUMP_COUNT_VALUE 4 > storeSize 4 ∧
    (({ base with obs := { schedTrig := true } } : Module).obs.schedTrig = true) ∧
    ({ base with obs := { dump := some ⟨0, 0, 1, 128⟩ } } : Module).obs.dump = some ⟨0, 0, 1, 128⟩ := by decide

/-! ### Queues and the host endpoint -/

/-- A word of a queue. -/
def qw (b : Byte) (last : Bool) : QWord := ⟨List.replicate 64 b, false, last⟩

/-- Core 0 has queue instructions to run on queue 0, with its buffer at scratch offset 64; the host endpoint answers. -/
def queued (arr dep : List QWord) : Module :=
  { ((home { st := .running, pc := 64, g := [(1, 0), (2, 64)] }).wr F.BRG_MOD_STS_STAGE 4 Stage.ready).wr F.QOS_HUBSRC_REG_RATE 4 0 (hubSrc (reqHost + 1)) with
    arqs := [(0, { words := arr })], dpqs := [(0, { words := dep })], fns := [(0, { vfEn := true })] }

/-- The partition that holds the queue. -/
def part0 : PartEntry := { num := 1, fn := 1, clusters := 2 ^ 144 - 1, arqMap := 1, dpqMap := 1, ring := 0, bankEn := 2 ^ 144 - 1 }

theorem wit_fetchesQ : Fetches (queued [qw 1 true] [qw 1 true]) 0 := by refine ⟨?_, ?_, ?_⟩ <;> decide

theorem wit_queue : (queued [] []).partOf 0 = some part0 ∧ (queued [] []).badParity = [] ∧ headPacket ((queued [] []).arq 0).words = none ∧
    headPacket ((queued [qw 1 false, qw 2 true, qw 3 true] []).arq 0).words = some ([qw 1 false, qw 2 true], [qw 3 true]) ∧
    Nat.testBit part0.arqMap 0 = true ∧ Nat.testBit part0.dpqMap 0 = true ∧ Nat.testBit part0.arqMap 1 = false ∧
    (64 + 64 * 256 ≤ 0x18_0000) ∧ 0x18_0000 < 0x17_FFC0 + 64 * 2 := by decide

theorem wit_queueFull : 1024 < (List.replicate 1023 (qw 1 true)).length + 2 := by rw [List.length_replicate]; decide

theorem wit_resumes : let m (w : WaitOn) := (queued [qw 0 true] []).setCore 0 { st := .waiting, wait := some w }
    ((m (.take 3 0 64 1)).core 0).wait = some (.take 3 0 64 1) ∧ ((m (.take 3 0 64 1)).take 0 0 64 1).2 = some (qWord 0 1 0 false) ∧
    ((m (.take 3 1 64 1)).take 0 1 64 1).2 = some (qWord 4 0 0 false) ∧ ((m (.put 3 0 64 1)).putQ 0 0 64 1).2 = some (qWord 0 1 0 false) := by
  decide +kernel

theorem queued_links : ∀ e ∈ (queued [] []).regs, e.1 < RegId.key ⟨.DTD_STS, 0, 0⟩ ∨ (e.2 ^^^ Reg.resetWord .DTD_STS 0).toNat % 8 < 4 := by
  decide +kernel

theorem queued_free : Unregulated (queued [] []) (srcIface (reqHost + 1) none) := by unfold Unregulated; decide +kernel

theorem attends (a d : List QWord) : Attends (queued a d) 1 :=
  ⟨(by decide : (queued [] []).answers = true), rfl, rfl, rfl, rfl, ⟨rfl, rfl, rfl, noLinkHolds (queued a d) queued_links⟩, queued_free, rfl⟩

theorem wit_owns : Owns (queued [qw 1 true] [qw 1 true]) 1 part0 ∧ (queued [] []).arqPart 0 = some part0 ∧ part0.compat = false ∧ part0.kind ≠ 2 ∧
    queueWriter 0x800 ((queued [] []).arqPart 0) = true ∧ queueWriter 5 ((queued [] []).dpqPart 0) = false ∧ leNat ((List.replicate 64 (0 : Byte)).take 4) < 512 ∧
    headPacket ((queued [] [qw 1 true]).dpq 0).words = some ([qw 1 true], []) := by
  refine ⟨⟨attends _ _, by decide, by decide⟩, ?_⟩; decide

theorem wit_config : base.answers = false ∧ (queued [] []).answers = true ∧ base.fnOn 1 = false ∧ base.fnOn 0 = true ∧ (queued [] []).fnOn 1 = true := by
  decide

theorem wit_functions : (∃ e ∈ (queued [] []).served 1, Nat.testBit e.arqMap 0 = true) ∧ (1 : FnId).val ≠ 0 := by decide

theorem wit_hostRefused : (queued [] []).hostTo 0 2 64 8 true = none ∧ (queued [] []).hostTo 3 0 0x0400_0000 8 false = none ∧
    (base.wr F.PCE_ERR_STS_VALID 3 1).rd F.PCE_ERR_STS_VALID 3 = 1 ∧ base.rd F.PCE_ERR_STS_VALID 3 = 0 := by decide +kernel

/-- The window of segment 0 of function 1 opens far memory, in a module whose die-to-die links are FULL. -/
def windowed : Module := (linksUp (queued [] [])).wr F.PCE_WIN_LO_EN 1 1 0

theorem wit_hostAccess : windowed.answers = true ∧ windowed.hostTo 1 2 128 64 false = some (.space 128 false) ∧
    windowed.hostTo 1 2 128 64 true = some (.space 128 false) ∧ regDie 128 = none ∧ (Site.far 0 128).key = some (farKey 0 128) ∧
    (∀ r ∈ [Right.read, Right.write], (match windowed.gate (reqHost + 1) 128 64 r with | .ok x => decide (x = .far 0 128) | .error _ => false) = true) ∧
    (windowed.fn 1).d3 = false ∧ windowed.writeWaits 1 = false := by decide +kernel

theorem windowed_links : ∀ e ∈ windowed.regs, e.1 < RegId.key ⟨.DTD_STS, 0, 0⟩ ∨ (e.2 ^^^ Reg.resetWord .DTD_STS 0).toNat % 8 < 4 := by
  decide +kernel

theorem windowed_ways : ClearWays windowed := ⟨rfl, rfl, rfl, noLinkHolds _ windowed_links⟩

theorem wit_hostQuiet : Quiet windowed ∧ ReadsWell windowed (farKey 0 128) 64 :=
  ⟨⟨windowed_ways, rfl, rfl, rfl, rfl, fun _ => rfl, fun _ => rfl⟩, readsWell_of windowed rfl (by decide +kernel)⟩

theorem windowed_free : Unregulated windowed (srcIface (reqHost + 1) none) := by
  intro v hv; revert v; decide +kernel

theorem wit_hostAttends : Attends windowed 1 := ⟨by decide +kernel, rfl, rfl, rfl, rfl, windowed_ways, windowed_free, rfl⟩

/-- A write of function 1 waits, and then a read of it; core 5 waits first at departure queue 0. -/
theorem wit_waits : ({ windowed with parked := [.write 1 2 128 [1]] } : Module).writeWaits 1 = true ∧
    ({ windowed with fns := [(1, { d3 := true })] } : Module).fn 1 = { d3 := true } ∧
    (queued [] []).waiters 0 false = [] ∧ (queued [] []).waiters 0 true = [] ∧
    let w : WaitOn := .put 3 0 64 1
    let m : Module := { (queued [] [qw 1 true]).setCore 5 { st := .waiting, wait := some w } with line := [(64, [5])] }
    m.waiters 0 true = [5] ∧ (m.waiters 0 true).head? = some 5 ∧ (m.putQ 5 0 64 1).2.isSome ∧ (m.waiters 0 true).head? ≠ some 4 := by
  decide +kernel

theorem wit_mirror : let m := { (queued [] []).wr F.PCE_MIR_CFG_EN 1 1 with datum := [(4, 5500)] }
    let m := m.wr F.PCE_MIR_CFG_INTERVAL 1 1
    m.rd F.PCE_MIR_CFG_EN 1 = 1 ∧ m.rd F.PCE_MIR_CFG_INTERVAL 1 * 1000 = 1000 ∧ before (m.fn 1).mirLast (5500 - 5500 % 1000) = true ∧
    ({ m with fns := [(0, { vfEn := true }), (1, { busMaster := true })] } : Module).fnSends 1 = true := by decide

/-! ### The fabric -/

/-- Link 0 of port 0 in a state, in a powered module. -/
def linkAt (n : Nat) : Module := (linked (home { st := .running })).wr F.TWL_STS_STATE 0 n |>.wr F.BRG_MOD_STS_STAGE 4 Stage.survey

theorem wit_links : (linkAt LSt.down).linkState 0 0 = LSt.down ∧ Stage.localTests ≤ (linkAt 1).stage ∧ (linkAt 1).rd F.TWL_CTL_DISABLE (linkKey 0 0) = 0 ∧
    64 + 0 ∉ (linkAt 1).lockLost ∧ (linkAt LSt.train).linkState 0 0 = LSt.train ∧ (linkAt LSt.retrain).linkState 0 0 = LSt.retrain ∧
    (linkAt LSt.active).linkState 0 0 = LSt.active ∧ (linkAt LSt.disabled).linkState 0 0 = LSt.disabled ∧
    ((linkAt 3).wr F.TWL_STS_REPLAY_RUN (linkKey 0 0) 8).rd F.TWL_STS_REPLAY_RUN (linkKey 0 0) = 8 ∧
    (linkAt 3).bothWantL 0 = (((linkAt 3).wr F.TWL_STS_FEC 0 0).rd F.TWL_STS_FEC (linkKey 0 0) == 1) ∧
    ((linkAt 3).link 0 0).queue = [] ∧ ((linkAt 3).link 0 0).replay = [] := by decide +kernel

/-- A posted write of a fabric, of 8 bytes at far address 128 of unit `u`. -/
def fpkt (u : BitVec 16) (data : List Byte) (poison : List Bool) : FabPacket := ⟨u, 7, 5, 18, 0, ⟨3, 9, 0, 1, none, 128, 8, data, poison, {}⟩⟩

/-- Link 0 of port 0 has sent one frame, with SEQ 4, and expects SEQ 6. -/
def framed : Module := (linkAt 3).setLink 0 0 { next := 5, base := 4, rxNext := 6, replay := [⟨4, 2, framePayload [], none, [⟨10, fpkt 7 (leBytes 8 1) [false]⟩]⟩] }

/-- The parts of a link word with its CRC: TYPE, SEQ and ACK 4, the credits of pair 2. -/
def sealed' (type seq : Nat) (payload : List Byte) : BitVec 15 × BitVec 17 × BitVec 24 :=
  let w := frameWord type 2 seq 4 2 1 payload
  (w.extractLsb' 0 15, w.extractLsb' 15 17, w.extractLsb' 32 24)

/-- A frame by its parts passes its CRC, and does not with another CRC. -/
def passes (type seq : Nat) (payload : List Byte) : Bool :=
  let (h, b, c) := sealed' type seq payload
  frameOk (wordOf h b c) payload && !frameOk (wordOf h b (c + 1)) payload && bitsAt h.toNat 0 2 == type && bitsAt h.toNat 5 10 == seq

theorem wit_frames' : framed.linkState 0 0 = LSt.active ∧ 64 + (0 : PortId).val ∉ framed.lockLost ∧ framed.linkCarries 0 0 = true ∧
    framed.rd F.TWP_STS_EXCLUDED 0 = 0 ∧ (Tbl.get {} (framed.link 0 0).rx 2).frames.length < 32 ∧ (framed.link 0 0).rej = false ∧
    (framed.link 0 0).queue = [] ∧ (framed.link 0 0).replay ≠ [] ∧ (4 + 1 + 1024 - (framed.link 0 0).base) % 1024 = 1 ∧
    ((framed.setLink 0 0 { framed.link 0 0 with rej := true }).link 0 0).rej = true ∧ (framed.link 0 0).rxNext = 6 ∧
    passes 1 6 [] = true ∧ passes 1 7 [] = true ∧ passes 0 0 [] = true := by decide +kernel

/-- The arrival of a link message whose CRC is right. -/
def arrival (payload : List Byte) : Arrival := let w := frameWord 2 0 0 4 2 1 payload
  ⟨0, w.extractLsb' 15 17, w.extractLsb' 32 24⟩

theorem wit_messages (l : List Byte) :
    frameOk (arrivalWord (arrival l)) l = true ∧ frameOk (arrivalWord { arrival l with crc := (arrival l).crc + 1 }) l = false := by
  have hw : (frameWord 2 0 0 4 2 1 l).extractLsb' 0 15 = 2 := by
    apply BitVec.eq_of_toNat_eq
    rw [BitVec.extractLsb'_toNat, frameWord_toNat]
    show _ = 2
    simp only [lowWord, Nat.shiftRight_zero]
    omega
  have h : frameOk (arrivalWord (arrival l)) l = true := by
    have := frameOk_frameWord 2 0 0 4 2 1 l
    rw [← wordOf_parts (frameWord 2 0 0 4 2 1 l), hw] at this
    exact this
  refine ⟨h, ?_⟩
  cases hc : frameOk (arrivalWord { arrival l with crc := (arrival l).crc + 1 }) l with
  | false => rfl
  | true =>
    have e : (arrival l).crc = (arrival l).crc + 1 := frameOk_unique h hc
    have := congrArg (· - (arrival l).crc) e
    simp [BitVec.add_sub_cancel, BitVec.add_comm] at this

/-- Link 0 of port 0 has heard port 2 of unit 7 twice. -/
def hearing : Module := (linkAt 3).setLink 0 0 { heard := some (7, 2), heardN := 2 }

theorem wit_hello : hearing.linkState 0 0 = LSt.active ∧ (∀ i, i < (0 : LinkIdx).val → hearing.linkState 0 i ≠ LSt.active) ∧
    (hearing.link 0 0).heard = some (7, 2) ∧ 2 ≤ (hearing.link 0 0).heardN ∧ hearing.platLoaded = true ∧ hearing.rd F.TWP_STS_RESULT 0 = 1 ∧
    ((hearing.wr F.TWP_NB_VALID 0 1).wr F.TWP_NB_UNIT 0 7).rd F.TWP_NB_UNIT 0 = 7 ∧
    ((hearing.wr F.TWP_NB_VALID 0 1).wr F.TWP_NB_UNIT 0 7).rd F.TWP_NB_VALID 0 = 1 ∧ hearing.carriers 0 ≠ [] ∧ 7 / 256 = hearing.unit / 256 := by
  decide +kernel

theorem wit_survey : hearing.stage = Stage.survey ∧ base.stage ≠ Stage.survey ∧ base.surveyOk = false ∧
    (let m : Module := { hearing with surveyOk := true }; m.portCondition 0 true ≠ Sres.ok) ∧
    (let m : Module := { hearing with surveyOk := true, plat := { hearing.plat with survey := { hearing.plat.survey with
        ports := [{ flags := 4, minHalf := 1, nbUnit := 7, nbPort := 2 }] } } }
      let m := ((((m.wr F.TWP_NB_VALID 0 1).wr F.TWP_NB_UNIT 0 7).wr F.TWP_NB_PORT 0 2).wr F.TWP_NB_FEC_WANT 0 0)
      m.surveyOk = true ∧ m.portCondition 0 true = Sres.ok) := by decide +kernel

/-- Port 0 has sent DREQ 3 at Datum 100, is the source of a module that acquires, and the Datum is 900. -/
def dating : Module :=
  { (((linkAt 3).setPort 0 { dreq := some (3, 100) }).wr F.DAT_STS_SRC_VALID 4 1).wr F.DAT_STS_STATE 4 DSt.acquire with datum := [(4, 900)] }

theorem wit_datum : (dating.port 0).dreq = some (3, 100) ∧ ((linkAt 3).port 0).dreq = none ∧ (linkAt 3).rd F.TWP_STS_RESULT 0 = 1 ∧
    (linkAt 3).carriers 0 = [0] ∧ dating.rd F.DAT_STS_SRC_VALID 4 = 1 ∧ dating.rd F.DAT_STS_SRC_PORT 4 = (0 : PortId).val ∧
    dating.datState = DSt.acquire ∧ dating.dat.first = true ∧ ((900 : Int) - 100 ≤ 1000) ∧ dating.datumOf 4 = 900 ∧
    (linkAt 3).rd F.DAT_STS_SRC_VALID 4 = 0 ∧ ¬((1200 : Int) - 100 ≤ 1000) ∧ (dating.wr F.DAT_STS_STATE 4 DSt.locked).datState = DSt.locked ∧
    ((((930 : Int) - 100) - ((900 : Int) - 130)).tdiv 2).natAbs ≤ 64 := by decide +kernel

/-- Window 0 of port 0 admits partition 1 to the first 64 KiB of far memory, and the module, unit 5, is ready. -/
def fabbed : Module :=
  let m := ((linkAt 3).wr F.BRG_MOD_STS_READY 4 1).wr F.TWP_MBR_PRIMARY 0 0xE 5
  let m := (((m.wr F.TWP_ADM_CFG_EN 0 1).wr F.TWP_ADM_CFG_RD 0 1).wr F.TWP_ADM_CFG_WR 0 1).wr F.TWP_ADM_CFG_AT 0 1
  let m := ((m.wr F.TWP_ADM_CFG_PART 0 1).wr F.TWP_ADM_LEN_PAGES 0 16)
  let m := [0, 1, 2, 3].foldl (fun m v => m.wr F.TWP_REG_RATE 0 0 v) m
  { m with plat := { m.plat with regions := [implicitRegion] } }

theorem fabbed_links : ∀ e ∈ fabbed.regs, e.1 < RegId.key ⟨.DTD_STS, 0, 0⟩ ∨ (e.2 ^^^ Reg.resetWord .DTD_STS 0).toNat % 8 < 4 := by decide +kernel

theorem fabbed_ways : ClearWays fabbed := ⟨by rfl, by rfl, by rfl, noLinkHolds _ fabbed_links⟩

theorem fabbed_free : Unregulated fabbed (srcIface 0 (some 0)) := by unfold Unregulated; decide +kernel

theorem wit_fabServed (kind op : Nat) (data : List Byte) (poison : List Bool)
    (h : (kind, op, data, poison) ∈ [(8, 0, [], []), (9, 1, leBytes 8 9, [false]), (10, 2, leBytes 8 9, [false]), (11, 5, leBytes 8 9 ++ leBytes 8 0, [false])]) :
    FabServed fabbed 0 0 ⟨kind, fpkt 5 data poison⟩ op (.far 0 128) (farKey 0 128) := by
  simp only [List.mem_cons, List.not_mem_nil, or_false, Prod.mk.injEq] at h
  rcases h with ⟨rfl, rfl, rfl, rfl⟩ | ⟨rfl, rfl, rfl, rfl⟩ | ⟨rfl, rfl, rfl, rfl⟩ | ⟨rfl, rfl, rfl, rfl⟩ <;>
    exact ⟨by decide +kernel, by decide +kernel, by decide +kernel, by decide +kernel, by decide +kernel, by decide +kernel, by decide +kernel,
      by rfl, by rfl, by decide +kernel, by decide +kernel, readsWell_of fabbed rfl (by decide +kernel),
      ⟨fabbed_ways, by rfl, by rfl, by rfl, by rfl, fun _ => by rfl, fun _ => by rfl⟩, by rfl, by rfl, fabbed_free⟩

theorem wit_fabRequest : (fpkt 5 [] []).sunit.toNat ≠ fabbed.unit ∧ (∀ c o, Site.far 0 128 ≠ .scratch c o) ∧
    fabbed.fabRoute 7 = .out 0 ∧ (fpkt 7 [] []).hops ≠ 0 ∧ fabbed.transitUp 0 0 false = true ∧ fabbed.ready = true ∧ (linkAt 3).ready = false ∧
    fabbed.fabRoute 8 = .none ∧ fabWf ⟨10, fpkt 8 (leBytes 8 9) [false]⟩ = true ∧ fabWf ⟨10, fpkt 8 [] []⟩ = false ∧
    (∀ v, v < 16 → fabbed.twpWindow 1 v 128 8 Right.write = false) := by
  refine ⟨by decide, fun _ _ => by simp, ?_⟩
  decide +kernel

/-- Core 3 has one fabric request outstanding, with tag 9. -/
def asking (role : FabRole) (stale : Bool) : Module :=
  { fabbed.setCore 3 { st := .running, dma := some ⟨desc .dma rsendBits, .header, 0, 0, 0, 0⟩ } with fabOut := [⟨3, 9, role, false, stale⟩] }

theorem wit_fabAnswer : fabbed.fabRoute 5 = .here ∧ (fpkt 5 [] []).p.src.toNat < 576 ∧ fabbed.fabOut = [] ∧
    fabbed.pathTests (defaultPath 3 (some (portRouter 0))) = false ∧
    ({ fabbed with lockLost := [1] } : Module).pathTests (defaultPath 3 (some (portRouter 0))) = true ∧
    (asking .header true).fabOut = [⟨3, 9, .header, false, true⟩] ∧
    (∀ role ∈ [FabRole.header, .seal], (asking role false).fabOut = [⟨(fpkt 5 [] []).p.src.toNat, (fpkt 5 [] []).p.tag, role, false, false⟩] ∧
      ((asking role false).core 3).dma = some ⟨desc .dma rsendBits, .header, 0, 0, 0, 0⟩) := by decide +kernel

/-- An FWACK, and one that R432 does not allow: with data; an FRDATA of the slot header that RSEND asks for. -/
theorem wit_fabAnswerForms : fabWf ⟨13, { fpkt 5 [] [] with status := 0 }⟩ = true ∧ fabWf ⟨13, fpkt 5 (leBytes 8 9 ++ [1]) []⟩ = false ∧
    fabWf ⟨12, { fpkt 5 (leBytes 8 9) [false] with status := 0 }⟩ = true ∧ (leBytes 4 9 ++ [(1 : Byte)]).getD 4 0 = 1 := by decide +kernel

/-- A request in transit on channel 1 finds its port's bucket with room, or another that waits there, or its way dark. -/
theorem wit_transit : let x : FabMsg := ⟨8, fpkt 7 [] []⟩
    x.control = false ∧ Tbl.get [] fabbed.transit (0 * 4 + 1) = [] ∧ fabbed.txWaits (bucketKey (srcIface 0 (some 0)) 1) = false ∧
    fabbed.bucketHolds (srcIface 0 (some 0)) 1 x.charge = true ∧ fabbed.transitHolds 0 0 false = false ∧
    ({ fabbed with lockLost := [1] } : Module).transitHolds 0 0 false = true ∧
    Tbl.get [] ({ fabbed with transit := [(1, [(0, x)])] } : Module).transit (0 * 4 + 1) ≠ [] ∧
    (⟨12, { fpkt 7 [] [] with p := { (fpkt 7 [] []).p with vc := 0 } }⟩ : FabMsg).control = true ∧
    (fabbed.wr F.TWP_STS_EXCLUDED 0 1).rd F.TWP_STS_EXCLUDED 0 = 1 := by decide +kernel

/-- A packet of the port's channel waits there, and one that its bucket lacks tokens for. -/
theorem wit_fabWaits : let x : FabMsg := ⟨8, fpkt 5 [] []⟩
    let y := TxKind.fabric 0 x 1 0
    fabbed.tx = [] ∧ fabbed.classOf 1 0 = 2 ∧ ({ fabbed with transit := [(2, [(0, x)])] } : Module).bucketBusy y = true ∧
    ((fabbed.wr F.TWP_REG_RATE 0 5 2).wr F.TWP_REG_BURST 0 1 2).bucketHolds (srcIface 0 (some 0)) 2 (flitCharge 0 8 1) = false := by decide +kernel

/-- The companion port's link in UP with one frame in its replay buffer, after another replay. -/
def ucpFramed : Module :=
  ((base.wr F.BRG_MOD_STS_STAGE 4 Stage.ready).wr F.UCP_STS_STATE 4 4).setLink 8 0 { next := 5, base := 4, rxNext := 6, run := 1, replay := [⟨4, 2, framePayload [], none, []⟩] }

theorem wit_companionFrames : ucpFramed.linkState 8 0 = LSt.active ∧ 64 + (8 : FramePort).val ∉ ucpFramed.lockLost ∧ ucpFramed.sendsData 8 0 = true ∧
    ucpFramed.linkCarries 8 0 = true ∧ (ucpFramed.link 8 0).replay ≠ [] ∧ framed.sendsData 0 0 = true ∧
    (framed.wr F.TWP_STS_RESULT 0 2).sendsData 0 0 = false ∧ (base.linkState 8 0 ≠ LSt.active) := by decide +kernel
/-! ### Die-to-die links, the companion port, test access -/

/-- Link 0 is in a state, with group 3 of station 0 under test. -/
def d2dAt (n : Nat) : Module :=
  { (linksUp powered).wr F.DTD_STS_STATE 0 n |>.wr F.DTD_STS_STATE 2 n with d2dTest := [(0, 1 + 0 * 80 + 3)] }

theorem wit_d2d : stationLink (0 : Fin 12) = 0 ∧ (∀ n, n < 7 → (d2dAt n).d2dState 0 = n) ∧ (d2dAt 2).groupCode (0 : Fin 12) (3 : Fin 80) = 0 ∧
    ({ d2dAt 2 with lanes := [(3, 4)] } : Module).groupCode (0 : Fin 12) (3 : Fin 80) ≠ 0 ∧ Tbl.get 0 (d2dAt 4).d2dTest 0 = 1 + 0 * 80 + 3 ∧
    (∀ x ∈ linkStations 0, (d2dAt 2).rd F.DTD_CTL_DISABLE x = 0) := by decide +kernel

/-- Partition 1 runs with a program on core 0, its paths to die 1 cross link 0, which is down. -/
def cut : Module :=
  let m := linksUp ((home { st := .running }).wr F.BRG_MOD_STS_STAGE 4 Stage.ready)
  let m := { m with plat := { m.plat with progs := [⟨0, 0, 64, 64, 5, 0⟩], memmap := [⟨1, 15, 0, 0x2000_0000_0000, 2 ^ 32⟩] } }
  ((m.wr F.PLT_PART_STS_STATE 4 PSt.running 1).wr F.DTD_STS_STATE 0 0).wr F.DTD_STS_STATE 2 0

theorem wit_linkStop : cut.d2dState 0 = D2d.down ∧ cut.rd F.PLT_STS_BUSY 4 = 0 ∧ Stage.awaitPlat ≤ cut.stage ∧ cut.partState 1 = PSt.running ∧
    cut.plat.affected 1 0 = true ∧ cut.partState 0 ≠ PSt.running := by decide +kernel

/-- The companion port in a state. -/
def ucpAt (n : Nat) : Module := powered.wr F.UCP_STS_STATE 4 n

theorem wit_ucp : (∀ n, n < 6 → (ucpAt n).ucpState = n) ∧ ((0 : Fin 6).val < 4 ∨ base.rd F.DTD_LEVEL_LEVEL 4 ≠ 0) ∧
    20 ≤ (30 : Byte).toNat ∧ (30 : Byte).toNat ≤ 40 ∧ (10 : Byte).toNat < 20 ∧ (3 : Byte).toNat < 4 ∧ (ucpAt 4).rd F.UCP_CTL_DISABLE 4 = 0 := by
  decide

/-- The port leaves UP with a request that the companion has to answer, one of an engine, and a posted packet in its replay buffer. -/
def leaving : Module :=
  { (ucpAt 4).setLink ucpPort 0 { next := 1, run := 8, replay := [⟨0, 4, framePayload [], none, [⟨3, { dunit := 0, sunit := 0, hops := 0, op := 0, status := 0, p := pkt (leBytes 8 1) [false] }⟩]⟩] } with
    compOut := [⟨pkt [] [], 0, 0x3800_0000_0080, 596, [], [], none⟩] }

theorem wit_leaves : leaving.ucpState = Ucp.up ∧ (leaving.link ucpPort 0).run = 8 ∧ (ucpAt 4).rd F.UCP_STS_STATE 4 = 4 ∧ ((ucpAt 4).link ucpPort 0).run ≠ 8 ∧
    (∀ h ∈ leaving.compOut, h.op ≠ 2 ∧ h.packet.tag < txTag ∧ (pathCross h.path).all leaving.d2dUp = true) ∧
    (((List.range 8).flatMap (leaving.link ucpPort 0).lostOf).filter FabMsg.posted).length = 1 := by decide +kernel

/-- The companion may send requests to the first 64 KiB of far memory through window 0. -/
def companion : Module :=
  let m := ((((ucpAt 4).wr F.UCP_CAP_REQUESTS 4 1).wr F.UCP_ADM_CFG_EN 4 1).wr F.UCP_ADM_CFG_RD 4 1).wr F.UCP_ADM_CFG_WR 4 1
  { (m.wr F.UCP_ADM_CFG_PART 4 1).wr F.UCP_ADM_LEN_PAGES 4 16 with plat := (home { st := .running }).plat }

theorem wit_companion : companion.ucpState = Ucp.up ∧ kindOp 1 0 = some 0 ∧ kindOp 2 0 = some 1 ∧ kindOp 9 0 = none ∧
    kindWf 1 0 ⟨0, 5, 0, 1, none, 128, 8, [], [], {}⟩ = true ∧ kindWf 1 0 ⟨0, 5, 0, 1, none, 129, 8, [], [], {}⟩ = false ∧
    kindWf 2 0 ⟨0, 5, 0, 1, none, 128, 8, leBytes 8 9, [false], {}⟩ = true ∧ companion.rd F.UCP_CAP_REQUESTS 4 = 1 ∧ (ucpAt 4).rd F.UCP_CAP_REQUESTS 4 = 0 ∧
    packetWf ⟨0x900, 5, 0, 1, none, 128, 8, [], [], {}⟩ 0 = true ∧ (0x900 : BitVec 12).toNat = reqCompanion := by decide +kernel

/-- Window 0 admits the first 64 KiB, with the right of its partition or, beyond its map, without; nothing else is admitted. -/
theorem wit_companionWindows : companion.ucpWindow 0 128 8 (opRight 0) = true ∧ companion.rights 1 128 8 &&& opRight 0 = opRight 0 ∧
    (let m : Module := { companion with plat := {} }; m.ucpWindow 0 128 8 (opRight 0) = true ∧ m.rights 1 128 8 &&& opRight 0 ≠ opRight 0) ∧
    ∀ w, w < 4 → companion.ucpWindow w 0x10_0000 8 (opRight 0) = false := by decide +kernel

/-- An answer of the companion that a request waits for, one of another length, and one that nothing waits for. -/
theorem wit_companionAnswers : let p : Packet := ⟨0, 5, 0, 1, none, 128, 8, leBytes 8 9, [false], {}⟩
    let mine (p : Packet) (h : HeldReq) : Bool := h.packet.src == p.src && h.packet.tag % 16384 == p.tag && (h.op == 0) == true
    responseWf 6 p = true ∧ responseWf 6 { p with len := 16 } = false ∧ (leaving.compOut.find? (mine p)).isSome ∧
    leaving.compOut.find? (mine { p with tag := 6 }) = none ∧ p.data.length = (⟨pkt [] [], 0, 0x3800_0000_0080, 596, [], [], none⟩ : HeldReq).size ∧
    responseWf 6 { p with len := 16, data := leBytes 16 9 } = true ∧ leaving.compEng = [] := by decide +kernel

/-- The companion's request finds its channel free, or waits behind another. -/
theorem wit_companionInject : let q : Packet := ⟨0x900, 5, 0, 0, none, 128, 8, [], [], {}⟩
    let place := srcIface 0x900 none * 4 + (Fin.ofNat 4 (companion.rd F.QOS_HUBSRC_CFG_VC 4 9)).val
    companion.mayIssue 0 q = true ∧ companion.txWaits place = false ∧ Tbl.get [] companion.qos.held place = [] ∧
    companion.bucketHolds (srcIface 0x900 none) (companion.rd F.QOS_HUBSRC_CFG_VC 4 9) (companion.charged 0 q) = true ∧
    Tbl.get [] ({ companion with qos := { companion.qos with held := [(place, [(0, q)])] } } : Module).qos.held place ≠ [] := by decide +kernel
/-! ### The whole module -/

theorem wit_canonical : State.reset.memWf ∧ (st talk).memWf := by decide +kernel

theorem wit_step : ∃ t, step { m := base, pending := [.idcode 0] } = .next t := ⟨_, rfl⟩

theorem wit_idle : (st powered).pending = [] ∧ powered.parked = [] ∧ powered.net.wait = [] ∧ powered.tx = [] ∧
    powered.transit = [] ∧ powered.compEng = [] ∧ powered.qos.held = [] ∧ powered.qos.starved = [] ∧ powered.net.ret = [] ∧
    (∀ x, x < 12 → powered.rd F.DTD_STS_STATE x ≠ D2d.full ∧ powered.rd F.DTD_STS_STATE x ≠ D2d.narrow) ∧
    ({ base with svc := { trip := some 5 } } : Module).tripped = true ∧ base.tripped = false ∧ (st base).m.stage = 0 ∧ (st powered).m.stage ≠ 0 := by decide

/-! ### Well-formedness refuses -/

theorem refuse_registerWrite : ∀ x ∈ [(0x3000_0000_0000, 0), (0x3000_0000_0000, 9), (0x2000_0000_0000, 4), (2 ^ 48 + 0x3000_0000_0000, 4)],
    (Instr.registerWrite 0x800 x.1 x.2 0).wf = false := by decide +kernel

/-- A tag of 15 bits, an address of 49, a length that no operation has, an address that its length does not divide, a page crossed, and data
of another length or without its poison tags. -/
theorem refuse_packets : ∀ p ∈ [pkt [] [] |> ({ · with tag := 16384 }), pkt [] [] |> ({ · with addr := 2 ^ 48 }), pkt [] [] |> ({ · with len := 12 }),
      pkt [] [] |> ({ · with addr := 4 }), pkt [] [] |> ({ · with addr := 4032, len := 128 }), pkt [1] [false], pkt (leBytes 8 1) []],
    (Instr.meshRead p).wf = false ∧ (Instr.meshWrite p).wf = false ∧ (Instr.pwrite p).wf = false ∧ (Instr.atomicAdd p).wf = false ∧
    (Instr.mwrite p []).wf = false := by decide

theorem refuse_atomics : (Instr.atomicSwap (pkt (leBytes 8 1) [false])).wf = false ∧ (Instr.fadd (pkt (leBytes 16 1) [false])).wf = false ∧
    (Instr.meshRead (pkt (leBytes 8 1) [false])).wf = false := by decide

theorem refuse_mwrite : (Instr.mwrite { mpkt with src := 0x800 } []).wf = false ∧ (Instr.mwrite (pkt (leBytes 8 1) [false]) []).wf = false := by decide

theorem refuse_tags : (Instr.rdata 0 16384).wf = false ∧ (Instr.wack 0 16384 0).wf = false ∧ (Instr.requestTimeout 0 16384).wf = false ∧
    (Instr.fabricTimeout 0 16384).wf = false := by decide

theorem refuse_regulated : (Instr.regulatorRelease 4 (pkt [] []) none).wf = false ∧ (Instr.regulatorRelease 0 (pkt [1] [false]) none).wf = false := by decide

theorem refuse_host : (Instr.hostRead 0 0 (2 ^ 44) 0).wf = false ∧ (Instr.hostWrite 0 0 0 []).wf = false ∧
    (Instr.hostWrite 0 0 (2 ^ 44) [1]).wf = false ∧ (Instr.hostAtomicop 0 0 (2 ^ 44)).wf = false ∧ (Instr.arqAppend 1 0 0 []).wf = false ∧
    (Instr.arqCommit 1 0 0 []).wf = false := by decide

theorem refuse_hostLong : (Instr.hostWrite 0 0 0 (List.replicate 513 1)).wf = false ∧ (Instr.arqAppend 1 0 0 (List.replicate 513 1)).wf = false ∧
    (Instr.arqCommit 1 0 0 (List.replicate 513 1)).wf = false := by decide +kernel

theorem refuse_lists : (Instr.vector 0 ⟨0, 0, 0⟩ ⟨7, 0⟩ (List.replicate 127 1)).wf = false ∧ (Instr.dataFrame 0 0 [] 0 0 0 []).wf = false ∧
    (Instr.idleFrame 0 0 [] 0 0 []).wf = false ∧ (Instr.housekeepingRound [] [] []).wf = false ∧
    (Instr.housekeepingRound (List.replicate 4 []) (List.replicate 40 0) []).wf = false ∧
    (Instr.housekeepingRound (List.replicate 4 (List.replicate 70 0)) [] []).wf = false := by decide +kernel

theorem refuse_bypass : ∀ c ∈ [(1 : Byte), 6, 0x10, 0x11], (Instr.bypass 0 c).wf = false := by decide

theorem accept : (Instr.registerWrite 0x800 0x3000_0000_0000 4 0).wf = true ∧ (Instr.meshRead (pkt [] [])).wf = true ∧
    (Instr.mwrite mpkt []).wf = true ∧ (Instr.bypass 0 7).wf = true ∧ (Instr.hostWrite 0 0 0 [1]).wf = true := by decide +kernel

/-! ### Single steps with results that the manual states -/

/-- R130: ADD wraps. -/
theorem test_add : ((after (.add 0 3 1 2 (-1)) live).core 0).getG 3 = 14 := by decide
/-- R130: SUB of 16 and −1. -/
theorem test_sub : ((after (.sub 0 3 1 2) live).core 0).getG 3 = 17 := by decide
/-- R130: MUL gives the low 64 bits. -/
theorem test_mul : ((after (.mul 0 3 1 2) live).core 0).getG 3 = -16 := by decide
/-- R404, R405: a packet of one word is taken. -/
theorem test_qtake : ((after (.qtake 0 3 1 2 0) (queued [qw 0 true] [])).core 0).getG 3 = qWord 0 1 0 false := by decide +kernel
/-- R404, R405: an empty queue. -/
theorem test_qtakeEmpty : ((after (.qtake 0 3 1 2 0) (queued [] [])).core 0).getG 3 = qWord 1 0 0 false := by decide +kernel
/-- R473: a group that crosses its threshold puts its link into TEST. -/
theorem test_laneThreshold : (after (.laneParityThreshold 0 3) (d2dAt 2)).d2dState 0 = D2d.test := by decide +kernel
/-- R472: two lanes of a group lost leave a link NARROW. -/
theorem test_laneTestDone : (after (.laneTestDone 0 6) (d2dAt 4)).d2dState 0 = D2d.narrow := by decide +kernel
/-- R484, R485: a valid IDENT takes the port to UP. -/
theorem test_ident : (after (.ident 1 2 3 30 5 3) (ucpAt 3)).ucpState = Ucp.up := by decide +kernel
/-- R489, R490: PRELOAD under the lock selects the bypass bit. -/
theorem test_preload : Tbl.get 0 (after (.preload 2) base).tapDr 2 = 0 := by decide +kernel
/-- R422: a link that trains on both lanes is ACTIVE with width 3. -/
theorem test_linkTrainDone : (after (.linkTrainDone 0 0 2) (linkAt LSt.train)).rd F.TWL_STS_WIDTH 0 = 3 := by decide +kernel
/-- R427: a frame out of sequence asks for a replay from the one expected. -/
theorem test_dataFrame : let (h, b, c) := sealed' 1 7 []
    ((after (.dataFrame 0 0 [] h b c []) framed).outbox.head?).map (fun | .frame _ _ _ l => l.take 4 | _ => []) = some [5, 0, 6, 0] := by decide +kernel
/-- R441: an admitted posted write stores its data. -/
theorem test_fpwrite : (after (.fpwrite 0 (fpkt 5 (leBytes 8 9) [false])) fabbed).num (farKey 0 128) 8 = 9 := by decide +kernel
/-- R387: a read that reaches no place completes Unsupported Request. -/
theorem test_hostRead : (after (.hostRead 1 2 0xFF_1234_5678 7) windowed).outbox = [.cpl 1 1 [] false] := by decide +kernel
/-- R330: a mesh write stores its bytes. -/
theorem test_meshWrite : (after (.meshWrite (pkt (leBytes 8 9) [false])) meshed).num (nearKey 0 0) 8 = 9 := by decide +kernel
/-- R566: a record of a type in the filter is stored. -/
theorem test_fieldbook : Tbl.get none ((after (.fieldbookRecord 0) (storing 1 2)).store 0).slots 0 = some (rec 2) := by decide +kernel
/-- R223: COPY moves its bytes. -/
theorem test_dmaCopy : (after (.dmaCopy 0) (copying.put (scrKey 0 0) (leBytes 8 77))).num (scrKey 0 4096) 8 = 77 := by decide +kernel
/-- R129, R130: the word of ADD G3, G1, G2 with IMM −1, that of HALT, and words that R131 and R130 forbid. -/
theorem test_coreWords : coreInstr 5 0xFFFF_FFFF_0002_1304 = .add 5 3 1 2 (-1) ∧ coreInstr 5 1 = .halt 5 ∧
    coreInstr 5 0x0710 = .reservedOpcode 5 0x0710 ∧ coreInstr 5 0x0101 = .reservedOpcode 5 0x0101 ∧
    coreInstr 5 0x35 = .queueReservedOp 5 0x35 := by decide +kernel
/-- R295: one wrong symbol of a word is corrected, two are not. -/
theorem test_lightDecode : lightClass [(7, 0x5A)] = 1 ∧ lightClass [(7, 0x5A), (64, 1)] = 2 := by decide +kernel
/-- R299: the page code finds one wrong byte of a codeword, and fails two. -/
theorem test_pageDecode : pageDecode [(70, 0x33)] [] = some [] ∧ pageDecode [(70, 0x33), (102, 0x33)] [] = none := by decide +kernel

/-- SHAKE256 of no bytes and of 140 zero bytes, which two blocks take: the digests of FIPS 202. -/
theorem test_shake : shake256 [] 8 = [0x46, 0xB9, 0xDD, 0x2B, 0x0B, 0xA8, 0x8D, 0x13] ∧ shake256 (List.replicate 140 0) 8 = [0x60, 0xB4, 0xF5, 0x73, 0x8C, 0x20, 0x0C, 0xBF] := by decide +kernel

/-- R409, R362: a read of 4,096 bytes of a READ window completes, though its charge is above BURST. -/
theorem test_dpqRead : ((after (.dpqRead 0 0 0 4095) windowed).outbox.length = 32 ∧ (after (.dpqRead 0 0 0 4095) windowed).tx = [] ∧
    TxKind.charge (.read 0 0 0 0 false) 0 0x3004_0800_4000 4096 = 80) := by decide +kernel
end Sys2Proof.Tests
end

section
/-! SUPPORT. Register space, one rule per access: what an aligned access outside the queue windows does, and what it finds where no register
lies. -/

namespace Sys2Proof.Proofs

open Sys2Proof.Machine Sys2Proof.Claim

/-- R14: an access of four bytes is aligned exactly where its address is. -/
@[simp] theorem aligned4_four (a : Nat) : aligned4 a 4 = true ↔ a % 4 = 0 := by
  simp [aligned4]

/-- R15: the read half of a hole. -/
theorem readRegAt_hole (m : Module) {a : Nat} (hole : regAt a = none) : m.readRegAt a = (m, 0) := by
  simp only [Module.readRegAt, hole]

/-- R15: the write half of a hole. -/
theorem writeRegAt_hole (m : Module) (src : Nat) {a : Nat} (v : Word) (hole : regAt a = none) : m.writeRegAt src a v = m := by
  simp only [Module.writeRegAt, hole]

theorem readSpace_aligned (m : Module) (src : Nat) {a : Nat} (window : queueWindow a = none) (align : aligned4 a 4 = true) :
    m.readSpace src a 4 = ((m.readRegAt a).1, leBytes 4 (m.readRegAt a).2.toNat, []) := by
  simp only [Module.readSpace, window, align, if_true]

theorem writeSpace_aligned (m : Module) (src : Nat) {a : Nat} {l : List Byte} (window : queueWindow a = none)
    (align : aligned4 a l.length = true) : m.writeSpace src a l = m.writeRegAt src a (BitVec.ofNat 32 (leNat l)) := by
  simp only [Module.writeSpace, window, align, if_true]

/-- R12: a REGISTER_WRITE whose address lies in a die's register space is a write of that space, of the low `n` bytes of its value. -/
theorem exec_registerWrite (req : Requester) {a : Nat} (n : Nat) (v : DWord) (s : State) (die : regDie a ≠ none) :
    exec (.registerWrite req a n v) s = s.done (s.m.writeSpace req.toNat a (leBytes n v.toNat)) := by
  have inside : (regDie a).isNone = false := by simpa [Option.isSome_iff_ne_none] using die
  simp only [exec, execRegisterWrite, inside, Bool.false_eq_true, if_false]

/-- Settles O27: both accesses are aligned and outside the queue windows, so they reach `regAt`, which finds no register; no branch of them
goes by the error capture of R14. -/
theorem registerHoles : Obligations.RegisterHoles := by
  unfold Obligations.RegisterHoles
  intro req a v s die hole window align
  have align4 : aligned4 a 4 = true := (aligned4_four a).2 align
  constructor
  · rw [readSpace_aligned s.m _ window align4, readRegAt_hole s.m hole]
    simp [leBytes]
  · have alignBytes : aligned4 a (leBytes 4 v.toNat).length = true := by rwa [leBytes_length]
    unfold To
    rw [exec_registerWrite req 4 v s die, writeSpace_aligned s.m _ window alignBytes, writeRegAt_hole s.m _ _ hole]
    rfl

end Sys2Proof.Proofs
end

section
/-! SUPPORT. What the memories of the module hold, as one value: an operation that names no table of memory leaves it. -/

namespace Sys2Proof.Machine

/-- What the memories of the module hold: bytes, poisoned words, wrong symbols, and what the bytes that nothing was written to read as. -/
structure Contents where
  mem : Tbl Byte
  poison : NSet
  scrErr : Tbl Nat
  wordErr : Tbl Nat
  ckErr : Tbl Nat
  ckOff : Tbl Nat
  nearLost : Tbl Nat
  fill : Nat → Option (Option Nat)

/-- Contents with the bases that a table of slices gives. -/
def contentsOf (mem : Tbl Byte) (poison : NSet) (scrErr wordErr ckErr ckOff nearLost : Tbl Nat) (slices : Tbl Slice) : Contents :=
  ⟨mem, poison, scrErr, wordErr, ckErr, ckOff, nearLost, fun c => (Tbl.get {} slices c).fill⟩

def Module.contents (m : Module) : Contents :=
  contentsOf m.mem m.poison m.scrErr m.wordErr m.ckErr m.ckOff m.nearLost m.slices

/-- The canonical form is one of the contents alone. -/
def Contents.wf (x : Contents) : Bool :=
  Tbl.wf 0 x.mem && NSet.wf x.poison && Tbl.wf 0 x.scrErr && Tbl.wf 0 x.wordErr && Tbl.wf 0 x.ckErr && Tbl.wf 0 x.ckOff

variable (m : Module)

theorem Module.memWf_eq : m.memWf = m.contents.wf := rfl

@[simp] theorem Module.contentsOf_self :
    contentsOf m.mem m.poison m.scrErr m.wordErr m.ckErr m.ckOff m.nearLost m.slices = m.contents := by
  simp only [Module.contents]

/-- A record update that names no table of memory leaves the contents. -/
@[simp] theorem contents_mk {
    regs mem poison scrErr ueAt wordErr ckErr ckOff nearLost cores slices fars slow slowBack clkHeld ran tried compOut compEng compTag tx
    txNext parked scrubs repairs net flits ctl qos plat platLoaded load codes resetting obs links ports transit fabOut fabTag dat surveyOk
    met metBuilt fwOk lockLost lanes d2dTest tapIr tapDr fuses flp ledger spares sparesTemp bringAt rst passed boot ret hsk nor jr life svc
    platDigests fns arqs dpqs line badParity counters incs frz frzBack after datum now freeCtr outbox} :
    Module.contents (Module.mk
      regs mem poison scrErr ueAt wordErr ckErr ckOff nearLost cores slices fars slow slowBack clkHeld ran tried compOut compEng compTag tx
      txNext parked scrubs repairs net flits ctl qos plat platLoaded load codes resetting obs links ports transit fabOut fabTag dat surveyOk
      met metBuilt fwOk lockLost lanes d2dTest tapIr tapDr fuses flp ledger spares sparesTemp bringAt rst passed boot ret hsk nor jr life
      svc platDigests fns arqs dpqs line badParity counters incs frz frzBack after datum now freeCtr outbox) =
    contentsOf mem poison scrErr wordErr ckErr ckOff nearLost slices := by
  simp only [Module.contents]

@[simp] theorem Module.contents_ite (c : Prop) [Decidable c] (a b : Module) :
    (if c then a else b).contents = if c then a.contents else b.contents := apply_ite _ _ _ _

@[simp] theorem Module.contents_fst_ite {α : Type} (c : Prop) [Decidable c] (a b : Module × α) :
    (if c then a else b).1.contents = if c then a.1.contents else b.1.contents := by split <;> rfl

@[simp] theorem Module.contents_foldl_frame {β : Type} (f : Module → β → Module) (hf : ∀ n b, (f n b).contents = n.contents) (l : List β)
    (m : Module) : (l.foldl f m).contents = m.contents := Module.foldl_frame Module.contents f hf l m

/-- A slice that is replaced by one with the same base leaves the contents. -/
@[simp] theorem Module.contents_setSlice (c : Nat) (s : Slice) (h : s.fill = (m.slice c).fill) : (m.setSlice c s).contents = m.contents := by
  simp only [Module.contents, contentsOf, Module.setSlice, Contents.mk.injEq, true_and]
  funext d
  rw [Tbl.get_set]
  split
  · subst d; exact h
  · rfl

end Sys2Proof.Machine
end

section
/-! SUPPORT. The frame of memory: every operation of the model that reaches no memory leaves what the memories hold, in the order of the
model's files. -/

namespace Sys2Proof.Machine

variable (m : Module)

-- Ops.lean
@[simp] theorem Module.contents_setWord (r : Reg) (u i : Nat) (w : Word) : (m.setWord r u i w).contents = m.contents := by simp [Module.setWord]
@[simp] theorem Module.contents_wr (f : RegField) (u : Nat) (v : Nat) (i : Nat) : (m.wr f u v i).contents = m.contents := by simp [Module.wr]

@[simp] theorem Module.contents_bumpBy (f : RegField) (u : Nat) (n : Nat) (i : Nat) : (m.bumpBy f u n i).contents = m.contents := by
  simp [Module.bumpBy]

@[simp] theorem Module.contents_bump (f : RegField) (u : Nat) (i : Nat) : (m.bump f u i).contents = m.contents := by simp [Module.bump]

@[simp] theorem Module.contents_orBits (f : RegField) (u : Nat) (v : Nat) (i : Nat) : (m.orBits f u v i).contents = m.contents := by
  simp [Module.orBits]

@[simp] theorem Module.contents_setCore (c : Nat) (k : Core) : (m.setCore c k).contents = m.contents := by simp [Module.setCore]
@[simp] theorem Module.contents_setFar (j : Nat) (d : FarDev) : (m.setFar j d).contents = m.contents := by simp [Module.setFar]
@[simp] theorem Module.contents_setStation (c : Nat) (s : CtlSt) : (m.setStation c s).contents = m.contents := by simp [Module.setStation]
@[simp] theorem Module.contents_setStore (d : Nat) (s : Store) : (m.setStore d s).contents = m.contents := by simp [Module.setStore]
@[simp] theorem Module.contents_setFn (f : Nat) (x : Fn) : (m.setFn f x).contents = m.contents := by simp [Module.setFn]
@[simp] theorem Module.contents_emit (o : Out) : (m.emit o).contents = m.contents := by simp [Module.emit]
@[simp] theorem Module.contents_tickEvc (c e : Nat) : (m.tickEvc c e).contents = m.contents := by simp [Module.tickEvc]
@[simp] theorem Module.contents_count (c n k : Nat) : (m.count c n k).contents = m.contents := by simp [Module.count]

@[simp] theorem Module.contents_record (die type : Nat) (k : SrcKind) (unit a0 a1 a2 : Nat) :
    (m.record die type k unit a0 a1 a2).contents = m.contents := by simp [Module.record]

@[simp] theorem Module.contents_fireMsix (f v : Nat) : (m.fireMsix f v).contents = m.contents := by simp [Module.fireMsix]
@[simp] theorem Module.contents_event (f e : Nat) : (m.event f e).contents = m.contents := by simp [Module.event]
@[simp] theorem Module.contents_pushCtl (c : Nat) (x : CtlMsg) : (m.pushCtl c x).contents = m.contents := by simp [Module.pushCtl]

@[simp] theorem Module.contents_setCoreSt (c : Nat) (st : CoreSt) (fault : Nat) : (m.setCoreSt c st fault).contents = m.contents := by
  simp [Module.setCoreSt]

@[simp] theorem Module.contents_coreFault (c fault engine sts : Nat) (pc : DWord) : (m.coreFault c fault engine sts pc).contents = m.contents := by
  simp [Module.coreFault]

-- Memory.lean
@[simp] theorem Module.contents_memErr (w kind : Nat) : (m.memErr w kind).contents = m.contents := by simp [Module.memErr]
@[simp] theorem Module.contents_notePoison (w : Nat) : (m.notePoison w).contents = m.contents := by simp [Module.notePoison]
@[simp] theorem Module.contents_noteLight (w : Nat) : (m.noteLight w).contents = m.contents := by simp [Module.noteLight]
@[simp] theorem Module.contents_noteSlow (w : Nat) : (m.noteSlow w).contents = m.contents := by simp [Module.noteSlow]
@[simp] theorem Module.contents_noteUe (c n : Nat) : (m.noteUe c n).contents = m.contents := by simp [Module.noteUe]
@[simp] theorem Module.contents_noteWord (w : Nat) (ran : Bool) : (m.noteWord w ran).contents = m.contents := by simp [Module.noteWord]

@[simp] theorem Module.contents_load' (k n : Nat) (ran : List Nat) : (m.load' k n ran).1.contents = m.contents := by
  simp [Module.load']

@[simp] theorem Module.contents_raErr (src a size : Nat) (write : Bool) : (m.raErr src a size write).contents = m.contents := by simp [Module.raErr]
@[simp] theorem Module.contents_freshBytes (n : Nat) : (m.freshBytes n).1.contents = m.contents := by simp [Module.freshBytes]
@[simp] theorem Module.contents_freshWord : (m.freshWord).1.contents = m.contents := by simp [Module.freshWord]
@[simp] theorem Module.contents_noteBusy (c o src : Nat) : (m.noteBusy c o src).contents = m.contents := by simp [Module.noteBusy]

@[simp] theorem Module.contents_noteAbsorb (s : Site) (st : Nat) : (m.noteAbsorb s st).contents = m.contents := by
  unfold Module.noteAbsorb
  split <;> simp

@[simp] theorem Module.contents_noteStop (a st : Nat) : (m.noteStop a st).contents = m.contents := by
  unfold Module.noteStop
  split <;> simp

-- Qos.lean
@[simp] theorem Module.contents_writePlain (r : RegId) (v : Word) : (m.writePlain r v).contents = m.contents := by simp [Module.writePlain]
@[simp] theorem Module.contents_charge (t fare a n : Nat) (step : Bool) : (m.charge t fare a n step).contents = m.contents := by simp [Module.charge]

@[simp] theorem Module.contents_pick (t : Nat) (l : List Want) : (m.pick t l).1.contents = m.contents := by
  unfold Module.pick
  dsimp only
  split
  · rfl
  · split <;> rfl

@[simp] theorem Module.contents_noteDeadline (t : Nat) (deadline : Option (BitVec 16)) : (m.noteDeadline t deadline).contents = m.contents := by
  unfold Module.noteDeadline
  split <;> simp

@[simp] theorem Module.contents_begin (t : Nat) (w : Want) : (m.begin t w).contents = m.contents := by simp [Module.begin]
@[simp] theorem Module.contents_beginAlone (t : Nat) (w : Want) : (m.beginAlone t w).contents = m.contents := by simp [Module.beginAlone]

@[simp] theorem Module.contents_noteOutst (src tag : Nat) (read : Bool) : (m.noteOutst src tag read).contents = m.contents := by
  simp [Module.noteOutst]

@[simp] theorem Module.contents_draw (i v c : Nat) : (m.draw i v c).contents = m.contents := by simp [Module.draw]
@[simp] theorem Module.contents_refill (c : Nat) : (m.refill c).contents = m.contents := by simp [Module.refill]
@[simp] theorem Module.contents_countHeld : (m.countHeld).contents = m.contents := by simp [Module.countHeld]
@[simp] theorem Module.contents_refillBuckets : (m.refillBuckets).contents = m.contents := by simp [Module.refillBuckets]

@[simp] theorem Module.contents_hubsrcWrite (src : Nat) (r : Nat) (cfg : Bool) (value : Word) :
    (m.hubsrcWrite src r cfg value).contents = m.contents := by simp [Module.hubsrcWrite]

-- Routes.lean
@[simp] theorem Module.contents_noteFlits (path : List Nat) (vc n : Nat) : (m.noteFlits path vc n).contents = m.contents := by
  simp [Module.noteFlits]

@[simp] theorem Module.contents_noteWay (path : List Nat) (vc kind len : Nat) : (m.noteWay path vc kind len).contents = m.contents := by
  simp [Module.noteWay]

@[simp] theorem Module.contents_sum24 (f : RegField) (v q : Nat) : (m.sum24 f v q).contents = m.contents := by simp [Module.sum24]
@[simp] theorem Module.contents_publishSums : (m.publishSums).contents = m.contents := by simp [Module.publishSums]

-- Floor.lean
@[simp] theorem Module.contents_issueRec (type : Nat) (payload : List Byte) : (m.issueRec type payload).contents = m.contents := by
  simp [Module.issueRec]

@[simp] theorem Module.contents_flpBump (cause : FpCause) (core old new unit : Nat) : (m.flpBump cause core old new unit).contents = m.contents := by
  simp [Module.flpBump]

@[simp] theorem Module.contents_flpNote (old : Module) (cause : FpCause) (unit : Nat) : (m.flpNote old cause unit).contents = m.contents := by
  simp [Module.flpNote]

@[simp] theorem Module.contents_setCode (c code : Nat) (cause : FpCause) : (m.setCode c code cause).contents = m.contents := by simp [Module.setCode]
@[simp] theorem Module.contents_setStage (n : Nat) : (m.setStage n).contents = m.contents := by simp [Module.setStage]
@[simp] theorem Module.contents_evalReady : (m.evalReady).contents = m.contents := by simp [Module.evalReady]

@[simp] theorem Module.contents_settle (old : Module) (cause : FpCause) (unit : Nat) : (m.settle old cause unit).contents = m.contents := by
  simp [Module.settle]

-- Serve.lean
@[simp] theorem Module.contents_respond (r : Resp) : (m.respond r).contents = m.contents := by simp [Module.respond]

@[simp] theorem Module.contents_txResult (n status : Nat) (data : List Byte) (poison : List Bool) :
    (m.txResult n status data poison).contents = m.contents := by simp [Module.txResult]

@[simp] theorem Module.contents_answer (h : HeldReq) (status : Nat) (data : List Byte) (poison : List Bool) :
    (m.answer h status data poison).contents = m.contents := by simp [Module.answer]

@[simp] theorem Module.contents_loseWaits (l : Nat) : (m.loseWaits l).contents = m.contents := by
  unfold Module.loseWaits
  dsimp only
  rw [Module.contents_foldl_frame]
  · simp
  · intro n w
    split <;> simp

@[simp] theorem Module.contents_setSlow (u : Nat) (l : List SlowPath) : (m.setSlow u l).contents = m.contents := by simp [Module.setSlow]

/-- A slow path that is begun or joined leaves memory as it was, and so does what stands in for it where the queue is full. -/
@[simp] theorem Module.contents_slowFor_getD (u w : Nat) (join : SlowPath → SlowPath) (n : Module) (hn : n.contents = m.contents) :
    ((m.slowFor u w join).getD n).contents = m.contents := by
  unfold Module.slowFor
  dsimp only
  split
  · simp
  · split
    · simp
    · exact hn

@[simp] theorem Module.contents_holdReq (h : HeldReq) (s : Site) (x : Hold) : (m.holdReq h s x).contents = m.contents := by
  unfold Module.holdReq
  dsimp only
  cases x with
  | dPage => cases s <;> simp
  | bus => cases s <;> simp
  | slow w => exact m.contents_slowFor_getD _ _ _ _ rfl
  | clock | repair d | page g => simp

@[simp] theorem Module.contents_takeSlow (u : Nat) : (m.takeSlow u).1.contents = m.contents := by simp [Module.takeSlow]

-- Access.lean
@[simp] theorem Module.contents_sendPieces (q : Asker) (s : Site) (kind a n : Nat) (copies : Option Nat) :
    (m.sendPieces q s kind a n copies).contents = m.contents := by
  unfold Module.sendPieces
  refine Module.contents_foldl_frame _ (fun n x => ?_) _ _
  cases copies <;> cases s.target <;> simp

@[simp] theorem Module.contents_noteTried (q : Asker) : (m.noteTried q).contents = m.contents := by simp [Module.noteTried]

@[simp] theorem Module.contents_holdAsker (q : Asker) (s : Site) (x : Hold) : (m.holdAsker q s x).contents = m.contents := by
  unfold Module.holdAsker
  dsimp only
  split <;> simp

@[simp] theorem Module.contents_forget (key : Nat) : (m.forget key).contents = m.contents := by simp [Module.forget]

@[simp] theorem Module.contents_backOff (n : Module) : (m.backOff n).contents = m.contents := by
  simp [Module.backOff]

@[simp] theorem Module.contents_starve (i : Nat) : (m.starve i).contents = m.contents := by simp [Module.starve]
@[simp] theorem Module.contents_fed (i : Nat) : (m.fed i).contents = m.contents := by simp [Module.fed]

@[simp] theorem Module.contents_regulated (i : Nat) (n : Module) :
    (m.regulated i n).contents = if m.tokensFor n i then n.contents else m.contents := by
  simp [Module.regulated]

@[simp] theorem Module.contents_compAsk (q : Asker) (o n : Nat) (write : Option (List Byte)) : (m.compAsk q o n write).1.contents = m.contents := by
  unfold Module.compAsk
  dsimp only
  split <;> simp

-- Ops.lean
@[simp] theorem Module.contents_stopped (q : Asker) (a st : Nat) : (m.stopped q a st).contents = m.contents := by simp [Module.stopped]

-- Access.lean
@[simp] theorem Module.contents_writeProbe (q : Asker) (a n : Nat) : (m.writeProbe q a n).1.contents = m.contents := by
  unfold Module.writeProbe
  split
  · simp
  · split
    · rfl
    · split
      · rfl
      · split
        · simp
        · split
          · split <;> simp
          · rfl

-- Convert.lean
@[simp] theorem Module.contents_observeInput (c slot : Nat) (int : Bool) (x : Word) (sat : Bool) :
    (m.observeInput c slot int x sat).contents = m.contents := by
  unfold Module.observeInput
  dsimp only
  split <;> simp

@[simp] theorem Module.contents_clearSlot (c slot : Nat) : (m.clearSlot c slot).contents = m.contents := by simp [Module.clearSlot]

@[simp] theorem Module.contents_convRow (c : Nat) (w : Word) (int : Bool) (xs : List Word) (act : List Bool) (amax : Word) :
    (m.convRow c w int xs act amax).1.contents = m.contents := by simp [Module.convRow]

@[simp] theorem Module.contents_orLaneFlag (c k f : Nat) (lanes : Nat) : (m.orLaneFlag c k f lanes).contents = m.contents := by
  simp [Module.orLaneFlag]

@[simp] theorem Module.contents_orTileFlags (c k : Nat) (l : List Flags) : (m.orTileFlags c k l).contents = m.contents := by
  simp [Module.orTileFlags]

@[simp] theorem Module.contents_clearTileFlags (c k sel : Nat) : (m.clearTileFlags c k sel).contents = m.contents := by simp [Module.clearTileFlags]

@[simp] theorem Module.contents_fetch_frame (c : Nat) (act : Module → Core → Module) (hact : ∀ n k, (act n k).contents = n.contents) :
    (m.fetch c act).contents = m.contents := by
  simp [Module.fetch, hact]

-- Seq.lean
@[simp] theorem Module.contents_retireTo (c : Nat) (k : Core) (pc : DWord) : (m.retireTo c k pc).contents = m.contents := by simp [Module.retireTo]
@[simp] theorem Module.contents_retire (c : Nat) (k : Core) : (m.retire c k).contents = m.contents := by simp [Module.retire]

-- Ops.lean
@[simp] theorem Module.contents_opInvalid (c : Nat) (k : Core) : (m.opInvalid c k).contents = m.contents := by simp [Module.opInvalid]

-- Seq.lean
@[simp] theorem Module.contents_scalar (c dst : Nat) (v : Core → DWord) : (m.scalar c dst v).contents = m.contents := by simp [Module.scalar]

@[simp] theorem Module.contents_issue (c : Nat) (k : Core) (e : Eng) (kind : DescKind) (bits : Nat) (ev : Option Nat) :
    (m.issue c k e kind bits ev).contents = m.contents := by simp [Module.issue]

@[simp] theorem Module.contents_reject (c : Nat) (e : Eng) (engine status : Nat) (d : Desc) :
    (m.reject c e engine status d).contents = m.contents := by simp [Module.reject]

@[simp] theorem Module.contents_descDone (c engine status : Nat) (d : Desc) : (m.descDone c engine status d).contents = m.contents := by
  unfold Module.descDone
  split <;> simp

@[simp] theorem Module.contents_release (c : Nat) : (m.release c).contents = m.contents := by
  unfold Module.release
  split <;> simp

@[simp] theorem Module.contents_reservedWord (c : Nat) (word : DWord) : (m.reservedWord c word).contents = m.contents := by
  simp [Module.reservedWord]

@[simp] theorem Module.contents_shift (c dst : Nat) (imm : Word) (v : Core → DWord) : (m.shift c dst imm v).contents = m.contents := by
  simp [Module.shift]

@[simp] theorem Module.contents_issueGroup (c src1 n : Nat) (e : Eng) (kind : DescKind) (ev : Option Nat) :
    (m.issueGroup c src1 n e kind ev).contents = m.contents := by simp [Module.issueGroup]

-- Matrix.lean
@[simp] theorem Module.contents_mxaPoison (c n : Nat) : (m.mxaPoison c n).contents = m.contents := by simp [Module.mxaPoison]

@[simp] theorem Module.contents_loadTile (c d : Nat) (w : Fmt) (kt : Nat) : (m.loadTile c d w kt).1.contents = m.contents := by
  simp [Module.loadTile]

@[simp] theorem Module.contents_mxReject (c status : Nat) (d : Desc) : (m.mxReject c status d).contents = m.contents := by simp [Module.mxReject]

-- Vector.lean
@[simp] theorem Module.contents_vOperand (c d mode addr pitch r : Nat) (at' : Option Nat) :
    (m.vOperand c d mode addr pitch r at').1.contents = m.contents := by simp [Module.vOperand]

@[simp] theorem Module.contents_setMask (c k v : Nat) : (m.setMask c k v).contents = m.contents := by simp [Module.setMask]

@[simp] theorem Module.contents_vxReject (c engine status : Nat) (d : Desc) : (m.vxReject c engine status d).contents = m.contents := by
  simp [Module.vxReject]

@[simp] theorem Module.contents_vecControl (c op : Nat) (act : Module → Nat → Module) (hact : ∀ n d, (act n d).contents = n.contents) :
    (m.vecControl c op act).contents = m.contents := by
  unfold Module.vecControl
  dsimp only
  split
  · split
    · rfl
    · split <;> simp [hact]
  · rfl

@[simp] theorem Module.contents_vecComplete (c : Nat) : (m.vecComplete c).contents = m.contents := by
  unfold Module.vecComplete
  split
  · rfl
  · next v _ => cases hm : v.mask <;> simp

@[simp] theorem Module.contents_atnReject (c status : Nat) (d : Desc) : (m.atnReject c status d).contents = m.contents := by simp [Module.atnReject]

-- Bank.lean
@[simp] theorem Module.contents_loadTab (t : Nat) (b : BopRun) : (m.loadTab t b).1.contents = m.contents := by
  rw [Module.loadTab]
  have hl := m.contents_load' (nearKey t (bApage b.desc.bits * 4096)) 1024 []
  cases hx : m.load' (nearKey t (bApage b.desc.bits * 4096)) 1024 with
  | mk n x =>
    obtain ⟨l, bad⟩ := x
    rw [hx] at hl
    simp [hl]

@[simp] theorem Module.contents_bopReject (c status : Nat) (d : Desc) : (m.bopReject c status d).contents = m.contents := by simp [Module.bopReject]

@[simp] theorem Module.contents_bopStart (c op : Nat) : (m.bopStart c op).contents = m.contents := by
  unfold Module.bopStart
  split
  · rfl
  · dsimp only
    split
    · rfl
    · split <;> simp

-- Ecc.lean
@[simp] theorem Module.contents_putRan (x : SlowPath) : (m.putRan x).contents = m.contents := by simp [Module.putRan]

@[simp] theorem Module.contents_scrubStart (src d : Nat) (repair : Bool) (kind unit fare : Nat) :
    (m.scrubStart src d repair kind unit fare).contents = m.contents := by simp [Module.scrubStart]

@[simp] theorem Module.contents_scrubAbort (src d : Nat) : (m.scrubAbort src d).contents = m.contents := by simp [Module.scrubAbort]

@[simp] theorem Module.contents_noteFind (f : PageFind) (pending : Bool) : (m.noteFind f pending).contents = m.contents := by
  unfold Module.noteFind
  split <;> simp

@[simp] theorem Module.contents_repairEnd (d r left : Nat) : (m.repairEnd d r left).contents = m.contents := by simp [Module.repairEnd]

@[simp] theorem Module.contents_fieldRepair (src d kind unit : Nat) : (m.fieldRepair src d kind unit).contents = m.contents := by
  simp [Module.fieldRepair]

-- Link.lean
@[simp] theorem Module.contents_setLink (p l : Nat) (x : Link) : (m.setLink p l x).contents = m.contents := by simp [Module.setLink]
@[simp] theorem Module.contents_setPort (p : Nat) (x : Port) : (m.setPort p x).contents = m.contents := by simp [Module.setPort]

@[simp] theorem Module.contents_sendFrame (p l type ch seq : Nat) (payload : List Byte) :
    (m.sendFrame p l type ch seq payload).contents = m.contents := by simp [Module.sendFrame]

@[simp] theorem Module.contents_sendLink (p l : Nat) (payload : List Byte) : (m.sendLink p l payload).contents = m.contents := by
  simp [Module.sendLink]

@[simp] theorem Module.contents_idleOut (p l fuel : Nat) : (m.idleOut p l fuel).contents = m.contents := by
  induction fuel generalizing m with
  | zero => rfl
  | succ fuel ih => simp [Module.idleOut, ih]

@[simp] theorem Module.contents_pumpFrames (p l fuel : Nat) : (m.pumpFrames p l fuel).contents = m.contents := by
  induction fuel generalizing m with
  | zero => rfl
  | succ fuel ih =>
    unfold Module.pumpFrames
    dsimp only
    split
    · rfl
    · split
      · rfl
      · simp [ih]

@[simp] theorem Module.contents_pump (p l : Nat) : (m.pump p l).contents = m.contents := by
  unfold Module.pump
  dsimp only
  split <;> simp

@[simp] theorem Module.contents_assign (p : Nat) (x : FabMsg) : (m.assign p x).contents = m.contents := by
  unfold Module.assign
  split <;> simp

@[simp] theorem Module.contents_fabSend (x : FabMsg) (ring : Option Nat) : (m.fabSend x ring).1.contents = m.contents := by
  unfold Module.fabSend
  dsimp only
  split
  · rfl
  · split <;> simp

-- Observe.lean
@[simp] theorem Module.contents_hubRecord (type unit a0 a1 a2 : Nat) : (m.hubRecord type unit a0 a1 a2).contents = m.contents := by
  simp [Module.hubRecord]

@[simp] theorem Module.contents_setFrozen (v : Nat) : (m.setFrozen v).contents = m.contents := by simp [Module.setFrozen]
@[simp] theorem Module.contents_freeze (f source : Nat) : (m.freeze f source).contents = m.contents := by simp [Module.freeze]
@[simp] theorem Module.contents_thaw : (m.thaw).contents = m.contents := by simp [Module.thaw]

@[simp] theorem Module.contents_frzCmd (src op : Nat) : (m.frzCmd src op).contents = m.contents := by
  unfold Module.frzCmd
  split
  · rfl
  · dsimp only
    split <;> simp

@[simp] theorem Module.contents_restartSampler (o : Observe) : (m.restartSampler o).contents = m.contents := by simp [Module.restartSampler]

@[simp] theorem Module.contents_rewriteGap (d : Nat) : (m.rewriteGap d).contents = m.contents := by
  unfold Module.rewriteGap
  dsimp only
  split <;> simp

@[simp] theorem Module.contents_loseRec (d : Nat) (r : FbRec) : (m.loseRec d r).contents = m.contents := by simp [Module.loseRec]
@[simp] theorem Module.contents_fillStop (d : Nat) : (m.fillStop d).contents = m.contents := by simp [Module.fillStop]

-- RegMap.lean
@[simp] theorem Module.contents_place (d : Nat) (r : FbRec) : (m.place d r).contents = m.contents := by
  unfold Module.place
  split <;> simp

-- Observe.lean
@[simp] theorem Module.contents_fire (t : Nat) (freezes : Bool) : (m.fire t freezes).contents = m.contents := by simp [Module.fire]
@[simp] theorem Module.contents_recordIn (d : Nat) (r : FbRec) : (m.recordIn d r).contents = m.contents := by simp [Module.recordIn]
@[simp] theorem Module.contents_armStore (d : Nat) : (m.armStore d).contents = m.contents := by simp [Module.armStore]
@[simp] theorem Module.contents_armAll : (m.armAll).contents = m.contents := by simp [Module.armAll]
@[simp] theorem Module.contents_observeStores (o : Observe) : (m.observeStores o).contents = m.contents := by simp [Module.observeStores]
@[simp] theorem Module.contents_fbkEnd (r : Nat) : (m.fbkEnd r).contents = m.contents := by simp [Module.fbkEnd]

@[simp] theorem Module.contents_fbkCmd (src op store : Nat) : (m.fbkCmd src op store).contents = m.contents := by
  unfold Module.fbkCmd
  split
  · rfl
  · split
    · simp
    · split
      · rfl
      · split <;> simp

@[simp] theorem Module.contents_mark (src v : Nat) : (m.mark src v).contents = m.contents := by simp [Module.mark]

-- Datum.lean
@[simp] theorem Module.contents_datMove (new : Nat) : (m.datMove new).contents = m.contents := by simp [Module.datMove]
@[simp] theorem Module.contents_follow (p : Nat) : (m.follow p).contents = m.contents := by simp [Module.follow]
@[simp] theorem Module.contents_takeSource (p : Nat) : (m.takeSource p).contents = m.contents := by simp [Module.takeSource]
@[simp] theorem Module.contents_noSource : (m.noSource).contents = m.contents := by simp [Module.noSource]

@[simp] theorem Module.contents_reselect : m.reselect.contents = m.contents := by
  unfold Module.reselect
  dsimp only
  split
  · rfl
  · split
    · simp
    · split
      · simp
      · split <;> simp

@[simp] theorem Module.contents_applyRole (changed : Bool) : (m.applyRole changed).contents = m.contents := by simp [Module.applyRole]
@[simp] theorem Module.contents_stepDatum (theta : Int) : (m.stepDatum theta).contents = m.contents := by simp [Module.stepDatum]

-- Queues.lean
@[simp] theorem Module.contents_setArq (q : Nat) (x : ArQueue) : (m.setArq q x).contents = m.contents := by simp [Module.setArq]
@[simp] theorem Module.contents_setDpq (q : Nat) (x : DpQueue) : (m.setDpq q x).contents = m.contents := by simp [Module.setDpq]
@[simp] theorem Module.contents_queueRec (q what words : Nat) : (m.queueRec q what words).contents = m.contents := by simp [Module.queueRec]

@[simp] theorem Module.contents_countDiscards (f : RegField) (q : Nat) (lens : List Nat) : (m.countDiscards f q lens).contents = m.contents := by
  simp [Module.countDiscards]

@[simp] theorem Module.contents_discardArq (q : Nat) : (m.discardArq q).contents = m.contents := by simp [Module.discardArq]
@[simp] theorem Module.contents_emptyDpq (q : Nat) : (m.emptyDpq q).contents = m.contents := by simp [Module.emptyDpq]

@[simp] theorem Module.contents_onQueues (map : Nat) (f : Module → Nat → Module) (hf : ∀ n q, (f n q).contents = n.contents) :
    (m.onQueues map f).contents = m.contents := Module.contents_foldl_frame f hf _ m

@[simp] theorem Module.contents_rewind (q n : Nat) (bits : Nat) : (m.rewind q n bits).contents = m.contents := by
  unfold Module.rewind
  dsimp only
  split <;> simp

@[simp] theorem Module.contents_commit (q n : Nat) : (m.commit q n).contents = m.contents := by
  unfold Module.commit
  split <;> simp

@[simp] theorem Module.contents_stageWords (q : Nat) (isCommit : Bool) (off : Nat) (data : List Byte) :
    (m.stageWords q isCommit off data).contents = m.contents := by simp [Module.stageWords]

@[simp] theorem Module.contents_appendWord (q : Nat) (w : List Byte) (endMark : Bool) : (m.appendWord q w endMark).contents = m.contents := by
  simp [Module.appendWord]

@[simp] theorem Module.contents_appendCompat (q : Nat) (isCommit : Bool) (off : Nat) (data : List Byte) :
    (m.appendCompat q isCommit off data).contents = m.contents := by simp [Module.appendCompat]

@[simp] theorem Module.contents_arqWrite (q : Nat) (isCommit : Bool) (off : Nat) (data : List Byte) :
    (m.arqWrite q isCommit off data).contents = m.contents := by
  unfold Module.arqWrite
  split <;> simp

@[simp] theorem Module.contents_arqAbort (src q v : Nat) : (m.arqAbort src q v).contents = m.contents := by simp [Module.arqAbort]

@[simp] theorem Module.contents_dpqPop (src q v : Nat) : (m.dpqPop src q v).contents = m.contents := by
  unfold Module.dpqPop
  split
  · rfl
  · dsimp only
    split <;> simp

@[simp] theorem Module.contents_dpqRead (q off n : Nat) : (m.dpqRead q off n).1.contents = m.contents := by simp [Module.dpqRead]

@[simp] theorem Module.contents_putQ (c q a n : Nat) : (m.putQ c q a n).1.contents = m.contents := by
  simp [Module.putQ]

@[simp] theorem Module.contents_qEnd (c dst : Nat) (v : DWord) : (m.qEnd c dst v).contents = m.contents := by simp [Module.qEnd]

@[simp] theorem Module.contents_qResume (c dst : Nat) (t : QTry) :
    (m.qResume c dst t).contents = if t.2.isSome then t.1.contents else m.contents := by
  obtain ⟨n, _ | v⟩ := t <;> simp [Module.qResume]

@[simp] theorem Module.contents_joinLine (c q : Nat) (put : Bool) : (m.joinLine c q put).contents = m.contents := by simp [Module.joinLine]

-- RstRuns.lean
@[simp] theorem Module.contents_setRun (k : Nat) (x : Option RstRun) : (m.setRun k x).contents = m.contents := by simp [Module.setRun]

@[simp] theorem Module.contents_rstEnd (k op result unit : Nat) (ran : Bool) : (m.rstEnd k op result unit ran).contents = m.contents := by
  simp [Module.rstEnd]

@[simp] theorem Module.contents_absorbRuns (k : Nat) (take : List Nat) : (m.absorbRuns k take).contents = m.contents := by simp [Module.absorbRuns]
@[simp] theorem Module.contents_endWaits (k : Nat) : (m.endWaits k).contents = m.contents := by simp [Module.endWaits]

@[simp] theorem Module.contents_finishRuns (fuel : Nat) : (m.finishRuns fuel).contents = m.contents := by
  induction fuel generalizing m with
  | zero => rfl
  | succ fuel ih =>
    unfold Module.finishRuns
    split
    · simp [ih]
    · rfl

@[simp] theorem Module.contents_dropAnswers (c : Nat) : (m.dropAnswers c).contents = m.contents := by simp [Module.dropAnswers]

-- Plat.lean
@[simp] theorem Module.contents_setPart (p st : Nat) : (m.setPart p st).contents = m.contents := by simp [Module.setPart]
@[simp] theorem Module.contents_setPartKind (p kind fn : Nat) : (m.setPartKind p kind fn).contents = m.contents := by simp [Module.setPartKind]
@[simp] theorem Module.contents_clearStation (c : Nat) : (m.clearStation c).contents = m.contents := by simp [Module.clearStation]
@[simp] theorem Module.contents_setResetting (l : List Nat) (b : Bool) : (m.setResetting l b).contents = m.contents := by simp [Module.setResetting]

@[simp] theorem Module.contents_removePart (p : Nat) : (m.removePart p).contents = m.contents := by
  unfold Module.removePart
  cases he : m.part p <;> simp

@[simp] theorem Module.contents_noteImage (src n : Nat) : (m.noteImage src n).contents = m.contents := by
  refine Module.contents_foldl_frame _ (fun n i => ?_) _ _
  split <;> simp

@[simp] theorem Module.contents_pltEnd (result d1 d2 : Nat) (named : Option Nat) : (m.pltEnd result d1 d2 named).contents = m.contents := by
  unfold Module.pltEnd
  cases hl : m.load <;> cases named <;> simp

@[simp] theorem Module.contents_reject' (l : LoadRun) (e : PlatErr) : (m.reject' l e).contents = m.contents := by simp [Module.reject']
@[simp] theorem Module.contents_loadStep (l : LoadRun) (n : Nat) : (m.loadStep l n).contents = m.contents := by simp [Module.loadStep]

@[simp] theorem Module.contents_loadBegin (op part : Nat) : (m.loadBegin op part).contents = m.contents := by
  unfold Module.loadBegin
  dsimp only
  split <;> simp

@[simp] theorem Module.contents_moduleLoaded (l : LoadRun) (oldRole : Nat) : (m.moduleLoaded l oldRole).contents = m.contents := by
  simp [Module.moduleLoaded]

@[simp] theorem Module.contents_coldStart (ts : List Nat) : (m.coldStart ts).contents = m.contents := by simp [Module.coldStart]

-- Ledger.lean
@[simp] theorem Module.contents_appendRec (type : Nat) (payload : List Byte) (ok : Bool) : (m.appendRec type payload ok).contents = m.contents := by
  unfold Module.appendRec
  split <;> simp

@[simp] theorem Module.contents_takeLock : (m.takeLock).contents = m.contents := by simp [Module.takeLock]
@[simp] theorem Module.contents_loadLock : (m.loadLock).contents = m.contents := by simp [Module.loadLock]
@[simp] theorem Module.contents_issueLife : (m.issueLife).contents = m.contents := by simp [Module.issueLife]
@[simp] theorem Module.contents_journal (j : Journal) : (m.journal j).contents = m.contents := by simp [Module.journal]
@[simp] theorem Module.contents_dropTransfer : (m.dropTransfer).contents = m.contents := by simp [Module.dropTransfer]
@[simp] theorem Module.contents_beginExchange (dir : Nat) : (m.beginExchange dir).contents = m.contents := by simp [Module.beginExchange]
@[simp] theorem Module.contents_updateResult (outcome : Nat) : (m.updateResult outcome).contents = m.contents := by simp [Module.updateResult]
@[simp] theorem Module.contents_recover : (m.recover).contents = m.contents := by simp [Module.recover]

@[simp] theorem Module.contents_startImage (outcome : Nat) (exchanged : Bool) : (m.startImage outcome exchanged).contents = m.contents := by
  simp [Module.startImage]

@[simp] theorem Module.contents_bootActive : (m.bootActive).contents = m.contents := by simp [Module.bootActive]

-- D2d.lean
@[simp] theorem Module.contents_markLanes (st g mask : Nat) : (m.markLanes st g mask).contents = m.contents := by simp [Module.markLanes]
@[simp] theorem Module.contents_setD2d (l st : Nat) (half : Nat) : (m.setD2d l st half).contents = m.contents := by simp [Module.setD2d]
@[simp] theorem Module.contents_trainFails (l : Nat) : (m.trainFails l).contents = m.contents := by simp [Module.trainFails]
@[simp] theorem Module.contents_d2dSettle (l : Nat) : (m.d2dSettle l).contents = m.contents := by simp [Module.d2dSettle]
@[simp] theorem Module.contents_d2dRetrain (l : Nat) : (m.d2dRetrain l).contents = m.contents := by simp [Module.d2dRetrain]

@[simp] theorem Module.contents_dtdCtlWrite (src st : Nat) (v : Word) : (m.dtdCtlWrite src st v).contents = m.contents := by
  simp [Module.dtdCtlWrite]

@[simp] theorem Module.contents_negotiate : (m.negotiate).contents = m.contents := by simp [Module.negotiate]

-- Reset.lean
@[simp] theorem Module.contents_unfencePos (c : Nat) : (m.unfencePos c).1.contents = m.contents := by simp [Module.unfencePos]

@[simp] theorem Module.contents_testBegin (k : Nat) (r : RstRun) (cores : List Nat) : (m.testBegin k r cores).contents = m.contents := by
  simp [Module.testBegin]

-- Ucp.lean
@[simp] theorem Module.contents_leaveUp : (m.leaveUp).contents = m.contents := by simp [Module.leaveUp]
@[simp] theorem Module.contents_setUcp (st : Nat) : (m.setUcp st).contents = m.contents := by simp [Module.setUcp]
@[simp] theorem Module.contents_ucpCtlWrite (src : Nat) (v : Word) : (m.ucpCtlWrite src v).contents = m.contents := by simp [Module.ucpCtlWrite]
@[simp] theorem Module.contents_tap (d code dr : Nat) : (m.tap d code dr).contents = m.contents := by simp [Module.tap]

-- Bringup.lean
@[simp] theorem Module.contents_begin' (stage : Nat) : (m.begin' stage).contents = m.contents := by simp [Module.begin']
@[simp] theorem Module.contents_lockAll : (m.lockAll).contents = m.contents := by simp [Module.lockAll]
@[simp] theorem Module.contents_startDies : (m.startDies).contents = m.contents := by simp [Module.startDies]
@[simp] theorem Module.contents_publish (codes : Tbl Nat) (warm : Bool) : (m.publish codes warm).contents = m.contents := by simp [Module.publish]
@[simp] theorem Module.contents_fallBack : (m.fallBack).contents = m.contents := by simp [Module.fallBack]

-- Dma.lean
@[simp] theorem Module.contents_kvdPoison (c n : Nat) : (m.kvdPoison c n).contents = m.contents := by simp [Module.kvdPoison]

@[simp] theorem Module.contents_sendMulti (q : Asker) (r : McRule) (a n : Nat) : (m.sendMulti q r a n).contents = m.contents := by
  unfold Module.sendMulti
  refine Module.contents_foldl_frame _ (fun n x => ?_) _ _
  simp

@[simp] theorem Module.contents_setDma (c : Nat) (r : DmaRun) : (m.setDma c r).contents = m.contents := by simp [Module.setDma]

@[simp] theorem Module.contents_dmaWait (n : Module) (c : Nat) (d : Desc) (table : Bool) : (m.dmaWait n c d table).contents = m.contents := by
  simp [Module.dmaWait]

@[simp] theorem Module.contents_dmaStep (c : Nat) (d : Desc) (n : Module) :
    (m.dmaStep c d n).contents = if m.tokensFor n c then n.contents else m.contents := by
  simp [Module.dmaStep]

@[simp] theorem Module.contents_dmaEnd (c : Nat) (d : Desc) (st det : Nat) : (m.dmaEnd c d st det).contents = m.contents := by simp [Module.dmaEnd]
@[simp] theorem Module.contents_countSend (f : Sender) (n k : Nat) : (m.countSend f n k).contents = m.contents := by simp [Module.countSend]

@[simp] theorem Module.contents_fabReq (f : Sender) (role : FabRole) (unit addr kind len : Nat) (data : List Byte) (bad : List Bool) :
    (m.fabReq f role unit addr kind len data bad).1.contents = m.contents := by
  simp [Module.fabReq]

@[simp] theorem Module.contents_fabWrites (f : Sender) (unit : Nat) (bad : Nat → Bool) (fuel a : Nat) (l : List Byte) (n : Nat) :
    (m.fabWrites f unit bad fuel a l n).1.contents = m.contents := by
  induction fuel generalizing m a l n with
  | zero => rfl
  | succ fuel ih =>
    unfold Module.fabWrites
    split
    · rfl
    · dsimp only
      split <;> simp [ih]

@[simp] theorem Module.contents_readHeader (f : Sender) (unit addr : Nat) : (m.readHeader f unit addr).1.contents = m.contents := by
  simp [Module.readHeader]

@[simp] theorem Module.contents_rsendStart (c : Nat) (d : Desc) : (m.rsendStart c d).contents = m.contents := by
  unfold Module.rsendStart
  split <;> simp

@[simp] theorem Module.contents_setRelay (c : Nat) (r : Option RelayRun) : (m.setRelay c r).contents = m.contents := by simp [Module.setRelay]

-- Fabric.lean
@[simp] theorem Module.contents_portCount (p : Nat) : (m.portCount p).contents = m.contents := by simp [Module.portCount]

@[simp] theorem Module.contents_setLinkState (p l st width : Nat) : (m.setLinkState p l st width).contents = m.contents := by
  simp [Module.setLinkState]

@[simp] theorem Module.contents_resend (p l : Nat) : (m.resend p l).contents = m.contents := by simp [Module.resend]
@[simp] theorem Module.contents_retrainLink (p l : Nat) : (m.retrainLink p l).contents = m.contents := by simp [Module.retrainLink]

@[simp] theorem Module.contents_activate (p l width : Nat) (retrained : Bool) : (m.activate p l width retrained).contents = m.contents := by
  simp [Module.activate]

@[simp] theorem Module.contents_twpWrite (src : Nat) (r : RegId) (v : Word) : (m.twpWrite src r v).contents = m.contents := by simp [Module.twpWrite]
@[simp] theorem Module.contents_ackLink (p l ack : Nat) : (m.ackLink p l ack).contents = m.contents := by simp [Module.ackLink]
@[simp] theorem Module.contents_linkWord (p l ack cch ccnt : Nat) : (m.linkWord p l ack cch ccnt).contents = m.contents := by simp [Module.linkWord]

@[simp] theorem Module.contents_frameIn (p l : Nat) (w : BitVec 56) (payload : List Byte) : (m.frameIn p l w payload).1.contents = m.contents := by
  unfold Module.frameIn
  split
  · rfl
  · split <;> simp

@[simp] theorem Module.contents_fecNote (p l : Nat) (wrong : List Nat) : (m.fecNote p l wrong).contents = m.contents := by simp [Module.fecNote]

@[simp] theorem Module.contents_leaveRx (p : Nat) (x : FabMsg) : (m.leaveRx p x).contents = m.contents := by
  unfold Module.leaveRx
  split <;> simp

@[simp] theorem Module.contents_replayLink (p l : Nat) : (m.replayLink p l).contents = m.contents := by simp [Module.replayLink]
@[simp] theorem Module.contents_buildTables : (m.buildTables).contents = m.contents := by simp [Module.buildTables]
@[simp] theorem Module.contents_noteMaster (dstate master : Nat) : (m.noteMaster dstate master).contents = m.contents := by simp [Module.noteMaster]
@[simp] theorem Module.contents_setResult (p r : Nat) : (m.setResult p r).contents = m.contents := by simp [Module.setResult]
@[simp] theorem Module.contents_missSample (p : Nat) : (m.missSample p).contents = m.contents := by simp [Module.missSample]
@[simp] theorem Module.contents_keepSample (p : Nat) (delay : Int) : (m.keepSample p delay).contents = m.contents := by simp [Module.keepSample]

@[simp] theorem Module.contents_discipline (theta : Int) : (m.discipline theta).contents = m.contents := by
  unfold Module.discipline
  dsimp only
  split
  · by_cases hf : m.dat.first = true ∨ 64 < theta.natAbs <;> simp [hf]
  · simp

-- Pcie.lean
@[simp] theorem Module.contents_resetPage (f : Nat) : (m.resetPage f).contents = m.contents := by simp [Module.resetPage]
@[simp] theorem Module.contents_closeWindows (f : Nat) : (m.closeWindows f).contents = m.contents := by simp [Module.closeWindows]

@[simp] theorem Module.contents_flrOne (f : Nat) : (m.flrOne f).contents = m.contents := by
  unfold Module.flrOne
  simp

@[simp] theorem Module.contents_flrVfs : (m.flrVfs).contents = m.contents := by simp [Module.flrVfs]
@[simp] theorem Module.contents_flr (f : Nat) : (m.flr f).contents = m.contents := by simp [Module.flr]
@[simp] theorem Module.contents_clearVfEnable : (m.clearVfEnable).contents = m.contents := by simp [Module.clearVfEnable]
@[simp] theorem Module.contents_resizeBar2 (f k : Nat) : (m.resizeBar2 f k).contents = m.contents := by simp [Module.resizeBar2]
@[simp] theorem Module.contents_flushPba (f : Nat) : (m.flushPba f).contents = m.contents := by simp [Module.flushPba]

@[simp] theorem Module.contents_configWrite (f : Nat) (r : ConfigReg) (v : Nat) : (m.configWrite f r v).contents = m.contents := by
  unfold Module.configWrite
  split <;> simp

@[simp] theorem Module.contents_pceWrite (src : Nat) (r : RegId) (v : Word) : (m.pceWrite src r v).contents = m.contents := by
  unfold Module.pceWrite
  split <;> simp

-- Thermal.lean
@[simp] theorem Module.contents_unitWr (f : RegField) (d u v : Nat) : (m.unitWr f d u v).contents = m.contents := by simp [Module.unitWr]
@[simp] theorem Module.contents_setLevel (d u n : Nat) : (m.setLevel d u n).contents = m.contents := by simp [Module.setLevel]

@[simp] theorem Module.contents_sampleStation (l : List (BitVec 16)) (st round : Nat) : (m.sampleStation l st round).contents = m.contents := by
  simp [Module.sampleStation]

@[simp] theorem Module.contents_sample (logic : List (List (BitVec 16))) (hub : List (BitVec 16)) (round : Nat) :
    (m.sample logic hub round).contents = m.contents := by simp [Module.sample]

@[simp] theorem Module.contents_judgeAll (shorts : List (DieId × Fin 70)) : (m.judgeAll shorts).contents = m.contents := by simp [Module.judgeAll]
@[simp] theorem Module.contents_comparePairs : (m.comparePairs).contents = m.contents := by simp [Module.comparePairs]
@[simp] theorem Module.contents_rorAlarms (round : Nat) : (m.rorAlarms round).contents = m.contents := by simp [Module.rorAlarms]
@[simp] theorem Module.contents_readPower : (m.readPower).contents = m.contents := by simp [Module.readPower]
@[simp] theorem Module.contents_raiseG (g : Nat) : (m.raiseG g).contents = m.contents := by simp [Module.raiseG]
@[simp] theorem Module.contents_lowerG (g n : Nat) : (m.lowerG g n).contents = m.contents := by simp [Module.lowerG]
@[simp] theorem Module.contents_limitPower : (m.limitPower).contents = m.contents := by simp [Module.limitPower]
@[simp] theorem Module.contents_readRise : (m.readRise).contents = m.contents := by simp [Module.readRise]

@[simp] theorem Module.contents_judgeFlow : (m.judgeFlow).contents = m.contents := by
  unfold Module.judgeFlow
  dsimp only
  split <;> simp

@[simp] theorem Module.contents_riseHold (risen : List Nat) : (m.riseHold risen).contents = m.contents := by
  unfold Module.riseHold
  extract_lets lim _
  split
  extract_lets acting cool m₁ spots _ m₂ _ m₃
  have raised : m₂.contents = m.contents := by
    simp only [m₂]
    split
    · simp [m₁]
    · split <;> simp [m₁]
  have lowered : m₃.contents = m.contents := by
    simp only [m₃]
    split
    · exact raised
    · split <;> simp [raised]
  simp [lowered]

@[simp] theorem Module.contents_throttle (d : Nat) : (m.throttle d).1.contents = m.contents := by
  unfold Module.throttle
  dsimp only
  split <;> simp

@[simp] theorem Module.contents_refreshBands (d : Nat) : (m.refreshBands d).contents = m.contents := by simp [Module.refreshBands]
@[simp] theorem Module.contents_hearth (d : Nat) : (m.hearth d).contents = m.contents := by simp [Module.hearth]
@[simp] theorem Module.contents_excursion (d : Nat) : (m.excursion d).contents = m.contents := by simp [Module.excursion]
@[simp] theorem Module.contents_publishUnits (d : Nat) : (m.publishUnits d).contents = m.contents := by simp [Module.publishUnits]

@[simp] theorem Module.contents_judgeRound (shorts : List (DieId × Fin 70)) (round : Nat) : (m.judgeRound shorts round).contents = m.contents := by
  simp [Module.judgeRound]

@[simp] theorem Module.contents_roundRead (logic : List (List (BitVec 16))) (hub : List (BitVec 16)) (shorts : List (DieId × Fin 70)) :
    (m.roundRead logic hub shorts).contents = m.contents := by simp [Module.roundRead]

@[simp] theorem Module.contents_thmWrite (src : Nat) (r : RegId) (v : Word) : (m.thmWrite src r v).contents = m.contents := by
  unfold Module.thmWrite
  split
  · rfl
  · split <;> simp

-- Clock.lean
@[simp] theorem Module.contents_noteClock (d : Domain) : (m.noteClock d).contents = m.contents := by
  unfold Module.noteClock
  split <;> simp

@[simp] theorem Module.contents_stopDie (d : Nat) : (m.stopDie d).contents = m.contents := by simp [Module.stopDie]

@[simp] theorem Module.contents_loseClock (d : Domain) : (m.loseClock d).contents = m.contents := by
  unfold Module.loseClock
  split <;> simp

-- Service.lean
@[simp] theorem Module.contents_sendReady (o : Out) : (m.sendReady o).contents = m.contents := by simp [Module.sendReady]

@[simp] theorem Module.contents_control (cmd code : Nat) (data : List Byte) : (m.control cmd code data).contents = m.contents := by
  simp [Module.control]

@[simp] theorem Module.contents_svcAnswer (cmd : Nat) (inst : Byte) (st : Nat) (payload : List Byte) :
    (m.svcAnswer cmd inst st payload).contents = m.contents := by simp [Module.svcAnswer]

@[simp] theorem Module.contents_stage' (off : Nat) (data : List Byte) : (m.stage' off data).contents = m.contents := by simp [Module.stage']

@[simp] theorem Module.contents_refuseTransfer (cmd : Nat) (inst : Byte) (r : Nat) : (m.refuseTransfer cmd inst r).contents = m.contents := by
  simp [Module.refuseTransfer]

@[simp] theorem Module.contents_ownerWrite (src : Nat) (v : Word) : (m.ownerWrite src v).contents = m.contents := by simp [Module.ownerWrite]
@[simp] theorem Module.contents_startReport (a : AttRun) : (m.startReport a).contents = m.contents := by simp [Module.startReport]
@[simp] theorem Module.contents_attEnd (r : Nat) : (m.attEnd r).contents = m.contents := by simp [Module.attEnd]

-- RegWrite.lean
@[simp] theorem Module.contents_readReg (r : RegId) : (m.readReg r).1.contents = m.contents := by simp [Module.readReg]

@[simp] theorem Module.contents_readRegAt (a : Nat) : (m.readRegAt a).1.contents = m.contents := by
  unfold Module.readRegAt
  split <;> simp

@[simp] theorem Module.contents_scbWrite (src d : Nat) (v : Word) : (m.scbWrite src d v).contents = m.contents := by
  unfold Module.scbWrite
  split <;> simp

@[simp] theorem Module.contents_readSpace (src a n : Nat) : (m.readSpace src a n).1.contents = m.contents := by
  unfold Module.readSpace
  split
  · simp
  · rfl
  · split <;> simp

-- Mesh.lean
@[simp] theorem Module.contents_dropOutst (src tag : Nat) : (m.dropOutst src tag).contents = m.contents := by simp [Module.dropOutst]

@[simp] theorem Module.contents_ucpReturn (read : Bool) (tag status : Nat) (data : List Byte) (poison : List Bool) (vc : Fin 4) :
    (m.ucpReturn read tag status data poison vc).contents = m.contents := by simp [Module.ucpReturn]

@[simp] theorem Module.contents_completeAt (src tag status : Nat) (data : List Byte) (read : Bool) (poison : List Bool) (vc : Fin 4) :
    (m.completeAt src tag status data read poison vc).contents = m.contents := by simp [Module.completeAt]

@[simp] theorem Module.contents_stopAtSource (op : Nat) (p : Packet) (status : Nat) : (m.stopAtSource op p status).contents = m.contents := by
  simp [Module.stopAtSource]

@[simp] theorem Module.contents_bumpAt (f : RegField) (src : Nat) : (m.bumpAt f src).contents = m.contents := by simp [Module.bumpAt]
@[simp] theorem Module.contents_compSend (op : Nat) (p : Packet) (o : Nat) : (m.compSend op p o).contents = m.contents := by simp [Module.compSend]

@[simp] theorem Module.contents_serveCompanion (h : HeldReq) (o : Nat) : (m.serveCompanion h o).contents = m.contents := by
  simp [Module.serveCompanion]

@[simp] theorem Module.contents_compPump : (m.compPump).contents = m.contents := by simp [Module.compPump]

@[simp] theorem Module.contents_compEngAnswer (src tag status : Nat) (data : List Byte) (poison : List Bool) :
    (m.compEngAnswer src tag status data poison).contents = m.contents := by simp [Module.compEngAnswer]

@[simp] theorem Module.contents_setRet (n : Nat) (l : List Retained) : (m.setRet n l).contents = m.contents := by simp [Module.setRet]

@[simp] theorem Module.contents_ucpRefuse (answered : Bool) (read : Bool) (p : Packet) (status : Nat) :
    (m.ucpRefuse answered read p status).contents = m.contents := by simp [Module.ucpRefuse]

@[simp] theorem Module.contents_takeAnswer (r : Resp) : (m.takeAnswer r).contents = m.contents := by
  unfold Module.takeAnswer
  split
  · simp
  · split <;> simp

@[simp] theorem Module.contents_leaveMesh (r : Resp) (l : List Resp) : (m.leaveMesh r l).contents = m.contents := by simp [Module.leaveMesh]
@[simp] theorem Module.contents_takeMulti (w : MWrite) (r : Resp) : (m.takeMulti w r).contents = m.contents := by simp [Module.takeMulti]

-- Companion.lean
@[simp] theorem Module.contents_ucpAnswer (kind : Nat) (p : Packet) : (m.ucpAnswer kind p).contents = m.contents := by
  unfold Module.ucpAnswer
  dsimp only
  split
  · simp
  · split <;> simp

-- Control.lean
@[simp] theorem Module.contents_noteUndeliv (src : Nat) : (m.noteUndeliv src).contents = m.contents := by simp [Module.noteUndeliv]

@[simp] theorem Module.contents_send (c src1 : Nat) (imm : Word) (c0 : Bool) (pay : Core → Option DWord) :
    (m.send c src1 imm c0 pay).contents = m.contents := by simp [Module.send]

@[simp] theorem Module.contents_takeMsg (c dst : Nat) (k : Core) (x : CtlMsg) (st : CtlSt) : (m.takeMsg c dst k x st).contents = m.contents := by
  simp [Module.takeMsg]

@[simp] theorem Module.contents_faultRecord (c : Nat) (w : Word) : (m.faultRecord c w).contents = m.contents := by
  unfold Module.faultRecord
  split <;> simp

-- Tx.lean
@[simp] theorem Module.contents_txOutgoing (k : Nat) : (m.txOutgoing k).contents = m.contents := by simp [Module.txOutgoing]

@[simp] theorem Module.contents_txStart (kind : TxKind) (pieces : List (Nat × Nat)) : (m.txStart kind pieces).contents = m.contents := by
  simp [Module.txStart]

-- FabMesh.lean
@[simp] theorem Module.contents_transitGo (p q : Nat) (x : FabMsg) : (m.transitGo p q x).contents = m.contents := by simp [Module.transitGo]
@[simp] theorem Module.contents_transitWait (p q : Nat) (x : FabMsg) : (m.transitWait p q x).contents = m.contents := by simp [Module.transitWait]
@[simp] theorem Module.contents_transitDraw (p : Nat) (x : FabMsg) : (m.transitDraw p x).contents = m.contents := by simp [Module.transitDraw]

-- Host.lean
@[simp] theorem Module.contents_hostCapture (f bar off st : Nat) (write : Bool) : (m.hostCapture f bar off st write).contents = m.contents := by
  simp [Module.hostCapture]

@[simp] theorem Module.contents_aerNote (f bit : Nat) : (m.aerNote f bit).contents = m.contents := by simp [Module.aerNote]

@[simp] theorem Module.contents_logAer (f code : Nat) : (m.logAer f code).contents = m.contents := by
  unfold Module.logAer
  split <;> simp

@[simp] theorem Module.contents_cplFail (f code : Nat) : (m.cplFail f code).contents = m.contents := by simp [Module.cplFail]

@[simp] theorem Module.contents_cplData (f mps : Nat) (bad : List Nat) (fuel a : Nat) (l : List Byte) :
    (m.cplData f mps bad fuel a l).contents = m.contents := by
  induction fuel generalizing m a l with
  | zero => rfl
  | succ fuel ih => simp [Module.cplData, ih]

@[simp] theorem Module.contents_tableWrite (f o : Nat) (l : List Byte) : (m.tableWrite f o l).contents = m.contents := by simp [Module.tableWrite]
@[simp] theorem Module.contents_dropWrite (f bar off st : Nat) : (m.dropWrite f bar off st).contents = m.contents := by simp [Module.dropWrite]

@[simp] theorem Module.contents_hostEnd (t : Tx) : (m.hostEnd t).contents = m.contents := by
  unfold Module.hostEnd
  split
  · split <;> simp
  · split <;> simp
  · rfl

-- Tick.lean
@[simp] theorem Module.contents_tickDatum : (m.tickDatum).contents = m.contents := by simp [Module.tickDatum]
@[simp] theorem Module.contents_tickCore (c : Nat) : (m.tickCore c).contents = m.contents := by simp [Module.tickCore]
@[simp] theorem Module.contents_tickWarm (c : Nat) : (m.tickWarm c).contents = m.contents := by simp [Module.tickWarm]
@[simp] theorem Module.contents_countStalls : (m.countStalls).contents = m.contents := by simp [Module.countStalls]
@[simp] theorem Module.contents_countReplays : (m.countReplays).contents = m.contents := by simp [Module.countReplays]

end Sys2Proof.Machine
end

section
/-! SUPPORT. The canonical form of memory, a property of what the memories hold: folds and the operations of Memory.lean keep it. -/

namespace Sys2Proof.Machine

variable {m : Module}

@[simp] theorem Contents.wf_ite (c : Prop) [Decidable c] (a b : Contents) : (if c then a else b).wf = if c then a.wf else b.wf :=
  apply_ite _ _ _ _

/-- What holds of the module of a pair holds of the name that a match gives it. -/
theorem Module.wf_of_eq {α : Type} {x : Module × α} {n : Module} {r : α} (e : x = (n, r)) (h : x.1.contents.wf = true) : n.contents.wf = true := by
  rw [e] at h
  exact h

theorem Module.wf_of_eq_snd {α : Type} {x : α × Module} {n : Module} {r : α} (e : x = (r, n)) (h : x.2.contents.wf = true) :
    n.contents.wf = true := by
  rw [e] at h
  exact h

theorem Module.wf_foldl {β : Type} {f : Module → β → Module} (hf : ∀ n b, n.contents.wf = true → (f n b).contents.wf = true) (l : List β)
    (h : m.contents.wf = true) : (l.foldl f m).contents.wf = true := Module.memWf_foldl f hf l m h

/-- The same of a fold that carries the module beside other data. -/
theorem wf_foldl_fst {α β : Type} {f : Module × α → β → Module × α} (hf : ∀ x b, x.1.contents.wf = true → (f x b).1.contents.wf = true)
    (l : List β) {x : Module × α} (h : x.1.contents.wf = true) : (l.foldl f x).1.contents.wf = true := by
  induction l generalizing x with
  | nil => exact h
  | cons b t ih => exact ih (hf x b h)

@[simp] theorem Module.wf_storeTag (h : m.contents.wf = true) (k : Nat) (l : List Byte) (tag : Nat → Bool) :
    (m.storeTag k l tag).contents.wf = true := m.memWf_storeTag h k l tag

@[simp] theorem Module.wf_put (h : m.contents.wf = true) (k : Nat) (l : List Byte) : (m.put k l).contents.wf = true := m.memWf_put h k l

@[simp] theorem Module.wf_setPoison (h : m.contents.wf = true) (ws : List Nat) : (m.setPoison ws).contents.wf = true :=
  m.memWf_setPoison h ws

@[simp] theorem Module.wf_freshCodes (h : m.contents.wf = true) (p : Nat → Bool) : (m.freshCodes p).contents.wf = true :=
  m.memWf_freshCodes h p

@[simp] theorem Module.wf_recheck (h : m.contents.wf = true) (page : Nat) (fixed : List Nat) : (m.recheck page fixed).contents.wf = true :=
  m.memWf_recheck h page fixed

@[simp] theorem Module.wf_readSite (h : m.contents.wf = true) (s : Site) (k n : Nat) (ran : List Nat) (via : Via) :
    (m.readSite s k n ran via).1.contents.wf = true := m.memWf_readSite h s k n ran via

@[simp] theorem Module.wf_writeSite (h : m.contents.wf = true) (s : Site) (l : List Byte) (tag : Nat → Bool) (ran : List Nat) (via : Via)
    (seen : Bool) : (m.writeSite s l tag ran via seen).contents.wf = true := m.memWf_writeSite h s l tag ran via seen

/-- Whatever slice stands at a position, memory is as canonical as before: its base is no part of the form. -/
@[simp] theorem Module.wf_setSlice (c : Nat) (s : Slice) : (m.setSlice c s).contents.wf = m.contents.wf := m.memWf_setSlice c s

end Sys2Proof.Machine
end

section
/-! SUPPORT. Every operation of the model that reaches memory keeps its canonical form, in the order of the model's files. -/

namespace Sys2Proof.Machine

variable {m : Module}

-- Memory.lean
@[simp] theorem Module.wf_clearKeys (h : m.contents.wf = true) (lo hi : Nat) : (m.clearKeys lo hi).contents.wf = true := by
  obtain ⟨hmem, hpoison, hscr, hword, hck, hoff⟩ := m.memWf_iff.1 h
  exact (Module.memWf_iff _).2 ⟨Tbl.wf_filter hmem _, NSet.wf_filter hpoison _, Tbl.wf_filter hscr _, Tbl.wf_filter hword _,
    Tbl.wf_filter hck _, Tbl.wf_filter hoff _⟩

-- Serve.lean
@[simp] theorem Module.wf_perform (hm : m.contents.wf = true) (h : HeldReq) (s : Site) (k : Nat) :
    (m.perform h s k).1.contents.wf = true := by
  unfold Module.perform
  dsimp only
  split
  · simp [hm]
  · simp [hm]
  · simp [hm]
  · split
    · split <;> simp [hm]
    · split <;> simp [hm]
    · exact hm

@[simp] theorem Module.wf_finish (hm : m.contents.wf = true) (h : HeldReq) (s : Site) (k : Nat) : (m.finish h s k).contents.wf = true := by
  unfold Module.finish
  split <;> simp [hm]

@[simp] theorem Module.wf_deliver (hm : m.contents.wf = true) (h : HeldReq) (chosen : Bool) :
    (m.deliver h chosen).contents.wf = true := by
  unfold Module.deliver
  split
  · simp [hm]
  · dsimp only
    split
    · simp [hm]
    · split
      · simp [hm]
      · split
        · simp [hm]
        · split <;> simp [hm]

@[simp] theorem Module.wf_serveList (h : m.contents.wf = true) (fuel : Nat) (l : List HeldReq) :
    (m.serveList fuel l).contents.wf = true := by
  induction fuel generalizing m l with
  | zero => exact h
  | succ fuel ih =>
    cases l with
    | nil => exact h
    | cons x t =>
      unfold Module.serveList
      split
      · simp [ih, h]
      · dsimp only
        split <;> simp [ih, h]

@[simp] theorem Module.wf_deliverAll (h : m.contents.wf = true) (l : List HeldReq) : (m.deliverAll l).contents.wf = true :=
  Module.wf_serveList h _ _

@[simp] theorem Module.wf_flushReads (h : m.contents.wf = true) (t : Nat) : (m.flushReads t).contents.wf = true := by
  simp [Module.flushReads, h]

@[simp] theorem Module.wf_flushClock (h : m.contents.wf = true) : m.flushClock.contents.wf = true := by
  simp [Module.flushClock, h]

/-- The accesses that a port of register space makes keep memory canonical. -/
structure RegPort.KeepsWf (r : RegPort) : Prop where
  read {n : Module} (h : n.contents.wf = true) (src a k : Nat) : (r.read n src a k).1.contents.wf = true
  write {n : Module} (h : n.contents.wf = true) (src a : Nat) (l : List Byte) : (r.write n src a l).contents.wf = true

-- Access.lean
theorem RegPort.keepsWf_errors : RegPort.errors.KeepsWf where
  read h src a k := by simp [RegPort.errors, h]
  write h src a l := by simp [RegPort.errors, h]

theorem RegPort.KeepsWf.readAll {r : RegPort} (hr : r.KeepsWf) (h : m.contents.wf = true) (src a n : Nat) :
    (r.readAll m src a n).1.contents.wf = true := by
  unfold RegPort.readAll
  generalize piecesOf (n / 64 + 12) a n = ps
  generalize ([] : List Byte) = l
  induction ps generalizing m l with
  | nil => exact h
  | cons x ps ih => exact ih (hr.read h src x.1 x.2) _

theorem RegPort.KeepsWf.writeAll {r : RegPort} (hr : r.KeepsWf) (h : m.contents.wf = true) (src a : Nat) (l : List Byte) :
    (r.writeAll m src a l).contents.wf = true :=
  Module.wf_foldl (fun _ x hn => hr.write hn src x.1 _) _ h

@[simp] theorem Module.wf_writeAt (h : m.contents.wf = true) (q : Asker) (s : Site) (a : Nat) (l : List Byte) (tag : Nat → Bool)
    (kind : Nat) (copies : Option Nat) {reg : RegPort} (hreg : reg.KeepsWf) : (m.writeAt q s a l tag kind copies reg).1.contents.wf = true := by
  unfold Module.writeAt
  split
  · dsimp only
    split
    · simp [hreg.writeAll, h]
    · next o _ =>
      have hn : (m.compAsk q o l.length (some l)).1.contents.wf = true := by simp [h]
      split
      · simp [h]
      · split
        · next heq => rw [heq] at hn; simp [hn]
        · next heq => rw [heq] at hn; simp [hn]
    · simp [h]
  · split
    · simp [h]
    · dsimp only
      split
      · split <;> simp [h]
      · simp [h]

-- Ops.lean
@[simp] theorem Module.wf_write (h : m.contents.wf = true) (q : Asker) (a : Nat) (l : List Byte) (tag : Nat → Bool)
    {reg : RegPort} (hreg : reg.KeepsWf) : (m.write q a l tag reg).1.contents.wf = true := by
  unfold Module.write
  split <;> simp [h, hreg]

@[simp] theorem Module.wf_read (h : m.contents.wf = true) (q : Asker) (a n : Nat) {reg : RegPort} (hreg : reg.KeepsWf) :
    (m.read q a n reg).1.contents.wf = true := by
  unfold Module.read
  split
  · simp [h]
  · split
    · exact h
    · split
      · dsimp only
        split
        · simp [hreg.readAll, h]
        · next o _ _ _ =>
          have hn : (m.compAsk q o n none).1.contents.wf = true := by simp [h]
          split
          · simp [h]
          · split
            · simp [h]
            · split
              · next heq => rw [heq] at hn; exact hn
              · next heq => rw [heq] at hn; simp [hn]
        · simp [h]
      · split <;> simp [h]

-- Access.lean
@[simp] theorem Module.wf_readSpanBy (h : m.contents.wf = true) (q : Asker) {reg : RegPort} (hreg : reg.KeepsWf) (fuel a n : Nat) :
    (m.readSpanBy q reg fuel a n).1.contents.wf = true := by
  induction fuel generalizing m a n with
  | zero => exact h
  | succ fuel ih => simp [Module.readSpanBy, ih, h, hreg]

@[simp] theorem Module.wf_writeSpanBy (h : m.contents.wf = true) (q : Asker) (tag : Nat → Bool) {reg : RegPort} (hreg : reg.KeepsWf)
    (fuel a : Nat) (l : List Byte) : (m.writeSpanBy q tag reg fuel a l).1.contents.wf = true := by
  induction fuel generalizing m a l with
  | zero => exact h
  | succ fuel ih => simp [Module.writeSpanBy, ih, h, hreg]

@[simp] theorem Module.wf_readSpan (h : m.contents.wf = true) (q : Asker) (fuel a n : Nat) :
    (m.readSpan q fuel a n).1.contents.wf = true := Module.wf_readSpanBy h q RegPort.keepsWf_errors fuel a n

@[simp] theorem Module.wf_writeSpan (h : m.contents.wf = true) (q : Asker) (tag : Nat → Bool) (fuel a : Nat) (l : List Byte) :
    (m.writeSpan q tag fuel a l).1.contents.wf = true := Module.wf_writeSpanBy h q tag RegPort.keepsWf_errors fuel a l

-- Convert.lean
@[simp] theorem Module.wf_writeLanes (h : m.contents.wf = true) (c off bits : Nat) (codes : List Nat) (act : List Bool) :
    (m.writeLanes c off bits codes act).contents.wf = true := by
  unfold Module.writeLanes
  dsimp only
  split
  · simp [h]
  · exact Module.wf_foldl (fun n b hn => by simp [hn]) _ h

-- Seq.lean
@[simp] theorem Module.wf_fetch (h : m.contents.wf = true) (c : Nat) {act : Module → Core → Module}
    (hact : ∀ n k, n.contents.wf = true → (act n k).contents.wf = true) : (m.fetch c act).contents.wf = true := by
  simp [Module.fetch, hact, h]

@[simp] theorem Module.wf_holdCore (h : m.contents.wf = true) (c : Nat) : (m.holdCore c).contents.wf = true := by
  unfold Module.holdCore
  extract_lets k m₁ m₂ m₃ m₄
  have h₂ : m₂.contents.wf = true := Module.wf_foldl (fun n b hn => by simp [hn]) _ (by simp [m₁, h])
  simp [m₄, m₃, h₂]

-- Matrix.lean
@[simp] theorem Module.wf_actRead (h : m.contents.wf = true) (c : Nat) (x : Desc) (o n : Nat) : (m.actRead c x o n).1.contents.wf = true := by
  simp [Module.actRead, h]

@[simp] theorem Module.wf_passRow (h : m.contents.wf = true) (c : Nat) (t : Tile) (p : PassRun) (r : Nat) :
    (m.passRow c t p r).1.contents.wf = true := by
  unfold Module.passRow
  extract_lets d off all cvt
  split
  · exact h
  · extract_lets int
    split
    next m₁ _ _ e₁ =>
    have h₁ : m₁.contents.wf = true := Module.wf_of_eq e₁ (by simp [h])
    split
    next m₂ _ _ e₂ =>
    have h₂ : m₂.contents.wf = true := Module.wf_of_eq e₂ (by split <;> simp [h₁])
    split
    next m₃ _ _ e₃ =>
    have h₃ : m₃.contents.wf = true := Module.wf_of_eq e₃ (by split <;> simp [h₂])
    extract_lets m₄ rowBad act ascale outs words m₅ m₆ fl₁ m₇ m₈
    have h₆ : m₆.contents.wf = true := by simp [m₆, m₅, m₄, h₃]
    split
    · simp [m₈, m₇, h₆]
    · split
      next m₉ _ _ _ e₉ =>
      have h₉ : m₉.contents.wf = true := Module.wf_of_eq e₉ (by simp [h₆])
      simp [h₉]

@[simp] theorem Module.wf_passRows (h : m.contents.wf = true) (c : Nat) (t : Tile) (fuel : Nat) (p : PassRun) (n : Nat) :
    (m.passRows c t fuel p n).1.contents.wf = true := by
  induction fuel generalizing m p with
  | zero => exact h
  | succ fuel ih =>
    unfold Module.passRows
    split
    · exact h
    · split <;> simp [ih, h]

@[simp] theorem Module.wf_runPass (h : m.contents.wf = true) (c n : Nat) : (m.runPass c n).contents.wf = true := by
  unfold Module.runPass
  dsimp only
  split <;> simp [h]

-- Vector.lean
@[simp] theorem Module.wf_vecRow (h : m.contents.wf = true) (c : Nat) (v : VecRun) (r : Nat) :
    (m.vecRow c v r).1.contents.wf = true := by
  unfold Module.vecRow
  extract_lets d op int act ring n inRing release v₁ off off' w
  split
  next m₁ a e₁ =>
  have h₁ : m₁.contents.wf = true := Module.wf_of_eq e₁ (by simp [h])
  split
  next m₂ b e₂ =>
  have h₂ : m₂.contents.wf = true := Module.wf_of_eq e₂ (by simp [h₁])
  extract_lets m₃ bit
  clear_value ring
  have hrelease : ∀ y : Module, y.contents.wf = true → (release y).contents.wf = true := by
    intro y hy
    dsimp only [release]
    split <;> simp [hy]
  have h₃ : m₃.contents.wf = true := by
    unfold m₃
    split
    · exact h₂
    · exact hrelease _ h₂
  split
  · split
    next w' fl _ =>
    extract_lets m₄
    have h₄ : m₄.contents.wf = true := by simp [m₄, h₃]
    dsimp only
    split
    · exact hrelease _ h₄
    · exact h₄
  · exact h₃
  · split
    next m₄ old badD e₄ =>
    have h₄ : m₄.contents.wf = true := Module.wf_of_eq e₄ (by split <;> simp [h₃])
    extract_lets m₅ res words m₆ fl m₇
    have h₆ : m₆.contents.wf = true := by simp [m₆, m₅, h₄]
    have h₇ : m₇.contents.wf = true := by simp [m₇, h₆]
    split
    · dsimp only
      split
      · exact hrelease _ h₇
      · exact h₇
    · split
      next m₈ codes fl₂ scales e₈ =>
      have h₈ : m₈.contents.wf = true := Module.wf_of_eq e₈ (by simp [h₆])
      extract_lets fl' m₉ m₁₀
      have h₉ : m₉.contents.wf = true := by simp [m₉, h₈]
      have h₁₀ : m₁₀.contents.wf = true := Module.wf_foldl (fun y b hy => by split <;> simp [hy]) _ h₉
      dsimp only
      split
      · exact hrelease _ h₁₀
      · exact h₁₀

@[simp] theorem Module.wf_vecRows (h : m.contents.wf = true) (c fuel : Nat) (v : VecRun) :
    (m.vecRows c fuel v).1.contents.wf = true := by
  induction fuel generalizing m v with
  | zero => exact h
  | succ fuel ih => simp [Module.vecRows, ih, h]

@[simp] theorem Module.wf_runVec (h : m.contents.wf = true) (c : Nat) : (m.runVec c).contents.wf = true := by
  unfold Module.runVec
  split <;> simp [h]

@[simp] theorem Module.wf_vecStart (h : m.contents.wf = true) (c op : Nat) : (m.vecStart c op).contents.wf = true := by
  unfold Module.vecStart
  dsimp only
  split
  · split
    · exact h
    · split <;> simp [h]
  · exact h

-- Attention.lean
@[simp] theorem Module.wf_putFp (h : m.contents.wf = true) (c off : Nat) (w : Word) : (m.putFp c off w).contents.wf = true := by
  simp [Module.putFp, h]

@[simp] theorem Module.wf_putO (h : m.contents.wf = true) (c d r : Nat) (v : VecRun) (out : List (Word × Flags)) :
    (m.putO c d r v out).1.contents.wf = true :=
  wf_foldl_fst (fun x w hx => by simp [hx]) _ h

@[simp] theorem Module.wf_nanRow (h : m.contents.wf = true) (c d r : Nat) (v : VecRun) : (m.nanRow c d r v).1.contents.wf = true :=
  Module.wf_putO (by simp [h]) _ _ _ _ _

@[simp] theorem Module.wf_initRow (h : m.contents.wf = true) (c d r : Nat) (v : VecRun) : (m.initRow c d r v).1.contents.wf = true :=
  Module.wf_putO (by simp [h]) _ _ _ _ _

@[simp] theorem Module.wf_rescaleRow (h : m.contents.wf = true) (c d r : Nat) (v : VecRun) :
    (m.rescaleRow c d r v).1.contents.wf = true := by
  unfold Module.rescaleRow
  extract_lets mv n
  split
  · simp [h]
  · split
    · exact Module.wf_putO (by simp [h]) _ _ _ _ _
    · split <;> exact h

@[simp] theorem Module.wf_mergeRow (h : m.contents.wf = true) (c d r : Nat) (v : VecRun) :
    (m.mergeRow c d r v).1.contents.wf = true := by
  unfold Module.mergeRow
  extract_lets m₁ m₂ mx
  split
  · simp [h]
  · exact Module.wf_putO (by simp [h]) _ _ _ _ _

@[simp] theorem Module.wf_finishRow (h : m.contents.wf = true) (c d r : Nat) (v : VecRun) :
    (m.finishRow c d r v).1.contents.wf = true := by
  unfold Module.finishRow
  extract_lets l zero
  split
  extract_lets out v base
  split
  next m₁ v' e =>
  have h₁ : m₁.contents.wf = true := by
    refine Module.wf_of_eq e ?_
    split
    · simp [h]
    · exact wf_foldl_fst (fun x k hx => by simp [hx]) _ h
  split <;> simp [h₁]

@[simp] theorem Module.wf_atnStart (h : m.contents.wf = true) (c op : Nat) {row : Module → Nat → Nat → VecRun → Module × VecRun}
    (hrow : ∀ n d r v, n.contents.wf = true → (row n d r v).1.contents.wf = true) : (m.atnStart c op row).contents.wf = true := by
  unfold Module.atnStart
  dsimp only
  split
  · split
    · exact h
    · split
      · simp [h]
      · simp [wf_foldl_fst (fun x r hx => hrow _ _ r _ hx), h]
  · exact h

-- Bank.lean
@[simp] theorem Module.wf_bopPage (h : m.contents.wf = true) (t : Nat) (b : BopRun) (k i : Nat) :
    (m.bopPage t b k i).1.contents.wf = true := by
  simp [Module.bopPage, h]

@[simp] theorem Module.wf_pageStep (h : m.contents.wf = true) (t k : Nat) : (m.pageStep t k).contents.wf = true := by
  unfold Module.pageStep
  split <;> simp [h]

@[simp] theorem Module.wf_bopComplete (h : m.contents.wf = true) (t : Nat) : (m.bopComplete t).contents.wf = true := by
  unfold Module.bopComplete
  split
  · exact h
  · dsimp only
    split
    · exact h
    · split
      · simp [h]
      · split <;> simp [h]

@[simp] theorem Module.wf_recompute (h : m.contents.wf = true) (page : Nat) : (m.recompute page).contents.wf = true := by
  simp [Module.recompute, h]

-- Ecc.lean
@[simp] theorem Module.wf_endSlow (h : m.contents.wf = true) (u : Nat) (x : SlowPath) (rest : List SlowPath) :
    (m.endSlow u x rest).contents.wf = true := by
  unfold Module.endSlow
  extract_lets m₁ m₂ held m₃
  have h₃ : m₃.contents.wf = true := by simp [m₃, m₂, m₁, h]
  simp [h₃]

@[simp] theorem Module.wf_flushFar (h : m.contents.wf = true) (j : Nat) : (m.flushFar j).contents.wf = true := by
  simp [Module.flushFar, h]

@[simp] theorem Module.wf_loseFar (h : m.contents.wf = true) (j : Nat) : (m.loseFar j).contents.wf = true := by
  simp [Module.loseFar, h]

@[simp] theorem Module.wf_isolate (h : m.contents.wf = true) (j : Nat) : (m.isolate j).contents.wf = true := by
  simp [Module.isolate, h]

@[simp] theorem Module.wf_scrubVisit (h : m.contents.wf = true) (d : Nat) (x : Scrub) : (m.scrubVisit d x).1.contents.wf = true := by
  unfold Module.scrubVisit
  extract_lets u p page prot pending f₀ f write fix poi kept ck ckDue ckWrite m₁ m₂ clears y m₃
  have h₁ : m₁.contents.wf = true := by simp [m₁, h]
  have h₂ : m₂.contents.wf = true := by
    unfold m₂
    split <;> simp [h₁]
  have h₃ : m₃.contents.wf = true := by
    unfold m₃
    split <;> simp [h₂]
  simp [h₃]

-- Observe.lean
@[simp] theorem Module.wf_writeSample (h : m.contents.wf = true) (a : Nat) (l : List Byte) :
    (m.writeSample a l).1.contents.wf = true := by
  unfold Module.writeSample
  split
  next m₁ _ e₁ =>
  have h₁ : m₁.contents.wf = true := Module.wf_of_eq e₁ (by simp [h])
  split
  · exact h₁
  · extract_lets body
    split
    next m₂ _ e₂ =>
    have h₂ : m₂.contents.wf = true := Module.wf_of_eq e₂ (by simp [h₁])
    split <;> simp [h₂]

-- Queues.lean
@[simp] theorem Module.wf_take (h : m.contents.wf = true) (c q a cap : Nat) : (m.take c q a cap).1.contents.wf = true := by
  unfold Module.take
  extract_lets owned x k
  split
  · exact h
  · split
    · exact h
    · split
      · extract_lets n ctl fare bad m₁ m₂ m₃ m₄
        have h₃ : m₃.contents.wf = true := by simp [m₃, m₂, m₁, h]
        split
        · exact h
        · simp [m₄, h₃]
      · exact h

@[simp] theorem Module.wf_qAgain (h : m.contents.wf = true) (c : Nat) : (m.qAgain c).contents.wf = true := by
  unfold Module.qAgain
  split <;> simp [h]

@[simp] theorem Module.wf_serveLine (h : m.contents.wf = true) (q : Nat) (put : Bool) : (m.serveLine q put).contents.wf = true :=
  Module.wf_foldl (fun n c hn => by simp [hn]) _ h

@[simp] theorem Module.wf_qOp (h : m.contents.wf = true) (c dst src1 src2 : Nat) (imm : Word) (put waits : Bool) :
    (m.qOp c dst src1 src2 imm put waits).contents.wf = true := by
  refine Module.wf_fetch h c fun n k hn => ?_
  dsimp only
  split
  · simp [hn]
  · have hs : (n.serveLine ((k.getG src1).toNat % 64) put).contents.wf = true := by simp [hn]
    generalize n.serveLine ((k.getG src1).toNat % 64) put = n₁ at hs ⊢
    have ht : ∀ x : QTry, x = (if put then n₁.putQ c ((k.getG src1).toNat % 64) (k.getG src2).toNat (imm.toNat + 1)
        else n₁.take c ((k.getG src1).toNat % 64) (k.getG src2).toNat (imm.toNat + 1)) → x.1.contents.wf = true := by
      intro x e
      subst e
      split <;> simp [hs]
    split
    · next m₁ v e _ => simp [ht _ e.symm]
    · next m₁ r e _ =>
      have hm₁ : (if r.isSome then n₁ else m₁).contents.wf = true := by
        split
        · exact hs
        · exact ht _ e.symm
      generalize (if r.isSome then n₁ else m₁) = n₂ at hm₁ ⊢
      split <;> simp [hm₁]

-- RstRuns.lean
@[simp] theorem Module.wf_endSteps (h : m.contents.wf = true) (c : Nat) : (m.endSteps c).contents.wf = true := by
  refine Module.wf_foldl (fun n p hn => ?_) _ h
  dsimp only
  split
  · split
    · exact Module.wf_foldl (fun x k hx => by simp [hx]) _ hn
    · exact hn
  · exact hn

@[simp] theorem Module.wf_drainEnd (h : m.contents.wf = true) (c : Nat) : (m.drainEnd c).contents.wf = true := by
  simp [Module.drainEnd, h]

-- Plat.lean
@[simp] theorem Module.wf_holdCores (h : m.contents.wf = true) (l : List Nat) : (m.holdCores l).contents.wf = true :=
  Module.wf_foldl (fun n c hn => Module.wf_flushReads hn c) l (Module.wf_foldl (fun n c hn => by simp [hn]) l h)

@[simp] theorem Module.wf_quiesce (h : m.contents.wf = true) (p : Nat) : (m.quiesce p).contents.wf = true := by
  simp [Module.quiesce, h]

@[simp] theorem Module.wf_pltCmd (h : m.contents.wf = true) (src op part : Nat) : (m.pltCmd src op part).contents.wf = true := by
  unfold Module.pltCmd
  split
  · exact h
  · split
    · simp [h]
    · split
      · exact h
      · dsimp only
        split <;> simp [h]

@[simp] theorem Module.wf_loadQuiesce (h : m.contents.wf = true) (l : LoadRun) : (m.loadQuiesce l).contents.wf = true := by
  unfold Module.loadQuiesce
  dsimp only
  rw [Module.contents_loadStep]
  refine Module.wf_foldl (fun n p hn => by simp [hn]) _ ?_
  simp [h]

@[simp] theorem Module.wf_loadFail (h : m.contents.wf = true) (l : LoadRun) (result detail : Nat) :
    (m.loadFail l result detail).contents.wf = true := by
  unfold Module.loadFail
  dsimp only
  have h₁ : (m.holdCores (m.targets.flatMap m.partCores)).contents.wf = true := by simp [h]
  have h₂ := Module.wf_foldl (f := Module.drainEnd) (fun n c hn => by simp [hn]) (m.targets.flatMap m.partCores) h₁
  simp [h₁, h₂]

@[simp] theorem Module.wf_loadFloorplan (h : m.contents.wf = true) (c : Nat) : (m.loadFloorplan c).contents.wf = true := by
  unfold Module.loadFloorplan
  split <;> simp [h]

@[simp] theorem Module.wf_zeroScratch (h : m.contents.wf = true) (c : Nat) : (m.zeroScratch c).contents.wf = true := by
  simp [Module.zeroScratch, h]

@[simp] theorem Module.wf_initTables (h : m.contents.wf = true) (l : List PoolEntry) : (m.initTables l).1.contents.wf = true := by
  refine wf_foldl_fst (fun x e hx => ?_) l h
  dsimp only
  split <;> simp [hx]

-- Reset.lean
@[simp] theorem Module.wf_emptySlice (h : m.contents.wf = true) (c : Nat) (fill : Option Nat) : (m.emptySlice c fill).contents.wf = true := by
  simp [Module.emptySlice, h]

@[simp] theorem Module.wf_wipeSlice (h : m.contents.wf = true) (c : Nat) : (m.wipeSlice c).contents.wf = true := by
  simp [Module.wipeSlice, h]

@[simp] theorem Module.wf_dropSlow (h : m.contents.wf = true) (c : Nat) : (m.dropSlow c).contents.wf = true := by
  simp [Module.dropSlow, h]

@[simp] theorem Module.wf_fencePos (h : m.contents.wf = true) (c code : Nat) (cause : FpCause) :
    (m.fencePos c code cause).contents.wf = true := by
  unfold Module.fencePos
  extract_lets old m₁ m₂
  have h₂ : m₂.contents.wf = true := by simp [m₂, m₁, h]
  have h₃ : (m₂.wipeSlice c).contents.wf = true := Module.wf_wipeSlice h₂ c
  split <;> simp [h₂, h₃]

@[simp] theorem Module.wf_refence (h : m.contents.wf = true) (c : Nat) (lend : Bool) : (m.refence c lend).1.contents.wf = true := by
  simp [Module.refence, h]

@[simp] theorem Module.wf_rstBegin (h : m.contents.wf = true) (k : Nat) (r : RstRun) (cores : List Nat) :
    (m.rstBegin k r cores).contents.wf = true := by
  simp [Module.rstBegin, h]

@[simp] theorem Module.wf_rstPerform (h : m.contents.wf = true) (k op bits unit : Nat) :
    (m.rstPerform k op bits unit).contents.wf = true := by
  unfold Module.rstPerform
  split
  next _ _ _ pend _ u _ =>
  extract_lets m₁ cores r goods act
  have h₁ : m₁.contents.wf = true := by simp [m₁, h]
  have hfence : ∀ b l x, x.1.contents.wf = true → (List.foldl (fun (x : Module × Nat) c =>
      let (m', s) := x.1.refence c b; (m', if k < 576 then s else x.2)) x l).1.contents.wf = true :=
    fun b l x hx => wf_foldl_fst (fun y c hy => by simp [hy]) l hx
  split
  · split
    · split <;> simp [h₁]
    · split <;> simp [h₁]
  · have hf := hfence (2 == 3) (cores.filter fun c => !m₁.good c) (m₁, RSt.ok) h₁
    split
    · simp [h₁]
    · split
      next m₂ res e => 
      have h₂ := Module.wf_of_eq e hf
      split <;> simp [h₂]
  · have hf := hfence (3 == 3) (cores.filter fun c => !m₁.good c) (m₁, RSt.ok) h₁
    split
    · simp [h₁]
    · split
      next m₂ res e => 
      have h₂ := Module.wf_of_eq e hf
      split <;> simp [h₂]
  · split
    · simp [h₁]
    · split
      next m₂ res e =>
      have h₂ : m₂.contents.wf = true := Module.wf_of_eq e (wf_foldl_fst (fun x c hx => by simp [hx]) _ h₁)
      simp [h₂]
  · simp [h₁]

@[simp] theorem Module.wf_rstAccept (h : m.contents.wf = true) (k op bits unit : Nat) : (m.rstAccept k op bits unit).contents.wf = true := by
  simp [Module.rstAccept, h]

@[simp] theorem Module.wf_rstCommand (h : m.contents.wf = true) (src k op bits unit : Nat) (bad : Bool) :
    (m.rstCommand src k op bits unit bad).contents.wf = true := by
  simp [Module.rstCommand, h]

@[simp] theorem Module.wf_rstCmdWrite (h : m.contents.wf = true) (src c : Nat) (v : Word) : (m.rstCmdWrite src c v).contents.wf = true := by
  simp [Module.rstCmdWrite, h]

@[simp] theorem Module.wf_rstClCmdWrite (h : m.contents.wf = true) (src d : Nat) (v : Word) :
    (m.rstClCmdWrite src d v).contents.wf = true := by
  simp [Module.rstClCmdWrite, h]

@[simp] theorem Module.wf_rstPartCmdWrite (h : m.contents.wf = true) (src : Nat) (v : Word) :
    (m.rstPartCmdWrite src v).contents.wf = true := by
  simp [Module.rstPartCmdWrite, h]

@[simp] theorem Module.wf_testOutcome (h : m.contents.wf = true) (c : Nat) (tc ts lend cf sf : Bool) :
    (m.testOutcome c tc ts lend cf sf).contents.wf = true := by
  simp [Module.testOutcome, h]

-- Bringup.lean
@[simp] theorem Module.wf_kept (h : m.contents.wf = true) (far store : Bool) : (m.kept far store).contents.wf = true := by
  obtain ⟨hmem, hpoison, -, hword, hck, hoff⟩ := m.memWf_iff.1 h
  rw [Module.kept, Module.contents_loadLock, ← Module.memWf_eq, Module.memWf_iff]
  cases far
  · exact ⟨rfl, rfl, rfl, rfl, rfl, rfl⟩
  · exact ⟨Tbl.wf_filter hmem _, NSet.wf_filter hpoison _, rfl, Tbl.wf_filter hword _, Tbl.wf_filter hck _, Tbl.wf_filter hoff _⟩

/-- Which die's memory was lost is no part of the canonical form. -/
theorem Module.wf_nearLost (m : Module) (t : Tbl Nat) : ({ m with nearLost := t } : Module).contents.wf = m.contents.wf := rfl

@[simp] theorem Module.wf_clearSlices (h : m.contents.wf = true) (d : Nat) : (m.clearSlices d).contents.wf = true := by
  unfold Module.clearSlices
  extract_lets m₁
  have h₁ : m₁.contents.wf = true := Module.wf_foldl (fun n i hn => by dsimp only; split <;> simp [hn]) _ h
  exact (Module.wf_nearLost _ _).trans (Module.wf_clearKeys h₁ _ _)

@[simp] theorem Module.wf_clearLive (h : m.contents.wf = true) : m.clearLive.contents.wf = true :=
  Module.wf_foldl (fun _ c hn => Module.wf_wipeSlice hn c) _ (Module.wf_foldl (fun _ d hn => Module.wf_clearSlices hn d) _ h)

@[simp] theorem Module.wf_moduleReset (h : m.contents.wf = true) (cold : Bool) : (m.moduleReset cold).contents.wf = true := by
  simp [Module.moduleReset, h]

@[simp] theorem Module.wf_rstModWrite (h : m.contents.wf = true) (src : Nat) (v : Word) : (m.rstModWrite src v).contents.wf = true := by
  simp [Module.rstModWrite, h]

/-- A transfer keeps memory canonical whatever it ends with. -/
def KeepsWf {α : Type} (x : DmaM α) : Prop := ∀ m : Module, m.contents.wf = true → (x.run m).2.contents.wf = true

section KeepsWf
variable {α β : Type}

theorem keepsWf_pure (a : α) : KeepsWf (pure a) := fun _ h => h

-- Tbl.lean
theorem keepsWf_get : KeepsWf (get : DmaM Module) := fun _ h => h

theorem keepsWf_throw (e : Nat × Nat) : KeepsWf (throw e : DmaM α) := fun _ h => h

-- Dma.lean
theorem keepsWf_dmaStop (status detail : Nat) : KeepsWf (dmaStop status detail : DmaM α) := keepsWf_throw _

theorem keepsWf_dmaDo {f : Module → Module} (hf : ∀ m, m.contents.wf = true → (f m).contents.wf = true) : KeepsWf (dmaDo f) := hf

theorem keepsWf_bind {x : DmaM α} {f : α → DmaM β} (hx : KeepsWf x) (hf : ∀ a, KeepsWf (f a)) : KeepsWf (x >>= f) := by
  intro m h
  have hn : (x.run m).2.contents.wf = true := hx m h
  change (ExceptT.bindCont f (x.run m).1 (x.run m).2).2.contents.wf = true
  cases (x.run m).1 with
  | ok a => exact hf a _ hn
  | error e => exact hn

theorem keepsWf_get_bind {f : Module → DmaM β} (hf : ∀ m, m.contents.wf = true → ((f m).run m).2.contents.wf = true) :
    KeepsWf (get >>= f) := hf

theorem dmaM_run_set_bind (n m : Module) (x : DmaM β) : ((set n >>= fun _ => x) : DmaM β).run m = x.run n := rfl

theorem keepsWf_ite {c : Prop} [Decidable c] {x y : DmaM α} (hx : KeepsWf x) (hy : KeepsWf y) : KeepsWf (if c then x else y) := by
  split
  · exact hx
  · exact hy

/-- A value that a condition chooses the source of, and what follows with it. -/
theorem keepsWf_iteBind {c : Prop} [Decidable c] {x y : DmaM α} {f : α → DmaM β} (hx : KeepsWf x) (hy : KeepsWf y) (hf : ∀ a, KeepsWf (f a)) :
    KeepsWf (if c then x >>= f else y >>= f) := keepsWf_ite (keepsWf_bind hx hf) (keepsWf_bind hy hf)

/-- A stop under a condition, and what follows where it is not met. -/
theorem keepsWf_unless {c : Prop} [Decidable c] {x : DmaM α} {f : α → DmaM β} {y : DmaM β} (hx : KeepsWf x) (hf : ∀ a, KeepsWf (f a))
    (hy : KeepsWf y) : KeepsWf (if c then x >>= f else y) := keepsWf_ite (keepsWf_bind hx hf) hy

/-- A check that stops the transfer, and what follows where it does not. -/
theorem keepsWf_guard {c : Prop} [Decidable c] {status detail : Nat} {f : Unit → DmaM β} (hf : ∀ u, KeepsWf (f u)) :
    KeepsWf (if c then dmaStop status detail >>= f else f ()) := keepsWf_unless (keepsWf_dmaStop _ _) hf (hf ())

theorem keepsWf_dmaFail (q : Asker) (st : Nat) : KeepsWf (dmaFail q st : DmaM α) :=
  keepsWf_ite (keepsWf_dmaStop _ _) (keepsWf_dmaStop _ _)

theorem keepsWf_tryCatch {x : DmaM α} {f : Nat × Nat → DmaM α} (hx : KeepsWf x) (hf : ∀ e, KeepsWf (f e)) : KeepsWf (tryCatch x f) := by
  intro m h
  have hn : (x m).2.contents.wf = true := hx m h
  simp only [tryCatch, tryCatchThe, MonadExceptOf.tryCatch, ExceptT.tryCatch, ExceptT.run, ExceptT.mk, bind, StateT.bind]
  rcases e : x m with ⟨_ | _, n⟩ <;> rw [e] at hn
  · exact hf _ _ hn
  · exact hn

theorem keepsWf_forIn {f : α → β → DmaM (ForInStep β)} (hf : ∀ a b, KeepsWf (f a b)) (l : List α) (b : β) : KeepsWf (forIn l b f) := by
  induction l generalizing b with
  | nil => exact keepsWf_pure b
  | cons a l ih =>
    rw [List.forIn_cons]
    refine keepsWf_bind (hf a b) fun r => ?_
    cases r with
    | done b => exact keepsWf_pure b
    | yield b => exact ih b

theorem keepsWf_mapM {f : α → DmaM β} (hf : ∀ a, KeepsWf (f a)) (l : List α) : KeepsWf (l.mapM f) := by
  induction l with
  | nil => exact keepsWf_pure []
  | cons a l ih =>
    rw [List.mapM_cons]
    exact keepsWf_bind (hf a) fun b => keepsWf_bind ih fun t => keepsWf_pure _

theorem keepsWf_discard {x : DmaM α} (hx : KeepsWf x) : KeepsWf (discard x) := keepsWf_bind hx fun _ => keepsWf_pure _
end KeepsWf

theorem keepsWf_dmaRead (q : Asker) (a n : Nat) {reg : RegPort} (hreg : reg.KeepsWf) : KeepsWf (dmaRead q a n reg) := by
  refine keepsWf_get_bind fun m h => ?_
  split
  next m' st l bad e =>
  have hm' := Module.wf_of_eq e (Module.wf_readSpanBy h q hreg _ _ _)
  rw [dmaM_run_set_bind]
  exact keepsWf_ite (keepsWf_pure _) (keepsWf_dmaFail _ _) _ (by simp [hm'])

@[simp] theorem Module.wf_dmaMulti (h : m.contents.wf = true) (q : Asker) (r : McRule) (off a : Nat) (l : List Byte) (tag : Nat → Bool) :
    (m.dmaMulti q r off a l tag).1.contents.wf = true := by
  unfold Module.dmaMulti
  split
  · exact h
  · split
    · simp [h]
    · split
      · exact h
      · refine wf_foldl_fst (fun x t hx => ?_) _ (by simp [h])
        simp [hx, RegPort.keepsWf_errors]

@[simp] theorem Module.wf_dmaPut (h : m.contents.wf = true) (q : Asker) (tag : Nat → Bool) {reg : RegPort} (hreg : reg.KeepsWf)
    (fuel a : Nat) (l : List Byte) : (m.dmaPut q tag reg fuel a l).1.contents.wf = true := by
  induction fuel generalizing m a l with
  | zero => exact h
  | succ fuel ih =>
    unfold Module.dmaPut
    split
    · exact h
    · dsimp only
      split <;> simp [ih, h, hreg]

theorem keepsWf_dmaWrite (q : Asker) (a : Nat) (l : List Byte) (bad : List Nat) {reg : RegPort} (hreg : reg.KeepsWf) :
    KeepsWf (dmaWrite q a l bad reg) := by
  refine keepsWf_get_bind fun m h => ?_
  split
  next m' st e =>
  rw [dmaM_run_set_bind]
  exact keepsWf_ite (keepsWf_dmaFail _ _) (keepsWf_pure _) _ (Module.wf_of_eq e (Module.wf_dmaPut h q _ hreg _ _ _))

theorem keepsWf_walkRead (q : Asker) (a n : Nat) : KeepsWf (walkRead q a n) :=
  keepsWf_bind (keepsWf_dmaRead q a n RegPort.keepsWf_errors) fun _ => keepsWf_ite (keepsWf_pure _) (keepsWf_dmaStop _ _)

theorem keepsWf_walkWrite (q : Asker) (a n v : Nat) : KeepsWf (walkWrite q a n v) := by
  refine keepsWf_get_bind fun m h => ?_
  split
  next m' st e =>
  rw [dmaM_run_set_bind]
  exact keepsWf_ite (keepsWf_dmaFail _ _) (keepsWf_pure _) _ (Module.wf_of_eq e (Module.wf_writeSpan h q _ _ _ _))

theorem keepsWf_walkProbe (q : Asker) (l : List (Nat × Nat)) : KeepsWf (walkProbe q l) := by
  refine keepsWf_bind (keepsWf_forIn (fun x _ => keepsWf_get_bind fun m h => ?_) _ _) fun _ => keepsWf_pure _
  have hm : (m.writeProbe q x.1 x.2).1.contents.wf = true := by simp [h]
  dsimp only
  split
  · rw [dmaM_run_set_bind]
    exact keepsWf_bind (keepsWf_dmaFail _ _) (fun _ => keepsWf_pure _) _ hm
  · rw [dmaM_run_set_bind]
    exact keepsWf_pure _ _ hm

theorem keepsWf_dmaFresh : KeepsWf dmaFresh := by
  refine keepsWf_get_bind fun m h => ?_
  split
  next m' w e =>
  rw [dmaM_run_set_bind]
  exact keepsWf_pure _ _ (Module.wf_of_eq e (by simp [h]))

theorem keepsWf_refcnt (q : Asker) (p : PoolEntry) (b : Nat) : KeepsWf (refcnt q p b) :=
  keepsWf_ite (keepsWf_dmaStop _ _) (keepsWf_walkRead _ _ _)

theorem keepsWf_freeChain (q : Asker) (p : PoolEntry) (k b : Nat) : KeepsWf (freeChain q p k b) := by
  induction k generalizing b with
  | zero => exact keepsWf_pure _
  | succ k ih =>
    have next := keepsWf_bind (keepsWf_walkRead q (p.entry b + 4) 4) fun n => keepsWf_bind (ih n) fun x => keepsWf_pure (b :: x.1, x.2)
    exact keepsWf_ite (keepsWf_bind (keepsWf_dmaStop _ _) fun _ => next) next

theorem keepsWf_tablePop (q : Asker) (p : PoolEntry) (k : Nat) : KeepsWf (tablePop q p k) := by
  refine keepsWf_bind (keepsWf_dmaDo fun m h => by simp [h]) fun _ => ?_
  refine keepsWf_bind (keepsWf_walkRead _ _ _) fun free => keepsWf_ite ?_ ?_
  · exact keepsWf_bind (keepsWf_walkRead _ _ _) fun n => keepsWf_bind (keepsWf_walkWrite _ _ _ _) fun _ => keepsWf_pure _
  · refine keepsWf_bind (keepsWf_walkRead _ _ _) fun head => keepsWf_bind (keepsWf_freeChain _ _ _ _) fun got => ?_
    refine keepsWf_bind (keepsWf_walkProbe _ _) fun _ => ?_
    refine keepsWf_bind (keepsWf_forIn (fun b _ => ?_) _ _) fun _ => ?_
    · exact keepsWf_bind (keepsWf_walkWrite _ _ _ _) fun _ => keepsWf_bind keepsWf_dmaFresh fun _ =>
        keepsWf_bind (keepsWf_walkWrite _ _ _ _) fun _ => keepsWf_pure _
    · exact keepsWf_bind (keepsWf_walkWrite _ _ _ _) fun _ => keepsWf_bind (keepsWf_walkWrite _ _ _ _) fun _ => keepsWf_pure _

theorem keepsWf_refBreak (q : Asker) (p : PoolEntry) (up : Bool) (l before : List Nat) : KeepsWf (refBreak q p up l before) := by
  induction l generalizing before with
  | nil => exact keepsWf_pure _
  | cons b t ih => exact keepsWf_bind (keepsWf_refcnt _ _ _) fun n => keepsWf_ite (keepsWf_pure _) (ih _)

theorem keepsWf_refAfter (q : Asker) (p : PoolEntry) (up : Bool) (l : List Nat) : KeepsWf (refAfter q p up l) :=
  keepsWf_mapM (fun _ => keepsWf_bind (keepsWf_refcnt _ _ _) fun _ => keepsWf_pure _) _

/-- A loop of steps that end without a result keeps memory canonical if each step does. -/
theorem keepsWf_forEach {α : Type} {f : α → DmaM Unit} (hf : ∀ a, KeepsWf (f a)) (l : List α) :
    KeepsWf (forIn l PUnit.unit fun a _ => do f a; pure (.yield PUnit.unit)) :=
  keepsWf_forIn (fun a _ => keepsWf_bind (hf a) fun _ => keepsWf_pure _) l _

theorem keepsWf_tableIncref (q : Asker) (p : PoolEntry) (l : List Nat) : KeepsWf (tableIncref q p l) := by
  refine keepsWf_bind (keepsWf_dmaDo fun m h => by simp [h]) fun _ => keepsWf_bind (keepsWf_refBreak _ _ _ _ _) fun r => ?_
  cases r with
  | some b => exact keepsWf_pure _
  | none =>
    exact keepsWf_bind (keepsWf_refAfter _ _ _ _) fun plan => keepsWf_bind (keepsWf_walkProbe _ _) fun _ =>
      keepsWf_bind (keepsWf_forEach (fun _ => keepsWf_walkWrite _ _ _ _) _) fun _ => keepsWf_pure _

theorem keepsWf_decrefPlan (q : Asker) (p : PoolEntry) (l : List Nat) : KeepsWf (decrefPlan q p l) := by
  refine keepsWf_bind (keepsWf_dmaDo fun m h => by simp [h]) fun _ => keepsWf_bind (keepsWf_refBreak _ _ _ _ _) fun r => ?_
  cases r with
  | some b => exact keepsWf_pure _
  | none =>
    exact keepsWf_bind (keepsWf_refAfter _ _ _ _) fun plan => keepsWf_bind (keepsWf_walkProbe _ _) fun _ => keepsWf_pure _

theorem keepsWf_decrefDo (q : Asker) (p : PoolEntry) (plan : List (Nat × Nat)) : KeepsWf (decrefDo q p plan) := by
  refine keepsWf_iteBind (keepsWf_pure _) (keepsWf_walkRead _ _ _) fun head => ?_
  refine keepsWf_iteBind (keepsWf_pure _) (keepsWf_walkRead _ _ _) fun free => ?_
  refine keepsWf_bind (keepsWf_forEach (fun _ => keepsWf_walkWrite _ _ _ _) _) fun _ => ?_
  refine keepsWf_bind (keepsWf_forEach (fun _ => keepsWf_walkWrite _ _ _ _) _) fun _ => ?_
  exact keepsWf_ite (keepsWf_bind (keepsWf_walkWrite _ _ _ _) fun _ => keepsWf_walkWrite _ _ _ _) (keepsWf_pure _)

theorem keepsWf_tableDecref (q : Asker) (p : PoolEntry) (l : List Nat) : KeepsWf (tableDecref q p l) := by
  refine keepsWf_bind (keepsWf_decrefPlan _ _ _) fun r => ?_
  cases r with
  | error b => exact keepsWf_pure _
  | ok plan => exact keepsWf_bind (keepsWf_decrefDo _ _ _) fun _ => keepsWf_pure _

theorem keepsWf_rollRead (q : Asker) (a part : Nat) : KeepsWf (rollRead q a part) :=
  keepsWf_bind (keepsWf_dmaRead _ _ _ RegPort.keepsWf_errors) fun _ =>
    keepsWf_ite (keepsWf_dmaStop _ _) (keepsWf_ite (keepsWf_dmaStop _ _) (keepsWf_pure _))

theorem Roll.keepsWf_len (r : Roll) (q : Asker) (g : Nat) : KeepsWf (r.len q g) := keepsWf_ite (keepsWf_dmaStop _ _) (keepsWf_walkRead _ _ _)

theorem Roll.keepsWf_billet (r : Roll) (q : Asker) (p : PoolEntry) (i g : Nat) : KeepsWf (r.billet q p i g) :=
  keepsWf_bind (keepsWf_walkRead _ _ _) fun _ => keepsWf_ite (keepsWf_dmaStop _ _) (keepsWf_ite (keepsWf_dmaStop _ _) (keepsWf_pure _))

theorem keepsWf_copyPieces (q : Asker) (src dst fuel i n : Nat) : KeepsWf (copyPieces q src dst fuel i n) := by
  induction fuel generalizing i n with
  | zero => exact keepsWf_pure _
  | succ fuel ih =>
    refine keepsWf_ite (keepsWf_pure _) (keepsWf_bind (keepsWf_dmaRead _ _ _ RegPort.keepsWf_errors) fun _ => ?_)
    exact keepsWf_bind (keepsWf_dmaDo fun m h => by simp [h]) fun _ =>
      keepsWf_bind (keepsWf_dmaWrite _ _ _ _ RegPort.keepsWf_errors) fun _ => ih _ _

theorem keepsWf_dmaCopy (q : Asker) (d : Nat) : KeepsWf (dmaCopy q d) := keepsWf_copyPieces _ _ _ _ _ _

theorem keepsWf_dmaTcopy {reg : RegPort} (hreg : reg.KeepsWf) (q : Asker) (d : Nat) : KeepsWf (dmaTcopy reg q d) := by
  refine keepsWf_bind (keepsWf_forIn (fun i rows => ?_) _ _) fun rows => ?_
  · exact keepsWf_bind (keepsWf_dmaRead _ _ _ hreg) fun _ => keepsWf_pure _
  · refine keepsWf_bind (keepsWf_dmaDo fun m h => by simp [h]) fun _ => ?_
    exact keepsWf_bind (keepsWf_forIn (fun j _ => keepsWf_bind (keepsWf_dmaWrite _ _ _ _ hreg) fun _ => keepsWf_pure _) _ _) fun _ =>
      keepsWf_pure _

theorem keepsWf_dmaGather (q : Asker) (d : Nat) (p : PoolEntry) (part : Nat) : KeepsWf (dmaGather q d p part) := by
  refine keepsWf_bind (keepsWf_rollRead _ _ _) fun r => keepsWf_bind (r.keepsWf_len _ _) fun len => keepsWf_guard fun _ => ?_
  refine keepsWf_bind (keepsWf_dmaDo fun m h => by simp [h]) fun _ => ?_
  refine keepsWf_bind (keepsWf_forIn (fun blk _ => ?_) _ _) fun _ => keepsWf_dmaDo fun m h => by simp [h]
  refine keepsWf_bind (r.keepsWf_billet _ _ _ _) fun b => keepsWf_bind keepsWf_get fun m => ?_
  refine keepsWf_bind (keepsWf_dmaRead _ _ _ RegPort.keepsWf_errors) fun keys => ?_
  refine keepsWf_iteBind (keepsWf_dmaRead _ _ _ RegPort.keepsWf_errors)
    (keepsWf_forIn (fun dim _ => keepsWf_bind (keepsWf_dmaRead _ _ _ RegPort.keepsWf_errors) fun _ => keepsWf_pure _) _ _) fun vals => ?_
  refine keepsWf_bind (keepsWf_dmaDo fun m h => by simp [h]) fun _ => keepsWf_bind (keepsWf_forIn (fun slot _ => ?_) _ _) fun _ =>
    keepsWf_pure _
  refine keepsWf_bind (keepsWf_forEach (fun ch => keepsWf_dmaDo fun m h => by simp [h]) _) fun _ => ?_
  exact keepsWf_bind (keepsWf_forEach (fun dim => keepsWf_dmaDo fun m h => by simp [h]) _) fun _ => keepsWf_pure _

theorem keepsWf_appendWrite (q : Asker) (d : Nat) (p : PoolEntry) (r : Roll) (g len : Nat) (cow : Bool) (old : Nat) (popped : List Nat) :
    KeepsWf (appendWrite q d p r g len cow old popped) := by
  have write := keepsWf_walkWrite q
  refine keepsWf_bind keepsWf_get fun m => ?_
  suffices rest : ∀ u : Unit, KeepsWf _ from
    keepsWf_unless (keepsWf_copyPieces _ _ _ _ _ _) (fun _ => keepsWf_bind (keepsWf_dmaDo fun n h => by simp [h]) rest) (rest ())
  intro _
  refine keepsWf_bind (keepsWf_forIn (fun i _ => keepsWf_bind (keepsWf_forIn (fun k _ => ?_) _ _) fun _ => keepsWf_pure _) _ _) fun _ => ?_
  · refine keepsWf_get_bind fun n h => ?_
    extract_lets so
    cases e₁ : n.load' (scrKey q.src so) (p.d * p.e) with | mk m₁ x₁ =>
    have h₁ := Module.wf_of_eq e₁ (by simp [h])
    cases e₂ : m₁.load' (scrKey q.src (so + dN d * p.h * p.d * p.e)) (p.d * p.e) with | mk m₂ x₂ =>
    have h₂ := Module.wf_of_eq e₂ (by simp [h₁])
    dsimp only
    rw [e₂]
    dsimp only
    rw [dmaM_run_set_bind]
    refine keepsWf_bind (keepsWf_dmaWrite _ _ _ _ RegPort.keepsWf_errors) (fun _ => ?_) _ (by simp [h₂])
    exact keepsWf_bind (keepsWf_forEach (fun dim => keepsWf_dmaWrite _ _ _ _ RegPort.keepsWf_errors) _) fun _ => keepsWf_pure _
  · refine keepsWf_tryCatch (keepsWf_bind (keepsWf_forEach (fun _ => write _ _ _) _) fun _ => write _ _ _) fun e => ?_
    have undo := keepsWf_forEach (fun (x : Nat × Nat × Nat) =>
      keepsWf_tryCatch (write (r.entryAt (x.1 * r.g + g)) 4 x.2.2) fun _ => keepsWf_pure ())
    exact keepsWf_unless (undo _) (fun _ => keepsWf_throw e) (keepsWf_throw e)

theorem keepsWf_dmaAppend (q : Asker) (d : Nat) (p : PoolEntry) (part : Nat) : KeepsWf (dmaAppend q d p part) := by
  refine keepsWf_bind (keepsWf_rollRead _ _ _) fun r => keepsWf_bind (r.keepsWf_len _ _) fun len => ?_
  refine keepsWf_guard fun _ => keepsWf_guard fun _ => ?_
  refine keepsWf_iteBind (r.keepsWf_billet _ _ _ _) (keepsWf_pure _) fun old => ?_
  refine keepsWf_iteBind (keepsWf_refcnt _ _ _) (keepsWf_pure _) fun cnt => ?_
  refine keepsWf_iteBind (keepsWf_pure _) (keepsWf_tablePop _ _ _) fun got => ?_
  cases got with
  | none => exact keepsWf_bind (keepsWf_dmaDo fun m h => by simp [h]) fun _ => keepsWf_dmaStop _ _
  | some popped =>
    refine keepsWf_bind (keepsWf_tryCatch (keepsWf_appendWrite _ _ _ _ _ _ _ _ _) fun e => ?_) fun _ => ?_
    · exact keepsWf_unless (keepsWf_discard (keepsWf_tableDecref _ _ _)) (fun _ => keepsWf_throw e) (keepsWf_throw e)
    · exact keepsWf_ite (keepsWf_discard (keepsWf_tableDecref _ _ _)) (keepsWf_pure _)

theorem keepsWf_dmaShare (q : Asker) (d : Nat) (p : PoolEntry) (part : Nat) : KeepsWf (dmaShare q d p part) := by
  refine keepsWf_bind (keepsWf_rollRead _ _ _) fun child => keepsWf_bind (keepsWf_rollRead _ _ _) fun parent => keepsWf_guard fun _ => ?_
  refine keepsWf_bind (keepsWf_forIn (fun g _ => ?_) _ _) fun _ => keepsWf_guard fun _ => ?_
  · refine keepsWf_bind (keepsWf_walkRead _ _ _) fun lc => keepsWf_bind (keepsWf_walkRead _ _ _) fun lp => ?_
    exact keepsWf_unless (keepsWf_dmaStop _ _) (fun _ => keepsWf_pure _) (keepsWf_pure _)
  · refine keepsWf_bind (keepsWf_forIn (fun i _ => keepsWf_bind (parent.keepsWf_billet _ _ _ _) fun _ => keepsWf_pure _) _ _) fun l => ?_
    refine keepsWf_bind (keepsWf_ite (keepsWf_pure _) (keepsWf_tableIncref _ _ _)) fun r => ?_
    cases r with
    | some b => exact keepsWf_dmaStop _ _
    | none =>
      refine keepsWf_bind (keepsWf_forEach (fun _ => keepsWf_walkWrite _ _ _ _) _) fun _ => ?_
      exact keepsWf_bind (keepsWf_forEach (fun _ => keepsWf_walkWrite _ _ _ _) _) fun _ => keepsWf_pure _

theorem keepsWf_dmaRelease (q : Asker) (d : Nat) (p : PoolEntry) (part : Nat) : KeepsWf (dmaRelease q d p part) := by
  refine keepsWf_bind (keepsWf_rollRead _ _ _) fun r => keepsWf_bind (keepsWf_forIn (fun g _ => ?_) _ _) fun s => ?_
  · refine keepsWf_bind (keepsWf_walkRead _ _ _) fun len => ?_
    refine keepsWf_bind (keepsWf_forIn (fun i _ => ?_) _ _) fun _ => keepsWf_pure _
    exact keepsWf_bind (r.keepsWf_billet _ _ _ _) fun _ => keepsWf_pure _
  · refine keepsWf_bind (keepsWf_ite (keepsWf_pure _) (keepsWf_decrefPlan _ _ _)) fun plan => ?_
    cases plan with
    | error b => exact keepsWf_dmaStop _ _
    | ok plan =>
      refine keepsWf_bind (keepsWf_forEach (fun _ => keepsWf_walkWrite _ _ _ _) _) fun _ => ?_
      exact keepsWf_bind (keepsWf_forEach (fun _ => keepsWf_walkWrite _ _ _ _) _) fun _ => keepsWf_decrefDo _ _ _

@[simp] theorem Module.wf_dmaTake (h : m.contents.wf = true) (c op : Nat) {run : Module → Desc → Module}
    (hrun : ∀ n d, n.contents.wf = true → (run n d).contents.wf = true) : (m.dmaTake c op run).contents.wf = true := by
  unfold Module.dmaTake
  dsimp only
  split
  · simp [h, hrun]
  · split
    · exact h
    · split
      · exact h
      · split <;> simp [h, hrun]

theorem Module.wf_dmaLocal (h : m.contents.wf = true) (c op : Nat) {act : Asker → Nat → PoolEntry → Nat → DmaM Unit}
    (hact : ∀ q d p part, KeepsWf (act q d p part)) : (m.dmaLocal c op act).contents.wf = true := by
  refine Module.wf_dmaTake h c op fun n d hn => ?_
  dsimp only
  split
  · next m' e =>
    have hm' : m'.contents.wf = true := Module.wf_of_eq_snd e (hact _ _ _ _ n hn)
    simp [hm']
  · next m' e =>
    have hm' : m'.contents.wf = true := Module.wf_of_eq_snd e (hact _ _ _ _ n hn)
    split <;> simp [hn, hm']

@[simp] theorem Module.wf_sendPayload (h : m.contents.wf = true) (f : Sender) (unit src addr n : Nat) :
    (m.sendPayload f unit src addr n).1.contents.wf = true := by
  simp [Module.sendPayload, h]

@[simp] theorem Module.wf_copyRemote (h : m.contents.wf = true) (c : Nat) (d : Desc) : (m.copyRemote c d).contents.wf = true := by
  simp [Module.copyRemote, h]

@[simp] theorem Module.wf_rsendPayload (h : m.contents.wf = true) (c : Nat) (r : DmaRun) : (m.rsendPayload c r).contents.wf = true := by
  simp [Module.rsendPayload, h]

@[simp] theorem Module.wf_rsendSeal (h : m.contents.wf = true) (c : Nat) (r : DmaRun) : (m.rsendSeal c r).contents.wf = true := by
  simp [Module.rsendSeal, h]

@[simp] theorem Module.wf_relayLook (h : m.contents.wf = true) (c a : Nat) : (m.relayLook c a).1.contents.wf = true := by
  simp [Module.relayLook, h]

@[simp] theorem Module.wf_relayPayload (h : m.contents.wf = true) (c : Nat) (r : RelayRun) : (m.relayPayload c r).contents.wf = true := by
  simp [Module.relayPayload, h]

@[simp] theorem Module.wf_relaySeal (h : m.contents.wf = true) (c : Nat) (r : RelayRun) : (m.relaySeal c r).contents.wf = true := by
  simp [Module.relaySeal, h]

@[simp] theorem Module.wf_relayFree (h : m.contents.wf = true) (c : Nat) (r : RelayRun) : (m.relayFree c r).contents.wf = true := by
  simp [Module.relayFree, h]

@[simp] theorem Module.wf_relayTry (h : m.contents.wf = true) (c i : Nat) : (m.relayTry c i).1.contents.wf = true := by
  unfold Module.relayTry
  dsimp only
  simp [h]

@[simp] theorem Module.wf_relayAnswer (h : m.contents.wf = true) (c : Nat) (role : FabRole) (status : Nat) (data : List Byte)
    (bad : Bool) : (m.relayAnswer c role status data bad).contents.wf = true := by
  unfold Module.relayAnswer
  dsimp only
  split
  · simp [h]
  · cases role <;> simp [h]

@[simp] theorem Module.wf_fabComplete (h : m.contents.wf = true) (src tag status : Nat) (data : List Byte) (bad : Bool) :
    (m.fabComplete src tag status data bad).contents.wf = true := by
  unfold Module.fabComplete
  split
  · simp [h]
  · dsimp only
    split
    · simp [h]
    · split
      · simp [h]
      · split
        · simp [h]
        · split <;> simp [h]

@[simp] theorem Module.wf_rwaitLook (h : m.contents.wf = true) (c : Nat) (r : DmaRun) : (m.rwaitLook c r).contents.wf = true := by
  simp [Module.rwaitLook, h]

-- Access.lean
theorem Module.wf_regulated (h : m.contents.wf = true) (i : Nat) {n : Module} (hn : n.contents.wf = true) :
    (m.regulated i n).contents.wf = true := by
  rw [Module.contents_regulated]
  split
  · exact hn
  · exact h

-- Dma.lean
theorem Module.wf_tableRequest (h : m.contents.wf = true) (c : Nat) {act : Asker → PoolEntry → DmaM Unit} (hact : ∀ q p, KeepsWf (act q p)) :
    (m.tableRequest c act).contents.wf = true := by
  unfold Module.tableRequest
  split
  · exact h
  · next p _ =>
    refine Module.wf_regulated h c ?_
    split
    · next m' e =>
      have hm' : m'.contents.wf = true := Module.wf_of_eq_snd e (hact _ _ m h)
      split <;> simp [h, hm']
    · next m' e =>
      have hm' : m'.contents.wf = true := Module.wf_of_eq_snd e (hact _ _ m h)
      simp [hm']

-- Fabric.lean
@[simp] theorem Module.wf_fabReply (h : m.contents.wf = true) (x : FabMsg) (status : Nat) (data : List Byte) (poison : List Bool) :
    (m.fabReply x status data poison).contents.wf = true := by
  unfold Module.fabReply
  dsimp only
  split
  · exact h
  · split
    · simp [h]
    · split <;> simp [h]

@[simp] theorem Module.wf_reassign (h : m.contents.wf = true) (p : Nat) (x : FabMsg) : (m.reassign p x).contents.wf = true := by
  unfold Module.reassign
  split
  · simp [h]
  · split <;> simp [h]

@[simp] theorem Module.wf_dropLink (h : m.contents.wf = true) (p l : Nat) : (m.dropLink p l).contents.wf = true :=
  Module.wf_foldl (fun n x hn => Module.wf_reassign hn p x) _
    (Module.wf_foldl (fun n x hn => by simp [hn]) _ (by simp [h]))

@[simp] theorem Module.wf_twlCtlWrite (h : m.contents.wf = true) (src k : Nat) (v : Word) : (m.twlCtlWrite src k v).contents.wf = true := by
  simp [Module.twlCtlWrite, h]

@[simp] theorem Module.wf_reservedKind (h : m.contents.wf = true) (p : Nat) (u : List Byte) : (m.reservedKind p u).contents.wf = true := by
  simp [Module.reservedKind, h]

@[simp] theorem Module.wf_acceptFrame (h : m.contents.wf = true) (p l pair : Nat) (payload : List Byte) :
    (m.acceptFrame p l pair payload).contents.wf = true := by
  unfold Module.acceptFrame
  dsimp only
  rw [Module.contents_pump]
  exact Module.wf_foldl (fun n u hn => Module.wf_reservedKind hn p u) _ (by simp [h])

-- Thermal.lean
@[simp] theorem Module.wf_trip (h : m.contents.wf = true) (t : TripCause) : (m.trip t).contents.wf = true := by
  simp [Module.trip, h]

-- Clock.lean
@[simp] theorem Module.wf_lockBack (h : m.contents.wf = true) (d : Nat) : (m.lockBack d).contents.wf = true :=
  Module.wf_foldl (fun _ _ hn => Module.wf_flushReads hn _) _ (Module.wf_flushClock h)

-- Service.lean
@[simp] theorem Module.wf_service (h : m.contents.wf = true) (cmd : Nat) (inst : Byte) {f : Module → Module}
    (hf : (f m).contents.wf = true) : (m.service cmd inst f).contents.wf = true := by
  simp [Module.service, h, hf]

@[simp] theorem Module.wf_attGo (h : m.contents.wf = true) (src : Nat) : (m.attGo src).contents.wf = true := by
  rw [Module.attGo]
  split
  · exact h
  · split
    · simp [h]
    · split
      · simp [h]
      · cases e : m.readSpan askNow 2 m.attDst 32 with
        | mk n r =>
          have hn : n.contents.wf = true := Module.wf_of_eq e (by simp [h])
          dsimp only
          split <;> simp [hn]

-- RegWrite.lean
@[simp] theorem Module.wf_writePriv (h : m.contents.wf = true) (src : Nat) (r : RegId) (v : Word) :
    (m.writePriv src r v).contents.wf = true := by
  unfold Module.writePriv
  split <;> simp [h]

@[simp] theorem Module.wf_writeReg (h : m.contents.wf = true) (src : Nat) (r : RegId) (v : Word) :
    (m.writeReg src r v).contents.wf = true := by
  unfold Module.writeReg
  split <;> simp [h]

@[simp] theorem Module.wf_writeRegAt (h : m.contents.wf = true) (src a : Nat) (v : Word) : (m.writeRegAt src a v).contents.wf = true := by
  unfold Module.writeRegAt
  split <;> simp [h]

@[simp] theorem Module.wf_writeSpace (h : m.contents.wf = true) (src a : Nat) (l : List Byte) : (m.writeSpace src a l).contents.wf = true := by
  unfold Module.writeSpace
  split <;> simp [h]

-- Mesh.lean
@[simp] theorem Module.wf_serveReg (hm : m.contents.wf = true) (h : HeldReq) : (m.serveReg h).contents.wf = true := by
  unfold Module.serveReg
  split <;> simp [hm]

@[simp] theorem Module.wf_arrive (h : m.contents.wf = true) (op : Nat) (p : Packet) (s : Site) (path : List Nat) (part : Option Nat) :
    (m.arrive op p s path part).contents.wf = true := by
  unfold Module.arrive
  split <;> simp [h]

@[simp] theorem Module.wf_copyTo (h : m.contents.wf = true) (x : Retained) (t : Nat) : (m.copyTo x t).contents.wf = true := by
  simp [Module.copyTo, h]

@[simp] theorem Module.wf_mcAt (h : m.contents.wf = true) (fuel : Nat) (x : Retained) (px py input : Nat) (branches : List Nat)
    (blocked : List (Nat × Nat)) : (m.mcAt fuel x px py input branches blocked).contents.wf = true := by
  induction fuel generalizing m px py input branches with
  | zero => exact h
  | succ fuel ih =>
    unfold Module.mcAt
    dsimp only
    split
    · simp [h]
    · split
      · refine Module.wf_foldl (fun n b hn => ?_) _ (by simp [h])
        split <;> simp [ih, hn]
      · simp [h]

@[simp] theorem Module.wf_pass (h : m.contents.wf = true) (w : Waiting) (blocked : List (Nat × Nat)) :
    (m.pass w blocked).contents.wf = true := by
  unfold Module.pass
  dsimp only
  split
  · simp [h]
  · split <;> simp [h]

@[simp] theorem Module.wf_onPath (h : m.contents.wf = true) (w : Waiting) (blocked : List (Nat × Nat)) :
    (m.onPath w blocked).contents.wf = true := by
  simp [Module.onPath, h]

@[simp] theorem Module.wf_rePass (h : m.contents.wf = true) : m.rePass.contents.wf = true := by
  unfold Module.rePass
  split
  · exact h
  · exact Module.wf_foldl (fun n w hn => Module.wf_onPath hn w _) _ (by simp [h])

@[simp] theorem Module.wf_unicast (h : m.contents.wf = true) (op : Nat) (p : Packet) (s : Site) : (m.unicast op p s).contents.wf = true := by
  simp [Module.unicast, h]

@[simp] theorem Module.wf_multicast (h : m.contents.wf = true) (p : Packet) (s : Site) (r : McRule) (blocked : List (Nat × Nat)) :
    (m.multicast p s r blocked).contents.wf = true := by
  simp [Module.multicast, h]

@[simp] theorem Module.wf_retry (h : m.contents.wf = true) (n branch vc : Nat) : (m.retry n branch vc).contents.wf = true := by
  unfold Module.retry
  extract_lets l
  split
  · exact h
  · extract_lets pre post size on stuck room
    have hon : ∀ y b, y.contents.wf = true → (on y b).contents.wf = true := by
      intro y b hy
      unfold on
      dsimp only
      split <;> simp [hy]
    split
    · exact hon _ _ (by simp [h])
    · split
      · exact h
      · split
        · exact Module.wf_foldl hon _ (by simp [h])
        · simp [h]

@[simp] theorem Module.wf_launch (h : m.contents.wf = true) (op : Nat) (p : Packet) (blocked : List (Nat × Nat)) :
    (m.launch op p blocked).contents.wf = true := by
  unfold Module.launch
  dsimp only
  split
  · split <;> simp [h]
  · split <;> simp [h]

@[simp] theorem Module.wf_inject (h : m.contents.wf = true) (op : Nat) (p0 : Packet) (blocked : List (Nat × Nat)) :
    (m.inject op p0 blocked).contents.wf = true := by
  simp [Module.inject, h]

@[simp] theorem Module.wf_releaseHeld (h : m.contents.wf = true) (kind : Nat) (p : Packet) : (m.releaseHeld kind p).contents.wf = true := by
  unfold Module.releaseHeld
  dsimp only
  split <;> simp [h]

@[simp] theorem Module.wf_ucpRequest (h : m.contents.wf = true) (op : Nat) (p : Packet) (blocked : List (Nat × Nat)) :
    (m.ucpRequest op p blocked).contents.wf = true := by
  simp [Module.ucpRequest, h]

@[simp] theorem Module.wf_request (h : m.contents.wf = true) (op : Nat) (p : Packet) (blocked : List (Nat × Nat)) :
    (m.request op p blocked).contents.wf = true := by
  simp [Module.request, h]

-- Ops.lean
@[simp] theorem Module.wf_atomic (h : m.contents.wf = true) (k : Nat) (p : Packet) : (m.atomic k p).contents.wf = true := by
  simp [Module.atomic, h]

-- Tx.lean
@[simp] theorem Module.wf_txGo (h : m.contents.wf = true) (t : Tx) (k : Nat) (x : TxPiece) : (m.txGo t k x).contents.wf = true := by
  unfold Module.txGo
  dsimp only
  split
  · simp [h]
  · split <;> simp [h]

@[simp] theorem Module.wf_txPump (h : m.contents.wf = true) (which : TxKind → Bool) : (m.txPump which).contents.wf = true := by
  refine wf_foldl_fst (fun x k hx => ?_) _ h
  dsimp only
  split
  · exact hx
  · split
    · simp [hx]
    · exact hx

@[simp] theorem Module.wf_txSettle (h : m.contents.wf = true) (which : TxKind → Bool) {finish : Module → Tx → Module}
    (hf : ∀ n t, n.contents.wf = true → (finish n t).contents.wf = true) : (m.txSettle which finish).contents.wf = true :=
  Module.wf_foldl (fun n t hn => hf n t hn) _ (by simp [h])

-- FabMesh.lean
@[simp] theorem Module.wf_fabStop (h : m.contents.wf = true) (f : Option RegField) (p : Nat) (x : FabMsg) (status : Nat) :
    (m.fabStop f p x status).contents.wf = true := by
  unfold Module.fabStop
  split <;> simp [h]

@[simp] theorem Module.wf_fabTransit (h : m.contents.wf = true) (p q : Nat) (x : FabMsg) : (m.fabTransit p q x).contents.wf = true := by
  simp [Module.fabTransit, h]

@[simp] theorem Module.wf_transitNow (h : m.contents.wf = true) (p q : Nat) (x : FabMsg) : (m.transitNow p q x).contents.wf = true := by
  unfold Module.transitNow
  split
  · simp [h]
  · split <;> simp [h]

@[simp] theorem Module.wf_releaseTransit (h : m.contents.wf = true) (p v : Nat) : (m.releaseTransit p v).contents.wf = true := by
  unfold Module.releaseTransit
  split <;> simp [h]

@[simp] theorem Module.wf_retryTransit (h : m.contents.wf = true) : m.retryTransit.contents.wf = true := by
  refine Module.wf_foldl (fun n x hn => ?_) _ h
  dsimp only
  split
  · exact Module.wf_foldl (fun y _ hy => Module.wf_releaseTransit hy _ _) _ hn
  · exact hn

@[simp] theorem Module.wf_fabEnd (h : m.contents.wf = true) (t : Tx) : (m.fabEnd t).contents.wf = true := by
  unfold Module.fabEnd
  split <;> simp [h]

@[simp] theorem Module.wf_fabRun (h : m.contents.wf = true) : m.fabRun.contents.wf = true :=
  Module.wf_txSettle (Module.wf_txPump h _) _ fun _ t hn => Module.wf_fabEnd hn t

@[simp] theorem Module.wf_fabAdmit (h : m.contents.wf = true) (p : Nat) (x : FabMsg) (op : Nat) : (m.fabAdmit p x op).contents.wf = true := by
  unfold Module.fabAdmit
  dsimp only
  split <;> simp [h]

@[simp] theorem Module.wf_fabRequest (h : m.contents.wf = true) (p : Nat) (x : FabMsg) : (m.fabRequest p x).contents.wf = true := by
  unfold Module.fabRequest
  split
  · split
    · exact h
    · split
      · simp [h]
      · split
        · simp [h]
        · split <;> simp [h]
  · exact h

@[simp] theorem Module.wf_fabAnswer (h : m.contents.wf = true) (p : Nat) (x : FabMsg) : (m.fabAnswer p x).contents.wf = true := by
  unfold Module.fabAnswer
  split
  · exact h
  · split
    · simp [h]
    · split <;> simp [h]

-- Host.lean
@[simp] theorem Module.wf_hostRun (h : m.contents.wf = true) : m.hostRun.contents.wf = true :=
  Module.wf_txSettle (Module.wf_txPump h _) _ fun n t hn => by simp [hn]

@[simp] theorem Module.wf_hostRead (h : m.contents.wf = true) (f bar off n : Nat) : (m.hostRead f bar off n).contents.wf = true := by
  unfold Module.hostRead
  split
  · simp [h]
  · split
    · simp [h]
    · split
      · simp [h]
      · split <;> simp [h]

@[simp] theorem Module.wf_hostWrite (h : m.contents.wf = true) (f bar off : Nat) (l : List Byte) :
    (m.hostWrite f bar off l).contents.wf = true := by
  unfold Module.hostWrite
  split
  · exact h
  · split
    · exact h
    · split
      · simp [h]
      · split
        · simp [h]
        · split <;> simp [h]

-- Retry.lean
@[simp] theorem Parked.wf_again (h : m.contents.wf = true) (x : Parked) : (x.again m).contents.wf = true := by
  cases x <;> simp [Parked.again, h]

@[simp] theorem Module.wf_retryParked (h : m.contents.wf = true) : m.retryParked.contents.wf = true :=
  Module.wf_foldl (fun _ x hn => Parked.wf_again hn x) _ (by simp [h])

@[simp] theorem Module.wf_goOn (h : m.contents.wf = true) : m.goOn.contents.wf = true :=
  Module.wf_retryParked (Module.wf_retryTransit (Module.wf_fabRun (Module.wf_hostRun (Module.wf_rePass (by simp [h])))))

theorem RegPort.keepsWf_registers : RegPort.registers.KeepsWf where
  read h src a k := by
    dsimp only [RegPort.registers]
    split <;> simp [h, RegPort.keepsWf_errors.read]
  write h src a l := by
    dsimp only [RegPort.registers]
    split <;> simp [h, RegPort.keepsWf_errors.write]

-- Tick.lean
@[simp] theorem Module.wf_tick (h : m.contents.wf = true) : m.tick.contents.wf = true := by
  simp [Module.tick, h]

-- TODO step

end Sys2Proof.Machine
end

section
/-! SUPPORT. Every command keeps memory canonical, in the order of the dispatch. -/

namespace Sys2Proof.Machine

/-- A result leaves memory in its canonical form. -/
def Canonical (r : Res) : Prop := ∀ t : State, r = .next t → t.m.contents.wf = true

@[simp] theorem canonical_done (s : State) (m : Module) : Canonical (s.done m) ↔ m.contents.wf = true :=
  ⟨fun h => h _ rfl, fun h t e => by cases e; exact h⟩

theorem Module.wf_vecControl {m : Module} (h : m.contents.wf = true) (c op : Nat) {act : Module → Nat → Module}
    (hact : ∀ n d, n.contents.wf = true → (act n d).contents.wf = true) : (m.vecControl c op act).contents.wf = true := by
  unfold Module.vecControl
  dsimp only
  split
  · split
    · exact h
    · split
      · simp [h]
      · exact hact _ _ (by simp [h])
  · exact h

variable {s : State} (h : s.m.contents.wf = true)
include h


@[simp] theorem canonical_execRegisterWrite (req : Requester) (addr size : Nat) (value : DWord) :
    Canonical (execRegisterWrite req addr size value s) := by simp [execRegisterWrite, h]

@[simp] theorem canonical_execClockLoss (d : Domain) : Canonical (execClockLoss d s) := by simp [execClockLoss, h]

@[simp] theorem canonical_execClockLockReturn (d : Domain) : Canonical (execClockLockReturn d s) := by
  refine (canonical_done _ _).2 ?_
  split
  · exact h
  · cases d with
    | n d => dsimp only; split <;> simp [h]
    | d d => dsimp only; split <;> simp [h]
    | _ => simp [h]

@[simp] theorem canonical_execFarLockTimeout (f : FarId) : Canonical (execFarLockTimeout f s) := by simp [execFarLockTimeout, h]
@[simp] theorem canonical_execLoadModuleScope (req : Requester) : Canonical (execLoadModuleScope req s) := by simp [execLoadModuleScope, h]

@[simp] theorem canonical_execLoadPartitionScope (req : Requester) (part : PartId) : Canonical (execLoadPartitionScope req part s) := by
  simp [execLoadPartitionScope, h]

@[simp] theorem canonical_execPltStop (req : Requester) (part : PartId) : Canonical (execPltStop req part s) := by simp [execPltStop, h]
@[simp] theorem canonical_execPltRemove (req : Requester) (part : PartId) : Canonical (execPltRemove req part s) := by simp [execPltRemove, h]

@[simp] theorem canonical_execPltCmdReserved (req : Requester) (op : Fin 3) (part : PartId) : Canonical (execPltCmdReserved req op part s) := by
  simp [execPltCmdReserved, h]

@[simp] theorem canonical_execDigestVerified : Canonical (execDigestVerified s) := by
  unfold execDigestVerified
  dsimp only
  rw [canonical_done]
  split
  · exact h
  · split
    · exact h
    · split <;> simp [h]

@[simp] theorem canonical_execQuiesceDone : Canonical (execQuiesceDone s) := by
  refine (canonical_done _ _).2 ?_
  split
  · exact h
  · next l _ =>
    have drained (cs : List Nat) : (cs.foldl (fun (m : Module) c => m.drainEnd c) s.m).contents.wf = true :=
      Module.wf_foldl (fun m c hm => by simp [hm]) cs h
    split
    · exact h
    · split
      · simp [drained]
      · simp [drained]

@[simp] theorem canonical_execLoadWriteDone (failed : Option LogicDie) : Canonical (execLoadWriteDone failed s) := by
  refine (canonical_done _ _).2 ?_
  split
  · exact h
  · split
    · exact h
    · extract_lets ts cs progs words firstDie images oldPools oldRole m₁ m₂ m₃ m₄ init
      have h₂ : m₂.contents.wf = true := Module.wf_foldl (fun m c hm => Module.wf_zeroScratch hm c) _ (by simp [m₁, h])
      have h₃ : m₃.contents.wf = true := Module.wf_foldl (fun m x hm => Module.wf_put hm _ _) _ h₂
      have h₄ : m₄.contents.wf = true := by simp [m₄, h₃]
      split
      · simp [h]
      · split
        · simp [h]
        · split
          next m₅ bad e =>
          have h₅ : m₅.contents.wf = true := Module.wf_of_eq e (Module.wf_initTables h₄ init)
          split
          · exact Module.wf_loadFail (by simp [h₅]) _ _ _
          · simp [h₅]

@[simp] theorem canonical_execNop (c : CoreId) : Canonical (execNop c s) := by simp [execNop, h]
@[simp] theorem canonical_execHalt (c : CoreId) : Canonical (execHalt c s) := by simp [execHalt, h]
@[simp] theorem canonical_execHaltComplete (c : CoreId) : Canonical (execHaltComplete c s) := by simp [execHaltComplete, h]
@[simp] theorem canonical_execLi (c : CoreId) (dst : GReg) (imm : Word) : Canonical (execLi c dst imm s) := by simp [execLi, h]
@[simp] theorem canonical_execLih (c : CoreId) (dst : GReg) (imm : Word) : Canonical (execLih c dst imm s) := by simp [execLih, h]
@[simp] theorem canonical_execAdd (c : CoreId) (dst src1 src2 : GReg) (imm : Word) : Canonical (execAdd c dst src1 src2 imm s) := by simp [execAdd, h]
@[simp] theorem canonical_execSub (c : CoreId) (dst src1 src2 : GReg) : Canonical (execSub c dst src1 src2 s) := by simp [execSub, h]
@[simp] theorem canonical_execAnd (c : CoreId) (dst src1 src2 : GReg) : Canonical (execAnd c dst src1 src2 s) := by simp [execAnd, h]
@[simp] theorem canonical_execOr (c : CoreId) (dst src1 src2 : GReg) : Canonical (execOr c dst src1 src2 s) := by simp [execOr, h]
@[simp] theorem canonical_execXor (c : CoreId) (dst src1 src2 : GReg) : Canonical (execXor c dst src1 src2 s) := by simp [execXor, h]
@[simp] theorem canonical_execShl (c : CoreId) (dst src1 : GReg) (imm : Word) : Canonical (execShl c dst src1 imm s) := by simp [execShl, h]
@[simp] theorem canonical_execShr (c : CoreId) (dst src1 : GReg) (imm : Word) : Canonical (execShr c dst src1 imm s) := by simp [execShr, h]
@[simp] theorem canonical_execMul (c : CoreId) (dst src1 src2 : GReg) : Canonical (execMul c dst src1 src2 s) := by simp [execMul, h]
@[simp] theorem canonical_execLd (c : CoreId) (dst src1 : GReg) (imm : Word) : Canonical (execLd c dst src1 imm s) := by simp [execLd, h]

@[simp] theorem canonical_execSt (c : CoreId) (src1 src2 : GReg) (imm : Word) : Canonical (execSt c src1 src2 imm s) := by
  rw [execSt, canonical_done]
  refine Module.wf_fetch h c fun m k hm => ?_
  dsimp only
  split <;> simp [hm]

@[simp] theorem canonical_execBr (c : CoreId) (cond : Fin 16) (src1 src2 : GReg) (imm : Word) : Canonical (execBr c cond src1 src2 imm s) := by
  rw [execBr, canonical_done]
  refine Module.wf_fetch h c fun m k hm => ?_
  split <;> simp [hm]

@[simp] theorem canonical_execMpass (c : CoreId) (src1 : GReg) (ev : EvId) (even : Bool) : Canonical (execMpass c src1 ev even s) := by
  simp [execMpass, h]

@[simp] theorem canonical_execMcvt (c : CoreId) (src1 : GReg) (ev : EvId) (even : Bool) (imm : Word) : Canonical (execMcvt c src1 ev even imm s) := by
  simp [execMcvt, h]

@[simp] theorem canonical_execVop (c : CoreId) (src1 : GReg) (ev : EvId) (even : Bool) : Canonical (execVop c src1 ev even s) := by simp [execVop, h]
@[simp] theorem canonical_execDma (c : CoreId) (src1 : GReg) (ev : EvId) (even : Bool) : Canonical (execDma c src1 ev even s) := by simp [execDma, h]
@[simp] theorem canonical_execBop (c : CoreId) (src1 : GReg) (ev : EvId) (even : Bool) : Canonical (execBop c src1 ev even s) := by simp [execBop, h]
@[simp] theorem canonical_execAtn (c : CoreId) (src1 : GReg) : Canonical (execAtn c src1 s) := by simp [execAtn, h]
@[simp] theorem canonical_execWait (c : CoreId) (src1 : GReg) (ev : EvId) : Canonical (execWait c src1 ev s) := by simp [execWait, h]

@[simp] theorem canonical_execWaitSatisfied (c : CoreId) : Canonical (execWaitSatisfied c s) := by
  unfold execWaitSatisfied
  rw [canonical_done]
  split <;> simp [h]

@[simp] theorem canonical_execWaitTimeout (c : CoreId) : Canonical (execWaitTimeout c s) := by simp [execWaitTimeout, h]
@[simp] theorem canonical_execEvrd (c : CoreId) (dst : GReg) (ev : EvId) : Canonical (execEvrd c dst ev s) := by simp [execEvrd, h]
@[simp] theorem canonical_execTask (c : CoreId) (imm : Word) : Canonical (execTask c imm s) := by simp [execTask, h]
@[simp] theorem canonical_execDatum (c : CoreId) (dst : GReg) : Canonical (execDatum c dst s) := by simp [execDatum, h]
@[simp] theorem canonical_execReservedOpcode (c : CoreId) (word : DWord) : Canonical (execReservedOpcode c word s) := by simp [execReservedOpcode, h]

@[simp] theorem canonical_execMatrixPassStart (c : CoreId) : Canonical (execMatrixPassStart c s) := by
  refine (canonical_done _ _).2 ?_
  split
  · split
    · exact h
    · split
      · simp [h]
      · exact h
      · split
        next m₁ t e =>
        have h₁ : m₁.contents.wf = true := Module.wf_of_eq e (by split <;> simp [h])
        split
        · simp [h₁]
        · dsimp only
          split <;> simp [h₁]
  · exact h

@[simp] theorem canonical_execMatrixPassComplete (c : CoreId) : Canonical (execMatrixPassComplete c s) := by
  unfold execMatrixPassComplete
  dsimp only
  rw [canonical_done]
  split
  · exact h
  · next p _ =>
    have hm : (s.m.runPass c (mpRows p.desc.bits)).contents.wf = true := by simp [h]
    split
    · exact hm
    · split <;> simp [hm]

@[simp] theorem canonical_execMatrixRingReleaseWaitEnd (c : CoreId) : Canonical (execMatrixRingReleaseWaitEnd c s) := by
  unfold execMatrixRingReleaseWaitEnd
  rw [canonical_done]
  split <;> simp [h]

@[simp] theorem canonical_execMcvtApply (c : CoreId) : Canonical (execMcvtApply c s) := by
  refine (canonical_done _ _).2 ?_
  split
  · split <;> simp [h]
  · exact h

@[simp] theorem canonical_execVecCopy (c : CoreId) : Canonical (execVecCopy c s) := by simp [execVecCopy, h]
@[simp] theorem canonical_execVecAdd (c : CoreId) : Canonical (execVecAdd c s) := by simp [execVecAdd, h]
@[simp] theorem canonical_execVecSub (c : CoreId) : Canonical (execVecSub c s) := by simp [execVecSub, h]
@[simp] theorem canonical_execVecMul (c : CoreId) : Canonical (execVecMul c s) := by simp [execVecMul, h]
@[simp] theorem canonical_execVecFma (c : CoreId) : Canonical (execVecFma c s) := by simp [execVecFma, h]
@[simp] theorem canonical_execVecMax (c : CoreId) : Canonical (execVecMax c s) := by simp [execVecMax, h]
@[simp] theorem canonical_execVecMin (c : CoreId) : Canonical (execVecMin c s) := by simp [execVecMin, h]
@[simp] theorem canonical_execVecAbs (c : CoreId) : Canonical (execVecAbs c s) := by simp [execVecAbs, h]
@[simp] theorem canonical_execVecNeg (c : CoreId) : Canonical (execVecNeg c s) := by simp [execVecNeg, h]
@[simp] theorem canonical_execRcp (c : CoreId) : Canonical (execRcp c s) := by simp [execRcp, h]
@[simp] theorem canonical_execRsqrt (c : CoreId) : Canonical (execRsqrt c s) := by simp [execRsqrt, h]
@[simp] theorem canonical_execExp2 (c : CoreId) : Canonical (execExp2 c s) := by simp [execExp2, h]
@[simp] theorem canonical_execExpsub (c : CoreId) : Canonical (execExpsub c s) := by simp [execExpsub, h]
@[simp] theorem canonical_execSigmoid (c : CoreId) : Canonical (execSigmoid c s) := by simp [execSigmoid, h]
@[simp] theorem canonical_execSilu (c : CoreId) : Canonical (execSilu c s) := by simp [execSilu, h]
@[simp] theorem canonical_execRowmax (c : CoreId) : Canonical (execRowmax c s) := by simp [execRowmax, h]
@[simp] theorem canonical_execRowsum (c : CoreId) : Canonical (execRowsum c s) := by simp [execRowsum, h]
@[simp] theorem canonical_execRowssq (c : CoreId) : Canonical (execRowssq c s) := by simp [execRowssq, h]
@[simp] theorem canonical_execCmplt (c : CoreId) : Canonical (execCmplt c s) := by simp [execCmplt, h]
@[simp] theorem canonical_execCmple (c : CoreId) : Canonical (execCmple c s) := by simp [execCmple, h]
@[simp] theorem canonical_execCmpeq (c : CoreId) : Canonical (execCmpeq c s) := by simp [execCmpeq, h]
@[simp] theorem canonical_execCmpne (c : CoreId) : Canonical (execCmpne c s) := by simp [execCmpne, h]
@[simp] theorem canonical_execSetcvt (c : CoreId) : Canonical (execSetcvt c s) := by simp [execSetcvt, h]
@[simp] theorem canonical_execSetmask (c : CoreId) : Canonical (execSetmask c s) := by simp [execSetmask, h]
@[simp] theorem canonical_execMaskop (c : CoreId) : Canonical (execMaskop c s) := by simp [execMaskop, h]
@[simp] theorem canonical_execFmask (c : CoreId) : Canonical (execFmask c s) := by simp [execFmask, h]
@[simp] theorem canonical_execFclr (c : CoreId) : Canonical (execFclr c s) := by simp [execFclr, h]

@[simp] theorem canonical_execFstore (c : CoreId) : Canonical (execFstore c s) := by
  rw [execFstore, canonical_done]
  exact Module.wf_vecControl h c _ fun m d hm => by simp [hm]

@[simp] theorem canonical_execMonclr (c : CoreId) : Canonical (execMonclr c s) := by simp [execMonclr, h]

@[simp] theorem canonical_execMonrd (c : CoreId) : Canonical (execMonrd c s) := by
  rw [execMonrd, canonical_done]
  exact Module.wf_vecControl h c _ fun m d hm => by simp [hm]

@[simp] theorem canonical_execVecReservedOp (c : CoreId) : Canonical (execVecReservedOp c s) := by
  unfold execVecReservedOp
  rw [canonical_done]
  split <;> simp [h]

@[simp] theorem canonical_execVecDescComplete (c : CoreId) : Canonical (execVecDescComplete c s) := by simp [execVecDescComplete, h]

@[simp] theorem canonical_execVecRingRowReady (c : CoreId) : Canonical (execVecRingRowReady c s) := by
  unfold execVecRingRowReady
  rw [canonical_done]
  split <;> simp [h]

@[simp] theorem canonical_execRingShort (c : CoreId) : Canonical (execRingShort c s) := by
  unfold execRingShort
  rw [canonical_done]
  split <;> simp [h]

@[simp] theorem canonical_execAtnInit (c : CoreId) :
    Canonical (execAtnInit c s) := (canonical_done _ _).2 (Module.wf_atnStart h c _ fun m d r v hm => by simp [hm])

@[simp] theorem canonical_execAtnRescale (c : CoreId) :
    Canonical (execAtnRescale c s) := (canonical_done _ _).2 (Module.wf_atnStart h c _ fun m d r v hm => by simp [hm])

@[simp] theorem canonical_execAtnMerge (c : CoreId) :
    Canonical (execAtnMerge c s) := (canonical_done _ _).2 (Module.wf_atnStart h c _ fun m d r v hm => by simp [hm])

@[simp] theorem canonical_execAtnFinish (c : CoreId) :
    Canonical (execAtnFinish c s) := (canonical_done _ _).2 (Module.wf_atnStart h c _ fun m d r v hm => by simp [hm])

@[simp] theorem canonical_execDmaCopy (c : CoreId) : Canonical (execDmaCopy c s) := by
  refine (canonical_done _ _).2 ?_
  split
  · split
    · exact Module.wf_dmaTake h c _ fun m d hm => by simp [hm]
    · exact Module.wf_dmaLocal h c _ fun q d _ _ => keepsWf_dmaCopy q d
  · exact h

@[simp] theorem canonical_execTcopy (c : CoreId) :
    Canonical (execTcopy c s) := (canonical_done _ _).2 (Module.wf_dmaLocal h c _ fun q d _ _ => keepsWf_dmaTcopy RegPort.keepsWf_registers q d)

@[simp] theorem canonical_execGather (c : CoreId) : Canonical (execGather c s) := (canonical_done _ _).2 (Module.wf_dmaLocal h c _ keepsWf_dmaGather)
@[simp] theorem canonical_execAppend (c : CoreId) : Canonical (execAppend c s) := (canonical_done _ _).2 (Module.wf_dmaLocal h c _ keepsWf_dmaAppend)
@[simp] theorem canonical_execShare (c : CoreId) : Canonical (execShare c s) := (canonical_done _ _).2 (Module.wf_dmaLocal h c _ keepsWf_dmaShare)

@[simp] theorem canonical_execRelease (c : CoreId) :
    Canonical (execRelease c s) := (canonical_done _ _).2 (Module.wf_dmaLocal h c _ keepsWf_dmaRelease)

@[simp] theorem canonical_execRsend (c : CoreId) : Canonical (execRsend c s) := by simp [execRsend, h]

@[simp] theorem canonical_execRsendPoll (c : CoreId) : Canonical (execRsendPoll c s) := by
  unfold execRsendPoll
  rw [canonical_done]
  split <;> simp [h]

@[simp] theorem canonical_execRsendHeaderWrite (c : CoreId) : Canonical (execRsendHeaderWrite c s) := by
  unfold execRsendHeaderWrite
  rw [canonical_done]
  split <;> simp [h]

@[simp] theorem canonical_execRwait (c : CoreId) :
    Canonical (execRwait c s) := (canonical_done _ _).2 (Module.wf_dmaTake h c _ fun m d hm => by simp [hm])

@[simp] theorem canonical_execRwaitPoll (c : CoreId) : Canonical (execRwaitPoll c s) := by
  unfold execRwaitPoll
  rw [canonical_done]
  split <;> simp [h]

@[simp] theorem canonical_execRingTimeout (c : CoreId) : Canonical (execRingTimeout c s) := by
  unfold execRingTimeout
  rw [canonical_done]
  split <;> simp [h]

@[simp] theorem canonical_execRfree (c : CoreId) : Canonical (execRfree c s) := by
  rw [execRfree, canonical_done]
  refine Module.wf_dmaTake h c _ fun m d hm => ?_
  dsimp only
  split <;> simp [hm]

@[simp] theorem canonical_execDmaReservedOp (c : CoreId) : Canonical (execDmaReservedOp c s) := by
  unfold execDmaReservedOp
  rw [canonical_done]
  split <;> simp [h]

@[simp] theorem canonical_execDmaDescComplete (c : CoreId) : Canonical (execDmaDescComplete c s) := by
  refine (canonical_done _ _).2 ?_
  split
  · split
    · exact h
    · extract_lets op k m₁ m₂ m₃ m₄ m₅
      have h₁ : m₁.contents.wf = true := by simp [m₁, h]
      have h₂ : m₂.contents.wf = true := by
        clear_value m₁
        dsimp only [m₂]
        split <;> simp [h₁]
      simp [m₅, m₄, m₃, h₂]
  · exact h

@[simp] theorem canonical_execTablePop (c : CoreId) (k : Nat) :
    Canonical (execTablePop c k s) := (canonical_done _ _).2 (Module.wf_tableRequest h c fun q p => keepsWf_discard (keepsWf_tablePop q p k))

@[simp] theorem canonical_execTableIncref (c : CoreId) (billets : List Nat) :
    Canonical (execTableIncref c billets s) := (canonical_done _ _).2 (Module.wf_tableRequest h c fun q p => keepsWf_discard (keepsWf_tableIncref q p billets))

@[simp] theorem canonical_execTableDecref (c : CoreId) (billets : List Nat) :
    Canonical (execTableDecref c billets s) := (canonical_done _ _).2 (Module.wf_tableRequest h c fun q p => keepsWf_discard (keepsWf_tableDecref q p billets))

@[simp] theorem canonical_execRelayForward (c : CoreId) : Canonical (execRelayForward c s) := by
  unfold execRelayForward
  dsimp only
  rw [canonical_done]
  refine Module.wf_regulated h c ?_
  split
  · split
    · next r _ _ =>
      split <;> simp [h]
    · simp [h]
    · simp [h]
    · exact h
  · have hr := Module.wf_relayTry h c (s.m.core c).relayNext
    split
    · exact h
    · split <;> simp [hr]

@[simp] theorem canonical_execBopFill (c : CoreId) : Canonical (execBopFill c s) := by simp [execBopFill, h]
@[simp] theorem canonical_execBopCopy (c : CoreId) : Canonical (execBopCopy c s) := by simp [execBopCopy, h]
@[simp] theorem canonical_execBopAdd (c : CoreId) : Canonical (execBopAdd c s) := by simp [execBopAdd, h]
@[simp] theorem canonical_execBopSub (c : CoreId) : Canonical (execBopSub c s) := by simp [execBopSub, h]
@[simp] theorem canonical_execBopMul (c : CoreId) : Canonical (execBopMul c s) := by simp [execBopMul, h]
@[simp] theorem canonical_execBopFma (c : CoreId) : Canonical (execBopFma c s) := by simp [execBopFma, h]
@[simp] theorem canonical_execAxpy (c : CoreId) : Canonical (execAxpy c s) := by simp [execAxpy, h]
@[simp] theorem canonical_execAffine (c : CoreId) : Canonical (execAffine c s) := by simp [execAffine, h]
@[simp] theorem canonical_execAct (c : CoreId) : Canonical (execAct c s) := by simp [execAct, h]
@[simp] theorem canonical_execLoadtab (c : CoreId) : Canonical (execLoadtab c s) := by simp [execLoadtab, h]

@[simp] theorem canonical_execBopReservedOp (c : CoreId) : Canonical (execBopReservedOp c s) := by
  unfold execBopReservedOp
  rw [canonical_done]
  split <;> simp [h]

@[simp] theorem canonical_execBopCleanDone (sl : CoreId) : Canonical (execBopCleanDone sl s) := by
  unfold execBopCleanDone
  dsimp only
  rw [canonical_done]
  split
  · split
    · exact h
    · split
      · simp [h]
      · simp [Module.wf_foldl (fun m w hm => m.memWf_writeBack hm w _) _ h]
  · exact h

@[simp] theorem canonical_execPageStepEnd (sl : CoreId) (bank : BankId) : Canonical (execPageStepEnd sl bank s) := by simp [execPageStepEnd, h]
@[simp] theorem canonical_execBopComplete (sl : CoreId) : Canonical (execBopComplete sl s) := by simp [execBopComplete, h]
@[simp] theorem canonical_execRefresh (sl : CoreId) (bank : BankId) : Canonical (execRefresh sl bank s) := by simp [execRefresh, h]

@[simp] theorem canonical_execPageRecompute (sl : CoreId) (page : Fin 327680) : Canonical (execPageRecompute sl page s) := by
  simp [execPageRecompute, h]

@[simp] theorem canonical_execSlowPathBegin (u : Fin 24) : Canonical (execSlowPathBegin u s) := by simp [execSlowPathBegin, h]

@[simp] theorem canonical_execSlowPathDone (u : Fin 24) : Canonical (execSlowPathDone u s) := by
  unfold execSlowPathDone
  rw [canonical_done]
  split <;> simp [h]

@[simp] theorem canonical_execFmcRetrain (f : FarId) : Canonical (execFmcRetrain f s) := by simp [execFmcRetrain, h]
@[simp] theorem canonical_execFmcRetrainDone (f : FarId) (ok : Bool) : Canonical (execFmcRetrainDone f ok s) := by simp [execFmcRetrainDone, h]
@[simp] theorem canonical_execFmcIsolate (req : Requester) (f : FarId) : Canonical (execFmcIsolate req f s) := by simp [execFmcIsolate, h]

@[simp] theorem canonical_execScrubScan (req : Requester) (d : LogicDie) (kind : Fin 4) (unit fare : Byte) :
    Canonical (execScrubScan req d kind unit fare s) := by simp [execScrubScan, h]

@[simp] theorem canonical_execScrubRepair (req : Requester) (d : LogicDie) (kind : Fin 4) (unit fare : Byte) :
    Canonical (execScrubRepair req d kind unit fare s) := by simp [execScrubRepair, h]

@[simp] theorem canonical_execScrubAbort (req : Requester) (d : LogicDie) : Canonical (execScrubAbort req d s) := by simp [execScrubAbort, h]

@[simp] theorem canonical_execScrubPage (d : LogicDie) : Canonical (execScrubPage d s) := by
  unfold execScrubPage
  rw [canonical_done]
  split <;> simp [h]

@[simp] theorem canonical_execScrubDone (d : LogicDie) : Canonical (execScrubDone d s) := by
  refine (canonical_done _ _).2 ?_
  -- the write is kept abstract: the kernel would otherwise evaluate it to compare two forms of the match on its result
  obtain ⟨write, hwrite⟩ : ∃ f, f = s.m.writeSpan askOstler (fun _ => false) 6 := ⟨_, rfl⟩
  have hw (a : Nat) (l : List Byte) : (write a l).1.contents.wf = true := by simp [hwrite, h]
  rw [← hwrite]
  split
  · exact h
  · split
    · exact h
    · extract_lets sum
      split
      next m₁ st e =>
      have h₁ : m₁.contents.wf = true := Module.wf_of_eq e (hw _ _)
      split
      · simp [h]
      · exact Module.wf_regulated h _ (by simp [h₁])

@[simp] theorem canonical_execFieldRepair (req : Requester) (d : LogicDie) (kind : Fin 4) (unit : Byte) :
    Canonical (execFieldRepair req d kind unit s) := by simp [execFieldRepair, h]

@[simp] theorem canonical_execFieldRepairCopyDone (d : LogicDie) : Canonical (execFieldRepairCopyDone d s) := by
  refine (canonical_done _ _).2 ?_
  split
  · exact h
  · extract_lets u page pending f m₁ m₂
    have h₁ : m₁.contents.wf = true := Module.wf_recheck (by simp [h]) _ _
    split
    · exact h
    · exact Module.wf_deliverAll (by simp [m₂, h₁]) _

@[simp] theorem canonical_execFieldRepairDone (d : LogicDie) (fuseOk : Bool) : Canonical (execFieldRepairDone d fuseOk s) := by
  unfold execFieldRepairDone
  rw [canonical_done]
  split <;> simp [h]

@[simp] theorem canonical_execMeshRead (p : Packet) : Canonical (execMeshRead p s) := by simp [execMeshRead, h]
@[simp] theorem canonical_execMeshWrite (p : Packet) : Canonical (execMeshWrite p s) := by simp [execMeshWrite, h]
@[simp] theorem canonical_execPwrite (p : Packet) : Canonical (execPwrite p s) := by simp [execPwrite, h]
@[simp] theorem canonical_execAtomicSwap (p : Packet) : Canonical (execAtomicSwap p s) := by simp [execAtomicSwap, h]
@[simp] theorem canonical_execAtomicCas (p : Packet) : Canonical (execAtomicCas p s) := by simp [execAtomicCas, h]
@[simp] theorem canonical_execAtomicAdd (p : Packet) : Canonical (execAtomicAdd p s) := by simp [execAtomicAdd, h]
@[simp] theorem canonical_execAtomicAnd (p : Packet) : Canonical (execAtomicAnd p s) := by simp [execAtomicAnd, h]
@[simp] theorem canonical_execAtomicOr (p : Packet) : Canonical (execAtomicOr p s) := by simp [execAtomicOr, h]
@[simp] theorem canonical_execAtomicXor (p : Packet) : Canonical (execAtomicXor p s) := by simp [execAtomicXor, h]
@[simp] theorem canonical_execSmax (p : Packet) : Canonical (execSmax p s) := by simp [execSmax, h]
@[simp] theorem canonical_execSmin (p : Packet) : Canonical (execSmin p s) := by simp [execSmin, h]
@[simp] theorem canonical_execUmax (p : Packet) : Canonical (execUmax p s) := by simp [execUmax, h]
@[simp] theorem canonical_execUmin (p : Packet) : Canonical (execUmin p s) := by simp [execUmin, h]
@[simp] theorem canonical_execFadd (p : Packet) : Canonical (execFadd p s) := by simp [execFadd, h]
@[simp] theorem canonical_execAtomicReserved (p : Packet) (_op : Fin 5) : Canonical (execAtomicReserved p _op s) := by simp [execAtomicReserved, h]
@[simp] theorem canonical_execMwrite (p : Packet) (blocked : List (CoreId × Fin 3)) : Canonical (execMwrite p blocked s) := by simp [execMwrite, h]

@[simp] theorem canonical_execRdata (src : Requester) (tag : Nat) : Canonical (execRdata src tag s) := by
  unfold execRdata
  rw [canonical_done]
  split <;> simp [h]

@[simp] theorem canonical_execWack (src : Requester) (tag : Nat) (target : CoreId) : Canonical (execWack src tag target s) := by
  refine (canonical_done _ _).2 ?_
  split
  · split
    · exact h
    · split <;> simp [h]
  · split
    · exact h
    · split <;> simp [h]

@[simp] theorem canonical_execRequestTimeout (src : Requester) (tag : Nat) : Canonical (execRequestTimeout src tag s) := by
  unfold execRequestTimeout
  rw [canonical_done]
  split <;> simp [h]

@[simp] theorem canonical_execDrainEnd (c : CoreId) : Canonical (execDrainEnd c s) := by simp [execDrainEnd, h]
@[simp] theorem canonical_execRetentionRetry (b : Branch) : Canonical (execRetentionRetry b s) := by simp [execRetentionRetry, h]
@[simp] theorem canonical_execRouteCondApply (link : Fin 6) : Canonical (execRouteCondApply link s) := by simp [execRouteCondApply, h]
@[simp] theorem canonical_execCsend (c : CoreId) (src1 : GReg) (imm : Word) : Canonical (execCsend c src1 imm s) := by simp [execCsend, h]

@[simp] theorem canonical_execCsendp (c : CoreId) (src1 src2 : GReg) (imm : Word) : Canonical (execCsendp c src1 src2 imm s) := by
  simp [execCsendp, h]

@[simp] theorem canonical_execCsendh (c : CoreId) (src1 : GReg) (imm : Word) : Canonical (execCsendh c src1 imm s) := by simp [execCsendh, h]

@[simp] theorem canonical_execCsendhp (c : CoreId) (src1 src2 : GReg) (imm : Word) : Canonical (execCsendhp c src1 src2 imm s) := by
  simp [execCsendhp, h]

@[simp] theorem canonical_execCrecv (c : CoreId) (dst : GReg) : Canonical (execCrecv c dst s) := by
  rw [execCrecv, canonical_done]
  refine Module.wf_fetch h c fun m k hm => ?_
  split
  · simp [hm]
  · split <;> simp [hm]

@[simp] theorem canonical_execCrecvResume (c : CoreId) : Canonical (execCrecvResume c s) := by
  unfold execCrecvResume
  rw [canonical_done]
  split <;> simp [h]

@[simp] theorem canonical_execCpoll (c : CoreId) (dst : GReg) : Canonical (execCpoll c dst s) := by
  rw [execCpoll, canonical_done]
  refine Module.wf_fetch h c fun m k hm => ?_
  split
  · simp [hm]
  · split <;> simp [hm]

@[simp] theorem canonical_execCcount (c : CoreId) (dst : GReg) : Canonical (execCcount c dst s) := by simp [execCcount, h]

@[simp] theorem canonical_execControlMessageArrive (st : Fin 577) (c0 : Bool) : Canonical (execControlMessageArrive st c0 s) := by
  refine (canonical_done _ _).2 ?_
  split
  · exact h
  · split
    · exact h
    · split
      · simp [h]
      · split <;> simp [h]

@[simp] theorem canonical_execFaultNotice : Canonical (execFaultNotice s) := by
  unfold execFaultNotice
  rw [canonical_done]
  split <;> simp [h]

@[simp] theorem canonical_execRegulatorRelease (kind : Fin 5) (p : Packet) (port : Option PortId) :
    Canonical (execRegulatorRelease kind p port s) := by
  unfold execRegulatorRelease
  rw [canonical_done]
  split <;> simp [h]

@[simp] theorem canonical_execTargetWindow (t : Fin 597) : Canonical (execTargetWindow t s) := by simp [execTargetWindow, h]

@[simp] theorem canonical_execQosHubsrcWrite (req : Requester) (r : Fin 11) (cfg : Bool) (value : Word) :
    Canonical (execQosHubsrcWrite req r cfg value s) := by simp [execQosHubsrcWrite, h]

@[simp] theorem canonical_execQosSumsRecomputed : Canonical (execQosSumsRecomputed s) := by simp [execQosSumsRecomputed, h]

@[simp] theorem canonical_execConfigRequest (f : FnId) (reg : ConfigReg) (write : Option Nat) : Canonical (execConfigRequest f reg write s) := by
  refine (canonical_done _ _).2 ?_
  split
  · simp [h]
  · split
    · simp [h]
    · split <;> simp [h]

@[simp] theorem canonical_execHostRead (f : FnId) (bar : Fin 6) (off : Nat) (len : Fin 4096) : Canonical (execHostRead f bar off len s) := by
  simp [execHostRead, h]

@[simp] theorem canonical_execHostWrite (f : FnId) (bar : Fin 6) (off : Nat) (data : List Byte) : Canonical (execHostWrite f bar off data s) := by
  simp [execHostWrite, h]

@[simp] theorem canonical_execHostAtomicop (f : FnId) (_bar : Fin 6) (_off : Nat) : Canonical (execHostAtomicop f _bar _off s) := by
  simp [execHostAtomicop, h]

@[simp] theorem canonical_execFunctionLevelReset (f : FnId) : Canonical (execFunctionLevelReset f s) := by simp [execFunctionLevelReset, h]
@[simp] theorem canonical_execVfEnableClear : Canonical (execVfEnableClear s) := by simp [execVfEnableClear, h]
@[simp] theorem canonical_execHostLinkReset : Canonical (execHostLinkReset s) := by simp [execHostLinkReset, h]
@[simp] theorem canonical_execBar2Resize (f : FnId) (k : Fin 16) : Canonical (execBar2Resize f k s) := by simp [execBar2Resize, h]

@[simp] theorem canonical_execArqAppend (f : FnId) (q : QueueId) (off : Fin 16384) (data : List Byte) : Canonical (execArqAppend f q off data s) := by
  simp [execArqAppend, h]

@[simp] theorem canonical_execArqCommit (f : FnId) (q : QueueId) (off : Fin 16384) (data : List Byte) : Canonical (execArqCommit f q off data s) := by
  simp [execArqCommit, h]

@[simp] theorem canonical_execArqAbort (req : Requester) (q : QueueId) (value : Word) : Canonical (execArqAbort req q value s) := by
  simp [execArqAbort, h]

@[simp] theorem canonical_execQtake (c : CoreId) (dst src1 src2 : GReg) (imm : Word) : Canonical (execQtake c dst src1 src2 imm s) := by
  simp [execQtake, h]

@[simp] theorem canonical_execQtakew (c : CoreId) (dst src1 src2 : GReg) (imm : Word) : Canonical (execQtakew c dst src1 src2 imm s) := by
  simp [execQtakew, h]

@[simp] theorem canonical_execQtakewResume (c : CoreId) : Canonical (execQtakewResume c s) := by
  unfold execQtakewResume
  rw [canonical_done]
  split <;> simp [h]

@[simp] theorem canonical_execQput (c : CoreId) (dst src1 src2 : GReg) (imm : Word) : Canonical (execQput c dst src1 src2 imm s) := by
  simp [execQput, h]

@[simp] theorem canonical_execQputw (c : CoreId) (dst src1 src2 : GReg) (imm : Word) : Canonical (execQputw c dst src1 src2 imm s) := by
  simp [execQputw, h]

@[simp] theorem canonical_execQputwResume (c : CoreId) : Canonical (execQputwResume c s) := by
  unfold execQputwResume
  rw [canonical_done]
  split <;> simp [h]

@[simp] theorem canonical_execQcount (c : CoreId) (dst src1 : GReg) (imm : Word) : Canonical (execQcount c dst src1 imm s) := by simp [execQcount, h]

@[simp] theorem canonical_execQueueReservedOp (c : CoreId) (word : DWord) : Canonical (execQueueReservedOp c word s) := by
  simp [execQueueReservedOp, h]

@[simp] theorem canonical_execDpqRead (f : FnId) (q : QueueId) (off : Fin 16384) (len : Fin 4096) : Canonical (execDpqRead f q off len s) := by
  simp [execDpqRead, h]

@[simp] theorem canonical_execDpqPop (req : Requester) (q : QueueId) (value : Word) : Canonical (execDpqPop req q value s) := by simp [execDpqPop, h]
@[simp] theorem canonical_execMirrorSample (f : FnId) (busy : Bool) : Canonical (execMirrorSample f busy s) := by simp [execMirrorSample, h]
@[simp] theorem canonical_execLinkTrainStart (p : PortId) (l : LinkIdx) : Canonical (execLinkTrainStart p l s) := by simp [execLinkTrainStart, h]

@[simp] theorem canonical_execLinkTrainDone (p : PortId) (l : LinkIdx) (width : Fin 3) : Canonical (execLinkTrainDone p l width s) := by
  simp [execLinkTrainDone, h]

@[simp] theorem canonical_execLinkTrainTimeout (p : PortId) (l : LinkIdx) : Canonical (execLinkTrainTimeout p l s) := by
  simp [execLinkTrainTimeout, h]

@[simp] theorem canonical_execLinkRetrain (p : PortId) (l : LinkIdx) (cause : Fin 3) : Canonical (execLinkRetrain p l cause s) := by
  simp [execLinkRetrain, h]

@[simp] theorem canonical_execTwlRetrain (req : Requester) (p : PortId) (l : LinkIdx) : Canonical (execTwlRetrain req p l s) := by
  simp [execTwlRetrain, h]

@[simp] theorem canonical_execTwlDisable (req : Requester) (p : PortId) (l : LinkIdx) (value : Bool) :
    Canonical (execTwlDisable req p l value s) := by simp [execTwlDisable, h]

@[simp] theorem canonical_execDataFrame (p : FramePort) (l : LinkIdx) (payload : List Byte) (head : BitVec 15) (back : BitVec 17) (crc : BitVec 24) (wrong : List Nat) :
    Canonical (execDataFrame p l payload head back crc wrong s) := by simp [execDataFrame, h]

@[simp] theorem canonical_execIdleFrame (p : FramePort) (l : LinkIdx) (payload : List Byte) (back : BitVec 17) (crc : BitVec 24) (wrong : List Nat) :
    Canonical (execIdleFrame p l payload back crc wrong s) := by simp [execIdleFrame, h]

@[simp] theorem canonical_execReplay (p : FramePort) (l : Arrival) (frm : Fin 1024) : Canonical (execReplay p l frm s) := by simp [execReplay, h]
@[simp] theorem canonical_execReplayTimeout (p : FramePort) (l : LinkIdx) : Canonical (execReplayTimeout p l s) := by simp [execReplayTimeout, h]

@[simp] theorem canonical_execHello (p : PortId) (l : Arrival) (unit : BitVec 16) (nport : Fin 8) (fecWant : Bool) (dstate : Fin 8) (master : BitVec 16) (mhops : Byte) (ready : Bool) :
    Canonical (execHello p l unit nport fecWant dstate master mhops ready s) := by simp [execHello, h]

@[simp] theorem canonical_execHelloSend (p : PortId) : Canonical (execHelloSend p s) := by simp [execHelloSend, h]
@[simp] theorem canonical_execNeighbourTimeout (p : PortId) : Canonical (execNeighbourTimeout p s) := by simp [execNeighbourTimeout, h]

@[simp] theorem canonical_execVector (p : PortId) (l : Arrival) (src : VectorPart) (dist : List Byte) : Canonical (execVector p l src dist s) := by
  simp [execVector, h]

@[simp] theorem canonical_execVectorSend (p : PortId) : Canonical (execVectorSend p s) := by
  unfold execVectorSend
  rw [canonical_done]
  split <;> simp [h]

@[simp] theorem canonical_execDistanceExpiry (p : PortId) (idx : Fin 512) : Canonical (execDistanceExpiry p idx s) := by simp [execDistanceExpiry, h]
@[simp] theorem canonical_execFread (port : PortId) (x : FabPacket) : Canonical (execFread port x s) := by simp [execFread, h]
@[simp] theorem canonical_execFwrite (port : PortId) (x : FabPacket) : Canonical (execFwrite port x s) := by simp [execFwrite, h]
@[simp] theorem canonical_execFpwrite (port : PortId) (x : FabPacket) : Canonical (execFpwrite port x s) := by simp [execFpwrite, h]
@[simp] theorem canonical_execFatomic (port : PortId) (x : FabPacket) : Canonical (execFatomic port x s) := by simp [execFatomic, h]
@[simp] theorem canonical_execFrdata (port : PortId) (x : FabPacket) : Canonical (execFrdata port x s) := by simp [execFrdata, h]
@[simp] theorem canonical_execFwack (port : PortId) (x : FabPacket) : Canonical (execFwack port x s) := by simp [execFwack, h]
@[simp] theorem canonical_execFabricTimeout (src : CoreId) (tag : Nat) : Canonical (execFabricTimeout src tag s) := by simp [execFabricTimeout, h]
@[simp] theorem canonical_execSurveyCheck : Canonical (execSurveyCheck s) := by simp [execSurveyCheck, h]
@[simp] theorem canonical_execPortConditionChange (p : PortId) : Canonical (execPortConditionChange p s) := by simp [execPortConditionChange, h]
@[simp] theorem canonical_execPortRecover (p : PortId) : Canonical (execPortRecover p s) := by simp [execPortRecover, h]

@[simp] theorem canonical_execDatumExchange (p : PortId) : Canonical (execDatumExchange p s) := by
  unfold execDatumExchange
  rw [canonical_done]
  split <;> simp [h]

@[simp] theorem canonical_execDreq (p : PortId) (l : Arrival) (seq : BitVec 16) (t1 : DWord) : Canonical (execDreq p l seq t1 s) := by
  simp [execDreq, h]

@[simp] theorem canonical_execDrsp (p : PortId) (l : Arrival) (seq : BitVec 16) (t1' : DWord) (turn : Turn) :
    Canonical (execDrsp p l seq t1' turn s) := by
  unfold execDrsp
  dsimp only
  rw [canonical_done]
  have hm := h
  rw [← Module.contents_frameIn s.m p l.link (arrivalWord l) (drspBytes seq.toNat t1'.toNat turn.t2.toNat turn.t3.toNat)] at hm
  generalize s.m.frameIn p l.link _ _ = x at hm ⊢
  split
  · exact hm
  · split <;> simp [hm]

@[simp] theorem canonical_execDrspTimeout (p : PortId) : Canonical (execDrspTimeout p s) := by simp [execDrspTimeout, h]

@[simp] theorem canonical_execLaneParityThreshold (st : Fin 12) (group : Fin 80) : Canonical (execLaneParityThreshold st group s) := by
  simp [execLaneParityThreshold, h]

@[simp] theorem canonical_execLaneTestDone (link : Fin 6) (bad : Fin 1024) : Canonical (execLaneTestDone link bad s) := by simp [execLaneTestDone, h]

@[simp] theorem canonical_execDtdTrainDone (link : Fin 6) (bad : List LaneId) : Canonical (execDtdTrainDone link bad s) := by
  simp [execDtdTrainDone, h]

@[simp] theorem canonical_execDtdTrainTimeout (link : Fin 6) : Canonical (execDtdTrainTimeout link s) := by simp [execDtdTrainTimeout, h]
@[simp] theorem canonical_execDtdReplays (st : Fin 12) : Canonical (execDtdReplays st s) := by simp [execDtdReplays, h]
@[simp] theorem canonical_execDtdRetrain (req : Requester) (st : Fin 12) : Canonical (execDtdRetrain req st s) := by simp [execDtdRetrain, h]

@[simp] theorem canonical_execDtdDisable (req : Requester) (st : Fin 12) (on : Bool) : Canonical (execDtdDisable req st on s) := by
  simp [execDtdDisable, h]

@[simp] theorem canonical_execLinkDownPartitionStop (link : Fin 6) : Canonical (execLinkDownPartitionStop link s) := by
  refine (canonical_done _ _).2 ?_
  split
  · exact h
  · split <;> simp [h]

@[simp] theorem canonical_execUcpTrainStart : Canonical (execUcpTrainStart s) := by simp [execUcpTrainStart, h]

@[simp] theorem canonical_execUcpTrainDone (modules : Fin 3) (x8 : Bool) (rate : Fin 6) : Canonical (execUcpTrainDone modules x8 rate s) := by
  simp [execUcpTrainDone, h]

@[simp] theorem canonical_execUcpTrainTimeout : Canonical (execUcpTrainTimeout s) := by simp [execUcpTrainTimeout, h]

@[simp] theorem canonical_execIdent (vendor product : BitVec 16) (revision windowLog2 : Byte) (capacity : BitVec 16) (flags : Byte) :
    Canonical (execIdent vendor product revision windowLog2 capacity flags s) := by simp [execIdent, h]

@[simp] theorem canonical_execIdentTimeout : Canonical (execIdentTimeout s) := by simp [execIdentTimeout, h]
@[simp] theorem canonical_execUcpDown (replays : Bool) : Canonical (execUcpDown replays s) := by simp [execUcpDown, h]
@[simp] theorem canonical_execUcpRetrain (req : Requester) : Canonical (execUcpRetrain req s) := by simp [execUcpRetrain, h]
@[simp] theorem canonical_execUcpDisable (req : Requester) (on : Bool) : Canonical (execUcpDisable req on s) := by simp [execUcpDisable, h]

@[simp] theorem canonical_execCompanionRequest (kind : Fin 256) (atop : Fin 32) (p : Packet) : Canonical (execCompanionRequest kind atop p s) := by
  refine (canonical_done _ _).2 ?_
  split
  · exact h
  · split
    · simp [h]
    · split <;> simp [h]

@[simp] theorem canonical_execIdcode (d : DieId) : Canonical (execIdcode d s) := by simp [execIdcode, h]
@[simp] theorem canonical_execSample (d : DieId) : Canonical (execSample d s) := by simp [execSample, h]
@[simp] theorem canonical_execPreload (d : DieId) : Canonical (execPreload d s) := by simp [execPreload, h]
@[simp] theorem canonical_execExtest (d : DieId) : Canonical (execExtest d s) := by simp [execExtest, h]
@[simp] theorem canonical_execClamp (d : DieId) : Canonical (execClamp d s) := by simp [execClamp, h]
@[simp] theorem canonical_execHighz (d : DieId) : Canonical (execHighz d s) := by simp [execHighz, h]
@[simp] theorem canonical_execIjtagRo (d : DieId) : Canonical (execIjtagRo d s) := by simp [execIjtagRo, h]
@[simp] theorem canonical_execIjtag (d : DieId) : Canonical (execIjtag d s) := by simp [execIjtag, h]
@[simp] theorem canonical_execBypass (d : DieId) (code : Byte) : Canonical (execBypass d code s) := by simp [execBypass, h]
@[simp] theorem canonical_execPowerGood : Canonical (execPowerGood s) := by simp [execPowerGood, h]
@[simp] theorem canonical_execBootVerify : Canonical (execBootVerify s) := by simp [execBootVerify, h]
@[simp] theorem canonical_execExchangePhase (flashOk : Bool) : Canonical (execExchangePhase flashOk s) := by simp [execExchangePhase, h]
@[simp] theorem canonical_execFusesRead : Canonical (execFusesRead s) := by simp [execFusesRead, h]

@[simp] theorem canonical_execLocalMachineDone (d : LogicDie) (machine : Fin 6) (failed : List Nat) :
    Canonical (execLocalMachineDone d machine failed s) := by
  refine (canonical_done _ _).2 ?_
  split
  · exact h
  · simp
    split <;> simp [h]

@[simp] theorem canonical_execFloorplanPublish : Canonical (execFloorplanPublish s) := by simp [execFloorplanPublish, h]

@[simp] theorem canonical_execModuleReset (req : Requester) (cold : Bool) (key : BitVec 16) : Canonical (execModuleReset req cold key s) := by
  simp [execModuleReset, h]

@[simp] theorem canonical_execFastPathStepDone (ok : Bool) : Canonical (execFastPathStepDone ok s) := by
  refine (canonical_done _ _).2 ?_
  split
  · exact h
  · split
    · simp [h]
    · split <;> simp [h]

@[simp] theorem canonical_execCoreReset (req : Requester) (c : CoreId) : Canonical (execCoreReset req c s) := by simp [execCoreReset, h]
@[simp] theorem canonical_execFence (req : Requester) (c : CoreId) : Canonical (execFence req c s) := by simp [execFence, h]
@[simp] theorem canonical_execFenceLend (req : Requester) (c : CoreId) : Canonical (execFenceLend req c s) := by simp [execFenceLend, h]
@[simp] theorem canonical_execUnfence (req : Requester) (c : CoreId) : Canonical (execUnfence req c s) := by simp [execUnfence, h]

@[simp] theorem canonical_execSelftest (req : Requester) (c : CoreId) (tCore tSlice lend : Bool) :
    Canonical (execSelftest req c tCore tSlice lend s) := by simp [execSelftest, h]

@[simp] theorem canonical_execRstCmdReserved (req : Requester) (c : CoreId) (value : Word) : Canonical (execRstCmdReserved req c value s) := by
  simp [execRstCmdReserved, h]

@[simp] theorem canonical_execClusterReset (req : Requester) (d : LogicDie) (cluster : Fin 36) : Canonical (execClusterReset req d cluster s) := by
  simp [execClusterReset, h]

@[simp] theorem canonical_execClusterFence (req : Requester) (d : LogicDie) (cluster : Fin 36) : Canonical (execClusterFence req d cluster s) := by
  simp [execClusterFence, h]

@[simp] theorem canonical_execClusterUnfence (req : Requester) (d : LogicDie) (cluster : Fin 36) :
    Canonical (execClusterUnfence req d cluster s) := by simp [execClusterUnfence, h]

@[simp] theorem canonical_execClusterSelftest (req : Requester) (d : LogicDie) (cluster : Fin 36) (tCore tSlice : Bool) :
    Canonical (execClusterSelftest req d cluster tCore tSlice s) := by simp [execClusterSelftest, h]

@[simp] theorem canonical_execRstClCmdReserved (req : Requester) (d : LogicDie) (value : Word) : Canonical (execRstClCmdReserved req d value s) := by
  simp [execRstClCmdReserved, h]

@[simp] theorem canonical_execPartitionReset (req : Requester) (part : PartId) : Canonical (execPartitionReset req part s) := by
  simp [execPartitionReset, h]

@[simp] theorem canonical_execRstPartCmdReserved (req : Requester) (value : Word) : Canonical (execRstPartCmdReserved req value s) := by
  simp [execRstPartCmdReserved, h]

@[simp] theorem canonical_execResetDrainDone (u : RstUnit) : Canonical (execResetDrainDone u s) := by
  refine (canonical_done _ _).2 ?_
  split
  · exact h
  · next r _ =>
    have hd := Module.wf_foldl (f := fun (m : Module) c => m.drainEnd c) (fun m c hm => by simp [hm]) r.cores h
    have hf := Module.wf_foldl (f := fun (m : Module) c => m.fencePos c (if r.op = 3 then 2 else 1) .fence) (fun m c hm => by simp [hm]) r.cores hd
    split
    · exact h
    · split <;> simp [hd, hf]

@[simp] theorem canonical_execResetRelease (u : RstUnit) : Canonical (execResetRelease u s) := by
  unfold execResetRelease
  rw [canonical_done]
  split <;> simp [h]

@[simp] theorem canonical_execSelftestDone (c : CoreId) (coreFails sliceFails : Bool) : Canonical (execSelftestDone c coreFails sliceFails s) := by
  unfold execSelftestDone
  rw [canonical_done]
  split <;> simp [h]

@[simp] theorem canonical_execHeldCommandResume (u : RstUnit) : Canonical (execHeldCommandResume u s) := by
  unfold execHeldCommandResume
  rw [canonical_done]
  split <;> simp [h]

@[simp] theorem canonical_execForcedFence (c : CoreId) : Canonical (execForcedFence c s) := by
  refine (canonical_done _ _).2 ?_
  split
  · exact h
  · have hf : (((s.m.holdCores [c.val]).drainEnd c).fencePos c 5 .forced).contents.wf = true := Module.wf_fencePos (by simp [h]) _ _ _
    simp [hf]

@[simp] theorem canonical_execHousekeepingRound (logic : List (List (BitVec 16))) (hub : List (BitVec 16)) (shorts : List (DieId × Fin 70)) :
    Canonical (execHousekeepingRound logic hub shorts s) := by
  refine (canonical_done _ _).2 ?_
  obtain ⟨m, hm⟩ : ∃ m, m = s.m.roundRead logic hub shorts := ⟨_, rfl⟩
  obtain ⟨throttle, hthrottle⟩ : ∃ f, f = Module.throttle := ⟨_, rfl⟩
  have h₁ : m.contents.wf = true := by simp [hm, h]
  have ht (n : Module) (d : Nat) : (throttle n d).1.contents = n.contents := by simp [hthrottle]
  rw [← hm, ← hthrottle]
  split
  · exact h
  · extract_lets m'
    split
    · simp [m', h₁]
    · split
      next m₂ risen e =>
      have h₂ : m₂.contents.wf = true := Module.wf_of_eq e (wf_foldl_fst (fun x d hx => by simp [ht, hx]) _ h₁)
      simp [h₂]

@[simp] theorem canonical_execComparatorTrip (station : DieId) (channel : Fin 70) : Canonical (execComparatorTrip station channel s) := by
  simp [execComparatorTrip, h]

@[simp] theorem canonical_execThermalRecordWritten : Canonical (execThermalRecordWritten s) := by
  unfold execThermalRecordWritten
  rw [canonical_done]
  split <;> simp [h]

@[simp] theorem canonical_execLifetimeWrite : Canonical (execLifetimeWrite s) := by simp [execLifetimeWrite, h]
@[simp] theorem canonical_execFreeze (req : Requester) : Canonical (execFreeze req s) := by simp [execFreeze, h]
@[simp] theorem canonical_execThaw (req : Requester) : Canonical (execThaw req s) := by simp [execThaw, h]
@[simp] theorem canonical_execFreezeAt (req : Requester) : Canonical (execFreezeAt req s) := by simp [execFreezeAt, h]
@[simp] theorem canonical_execDisarm (req : Requester) : Canonical (execDisarm req s) := by simp [execDisarm, h]

@[simp] theorem canonical_execFrzCmdReserved (req : Requester) (op : Fin 3) : Canonical (execFrzCmdReserved req op s) := by
  simp [execFrzCmdReserved, h]

@[simp] theorem canonical_execScheduledFreeze : Canonical (execScheduledFreeze s) := by simp [execScheduledFreeze, h]
@[simp] theorem canonical_execSampleInstant (busy : Bool) : Canonical (execSampleInstant busy s) := by simp [execSampleInstant, h]

@[simp] theorem canonical_execFieldbookRecord (d : DieId) : Canonical (execFieldbookRecord d s) := by
  unfold execFieldbookRecord
  rw [canonical_done]
  split <;> simp [h]

@[simp] theorem canonical_execGap (d : DieId) : Canonical (execGap d s) := by
  unfold execGap
  rw [canonical_done]
  split <;> simp [h]

@[simp] theorem canonical_execArm (req : Requester) : Canonical (execArm req s) := by simp [execArm, h]
@[simp] theorem canonical_execTrigger (req : Requester) : Canonical (execTrigger req s) := by simp [execTrigger, h]
@[simp] theorem canonical_execTriggerAt (req : Requester) : Canonical (execTriggerAt req s) := by simp [execTriggerAt, h]
@[simp] theorem canonical_execScheduledTrigger : Canonical (execScheduledTrigger s) := by simp [execScheduledTrigger, h]
@[simp] theorem canonical_execStop (req : Requester) : Canonical (execStop req s) := by simp [execStop, h]
@[simp] theorem canonical_execDump (req : Requester) (store : Fin 8) : Canonical (execDump req store s) := by simp [execDump, h]

@[simp] theorem canonical_execDumpDone : Canonical (execDumpDone s) := by
  unfold execDumpDone
  rw [canonical_done]
  split <;> simp [h]

@[simp] theorem canonical_execFbkCmdReserved (req : Requester) (op : Fin 2) : Canonical (execFbkCmdReserved req op s) := by
  simp [execFbkCmdReserved, h]

@[simp] theorem canonical_execMark (req : Requester) (value : Word) : Canonical (execMark req value s) := by simp [execMark, h]
@[simp] theorem canonical_execEntdaa (addr : BitVec 7) : Canonical (execEntdaa addr s) := by simp [execEntdaa, h]
@[simp] theorem canonical_execSetdasa (static : BitVec 7) (addr : BitVec 7) : Canonical (execSetdasa static addr s) := by simp [execSetdasa, h]
@[simp] theorem canonical_execSetEndpointId (op : Fin 4) (eid : Byte) : Canonical (execSetEndpointId op eid s) := by simp [execSetEndpointId, h]
@[simp] theorem canonical_execGetEndpointId : Canonical (execGetEndpointId s) := by simp [execGetEndpointId, h]

@[simp] theorem canonical_execGetMctpVersionSupport (msgType : Byte) : Canonical (execGetMctpVersionSupport msgType s) := by
  simp [execGetMctpVersionSupport, h]

@[simp] theorem canonical_execGetMessageTypeSupport : Canonical (execGetMessageTypeSupport s) := by simp [execGetMessageTypeSupport, h]

@[simp] theorem canonical_execGetVendorDefinedSupport (selector : Byte) : Canonical (execGetVendorDefinedSupport selector s) := by
  simp [execGetVendorDefinedSupport, h]

@[simp] theorem canonical_execGetInfo (inst : Byte) : Canonical (execGetInfo inst s) := by simp [execGetInfo, h]

@[simp] theorem canonical_execStageBegin (inst : Byte) (length version : Word) : Canonical (execStageBegin inst length version s) := by
  rw [execStageBegin, canonical_done]
  refine Module.wf_service h _ _ ?_
  split <;> simp [h]

@[simp] theorem canonical_execStageData (inst : Byte) (offset : Word) (data : List Byte) (flashOk : Bool) :
    Canonical (execStageData inst offset data flashOk s) := by
  unfold execStageData
  dsimp only
  rw [canonical_done]
  refine Module.wf_service h _ _ ?_
  split
  · simp [h]
  · split <;> simp [h]

@[simp] theorem canonical_execStageEnd (inst : Byte) (digest : List Byte) : Canonical (execStageEnd inst digest s) := by
  rw [execStageEnd, canonical_done]
  refine Module.wf_service h _ _ ?_
  split
  · simp [h]
  · split <;> simp [h]

@[simp] theorem canonical_execStageCancel (inst : Byte) : Canonical (execStageCancel inst s) := by simp [execStageCancel, h]

@[simp] theorem canonical_execRollback (inst : Byte) : Canonical (execRollback inst s) := by
  rw [execRollback, canonical_done]
  refine Module.wf_service h _ _ ?_
  split <;> simp [h]

@[simp] theorem canonical_execReadLedger (inst : Byte) (type rsvd : Byte) (index : BitVec 16) :
    Canonical (execReadLedger inst type rsvd index s) := by
  unfold execReadLedger
  dsimp only
  rw [canonical_done]
  refine Module.wf_service h _ _ ?_
  split
  · simp [h]
  · split
    · simp [h]
    · split <;> simp [h]

@[simp] theorem canonical_execReadObject (inst : Byte) (object : Byte) (rsvd : BitVec 24) (offset length : Word) :
    Canonical (execReadObject inst object rsvd offset length s) := by
  unfold execReadObject
  dsimp only
  rw [canonical_done]
  refine Module.wf_service h _ _ ?_
  split
  · simp [h]
  · split
    · simp [h]
    · split <;> simp [h]

@[simp] theorem canonical_execAttest (inst : Byte) (nonce : List Byte) : Canonical (execAttest inst nonce s) := by simp [execAttest, h]

@[simp] theorem canonical_execRestart (inst : Byte) (mode : Byte) (rsvd : BitVec 24) : Canonical (execRestart inst mode rsvd s) := by
  refine (canonical_done _ _).2 ?_
  split
  · exact h
  · split
    · simp [h]
    · split <;> simp [h]

@[simp] theorem canonical_execServiceReservedCommand (inst : Byte) (cmd : Fin 128) : Canonical (execServiceReservedCommand inst cmd s) := by
  simp [execServiceReservedCommand, h]

@[simp] theorem canonical_execLedgerAppend (ok : Bool) : Canonical (execLedgerAppend ok s) := by
  unfold execLedgerAppend
  rw [canonical_done]
  split <;> simp [h]

@[simp] theorem canonical_execLedgerCompact : Canonical (execLedgerCompact s) := by simp [execLedgerCompact, h]

@[simp] theorem canonical_execFwuOwnerWrite (req : Requester) (value : Word) : Canonical (execFwuOwnerWrite req value s) := by
  simp [execFwuOwnerWrite, h]

@[simp] theorem canonical_execOwnerLockValid : Canonical (execOwnerLockValid s) := by simp [execOwnerLockValid, h]
@[simp] theorem canonical_execAttGo (req : Requester) : Canonical (execAttGo req s) := by simp [execAttGo, h]

@[simp] theorem canonical_execAttestDone : Canonical (execAttestDone s) := by
  unfold execAttestDone
  rw [canonical_done]
  split <;> simp [h]

@[simp] theorem canonical_execPowerLoss : Canonical (execPowerLoss s) := by simp [execPowerLoss, h]

@[simp] theorem canonical_execSeatingInterlockChange (isOpen : Bool) : Canonical (execSeatingInterlockChange isOpen s) := by
  simp [execSeatingInterlockChange, h]

@[simp] theorem canonical_execLedgerCompactionDone : Canonical (execLedgerCompactionDone s) := by simp [execLedgerCompactionDone, h]

end Sys2Proof.Machine
end

section
namespace Sys2Proof.Machine

/-- Each command hands its operands to one function, and each of these keeps memory canonical. -/
theorem canonical_exec {s : State} (h : s.m.contents.wf = true) (i : Instr) : Canonical (exec i s) := by
  cases i <;> simp [exec, h]

theorem canonical_step {s : State} (h : s.memWf) : Canonical (step s) := by
  unfold step
  split
  · exact fun _ e => by cases e; exact Module.wf_tick h
  · next c rest _ => exact canonical_exec (s := { s with pending := rest }) h c

end Sys2Proof.Machine
end

section
/-! R33, R296: the canonical form of memory. -/

namespace Sys2Proof.Proofs

open Sys2Proof.Machine

/-- Settles O59: a step is a tick or one command, and both are made of operations that keep the canonical form. -/
theorem memoryStaysCanonical : Obligations.MemoryStaysCanonical := fun _ t h e => canonical_step h t e

end Sys2Proof.Proofs
end

section
/-! SUPPORT. What the handling of clocks leaves of the domains that lost their lock, of the cores and of what is held for a clock. -/

namespace Sys2Proof.Machine

variable (m : Module)

/-- The fields of the hub that a settling writes. -/
def settleFields : List RegField := [F.BRG_MOD_STS_STAGE, F.BRG_MOD_STS_READY, F.BRG_MOD_STS_REASON, F.BRG_MOD_TIME_MS]

/-- What a settling writes: registers, event state and the records of the floorplan; a field that all of these leave is left. -/
theorem Module.settle_frame {α : Type} (g : Module → α) (hwr : ∀ (n : Module), ∀ f ∈ settleFields, ∀ v, g (n.wr f 4 v) = g n)
    (hevent : ∀ (n : Module) (e : Nat), g (n.event 0 e) = g n)
    (hbump : ∀ (n : Module) (cause : FpCause) (core old new unit : Nat), g (n.flpBump cause core old new unit) = g n)
    (old : Module) (cause : FpCause) (unit : Nat) : g (m.settle old cause unit) = g m := by
  have hstage (n : Module) (k : Nat) : g (n.setStage k) = g n := by
    unfold Module.setStage
    split
    · rfl
    · rw [hwr _ _ (by decide), hwr _ _ (by decide)]
  have hready (n : Module) : g n.evalReady = g n := by
    unfold Module.evalReady
    extract_lets r was now m₁ m₂
    have h₁ : g m₁ = g n := by rw [hwr _ _ (by decide), hwr _ _ (by decide)]
    have h₂ : g m₂ = g n := by
      unfold m₂
      split
      · rw [hstage, h₁]
      · split
        · rw [hstage, h₁]
        · exact h₁
    split
    · exact h₂
    · rw [hevent, h₂]
  rw [Module.settle, hready, Module.flpNote]
  split
  · exact hbump ..
  · rfl

@[simp] theorem Module.settle_lockLost (old : Module) (cause : FpCause) (unit : Nat) : (m.settle old cause unit).lockLost = m.lockLost :=
  m.settle_frame Module.lockLost (by simp) (by simp) (by simp [Module.flpBump, Module.issueRec]) old cause unit

@[simp] theorem Module.settle_cores (old : Module) (cause : FpCause) (unit : Nat) : (m.settle old cause unit).cores = m.cores :=
  m.settle_frame Module.cores (by simp) (by simp) (by simp [Module.flpBump, Module.issueRec]) old cause unit

@[simp] theorem Module.settle_slices (old : Module) (cause : FpCause) (unit : Nat) : (m.settle old cause unit).slices = m.slices :=
  m.settle_frame Module.slices (by simp) (by simp) (by simp [Module.flpBump, Module.issueRec]) old cause unit

@[simp] theorem Module.settle_fars (old : Module) (cause : FpCause) (unit : Nat) : (m.settle old cause unit).fars = m.fars :=
  m.settle_frame Module.fars (by simp) (by simp) (by simp [Module.flpBump, Module.issueRec]) old cause unit

theorem Module.event_clkHeld (f e : Nat) : (m.event f e).clkHeld = m.clkHeld := by
  have hfire (n : Module) : (n.fireMsix f e).clkHeld = n.clkHeld := by
    unfold Module.fireMsix
    dsimp only
    split
    · rfl
    · split <;> rfl
  unfold Module.event
  split
  · rfl
  · exact hfire _

@[simp] theorem Module.settle_clkHeld (old : Module) (cause : FpCause) (unit : Nat) : (m.settle old cause unit).clkHeld = m.clkHeld :=
  m.settle_frame Module.clkHeld (fun _ _ _ _ => rfl) (fun n e => n.event_clkHeld 0 e) (fun _ _ _ _ _ _ => Module.event_clkHeld _ _ _) old cause unit

@[simp] theorem Module.datMove_lockLost (new : Nat) : (m.datMove new).lockLost = m.lockLost := by
  simp [Module.datMove, Module.hubRecord, apply_ite Module.lockLost]

@[simp] theorem Module.datMove_cores (new : Nat) : (m.datMove new).cores = m.cores := by
  simp [Module.datMove, Module.hubRecord, apply_ite Module.cores]

@[simp] theorem Module.noSource_lockLost : m.noSource.lockLost = m.lockLost := by simp [Module.noSource]
@[simp] theorem Module.noSource_cores : m.noSource.cores = m.cores := by simp [Module.noSource]
@[simp] theorem Module.follow_lockLost (p : Nat) : (m.follow p).lockLost = m.lockLost := by simp [Module.follow]
@[simp] theorem Module.follow_cores (p : Nat) : (m.follow p).cores = m.cores := by simp [Module.follow]
@[simp] theorem Module.takeSource_lockLost (p : Nat) : (m.takeSource p).lockLost = m.lockLost := by simp [Module.takeSource]
@[simp] theorem Module.takeSource_cores (p : Nat) : (m.takeSource p).cores = m.cores := by simp [Module.takeSource]

@[simp] theorem Module.reselect_lockLost : m.reselect.lockLost = m.lockLost := by
  unfold Module.reselect
  dsimp only
  split
  · rfl
  · split
    · split <;> simp
    · split
      · simp
      · split
        · split <;> simp
        · simp

@[simp] theorem Module.reselect_cores : m.reselect.cores = m.cores := by
  unfold Module.reselect
  dsimp only
  split
  · rfl
  · split
    · split <;> simp
    · split
      · simp
      · split
        · split <;> simp
        · simp

@[simp] theorem Module.applyRole_lockLost (changed : Bool) : (m.applyRole changed).lockLost = m.lockLost := by
  cases changed <;> simp [Module.applyRole, apply_ite Module.lockLost]

@[simp] theorem Module.applyRole_cores (changed : Bool) : (m.applyRole changed).cores = m.cores := by
  cases changed <;> simp [Module.applyRole, apply_ite Module.cores]

@[simp] theorem Module.portCount_lockLost (p : Nat) : (m.portCount p).lockLost = m.lockLost := by
  simp [Module.portCount, apply_ite Module.lockLost]

@[simp] theorem Module.portCount_cores (p : Nat) : (m.portCount p).cores = m.cores := by
  simp [Module.portCount, apply_ite Module.cores]

@[simp] theorem Module.noteClock_lockLost (d : Domain) : (m.noteClock d).lockLost = m.lockLost := by cases d <;> simp [Module.noteClock]
@[simp] theorem Module.noteClock_cores (d : Domain) : (m.noteClock d).cores = m.cores := by cases d <;> simp [Module.noteClock]

@[simp] theorem Module.stopDie_lockLost (d : Nat) : (m.stopDie d).lockLost = m.lockLost :=
  Module.foldl_frame Module.lockLost _ (fun _ _ => by simp) _ _

@[simp] theorem Module.noteFlits_lockLost (path : List Nat) (vc n : Nat) : (m.noteFlits path vc n).lockLost = m.lockLost := by
  simp [Module.noteFlits]

@[simp] theorem Module.respond_lockLost (r : Resp) : (m.respond r).lockLost = m.lockLost := by
  simp [Module.respond, apply_ite Module.lockLost]

@[simp] theorem Module.answer_lockLost (h : HeldReq) (status : Nat) (data : List Byte) (poison : List Bool) :
    (m.answer h status data poison).lockLost = m.lockLost := by
  simp [Module.answer, Module.txResult, apply_ite Module.lockLost]

@[simp] theorem Module.loseWaits_lockLost (l : Nat) : (m.loseWaits l).lockLost = m.lockLost := by
  refine Module.foldl_frame Module.lockLost _ (fun n w => ?_) _ _
  dsimp only
  split
  · simp
  · exact Module.foldl_frame Module.lockLost _ (fun _ _ => by simp) _ _

theorem Module.setD2d_lockLost (l st : Nat) : (m.setD2d l st).lockLost = m.lockLost := by
  unfold Module.setD2d
  extract_lets old carries net m₁ m₂
  split
  · rfl
  · have h₁ : m₁.lockLost = m.lockLost := by
      unfold m₁
      split <;> simp
    have h₂ : m₂.lockLost = m₁.lockLost := Module.foldl_frame Module.lockLost _ (fun _ _ => by simp) _ _
    simp [h₂, h₁]

@[simp] theorem Module.d2dRetrain_lockLost (l : Nat) : (m.d2dRetrain l).lockLost = m.lockLost := by
  unfold Module.d2dRetrain
  split
  · rw [Module.setD2d_lockLost]
    exact Module.foldl_frame Module.lockLost _ (fun _ _ => by simp) _ _
  · rfl

theorem Module.leaveUp_lockLost : m.leaveUp.lockLost = m.lockLost := by
  unfold Module.leaveUp
  dsimp only
  rw [Module.foldl_frame Module.lockLost _ (fun _ _ => by simp)]
  simp [Module.setLink]

@[simp] theorem Module.setUcp_lockLost (st : Nat) : (m.setUcp st).lockLost = m.lockLost := by
  simp [Module.setUcp, Module.leaveUp_lockLost, apply_ite Module.lockLost]

theorem Module.resetPage_lockLost (f : Nat) : (m.resetPage f).lockLost = m.lockLost :=
  Module.foldl_frame Module.lockLost _ (fun _ _ => Module.foldl_frame Module.lockLost _ (fun _ _ => by simp) _ _) _ _

theorem Module.onQueues_lockLost (map : Nat) {f : Module → Nat → Module} (hf : ∀ n q, (f n q).lockLost = n.lockLost) :
    (m.onQueues map f).lockLost = m.lockLost := Module.foldl_frame Module.lockLost f hf _ m

@[simp] theorem Module.setArq_lockLost (q : Nat) (x : ArQueue) : (m.setArq q x).lockLost = m.lockLost := rfl

theorem Module.flrOne_lockLost (f : Nat) : (m.flrOne f).lockLost = m.lockLost := by
  rw [Module.flrOne, Module.onQueues_lockLost _ _ fun n q => n.setArq_lockLost q _, Module.setFn_lockLost, Module.resetPage_lockLost]

theorem Module.flrVfs_lockLost : m.flrVfs.lockLost = m.lockLost :=
  Module.foldl_frame Module.lockLost _ (fun _ _ => Module.flrOne_lockLost _ _) _ _

@[simp] theorem Module.flr_lockLost (f : Nat) : (m.flr f).lockLost = m.lockLost := by
  unfold Module.flr
  split
  · rw [Module.foldl_frame Module.lockLost _ (fun n i => n.setFn_lockLost i _), Module.flrVfs_lockLost, Module.flrOne_lockLost]
  · exact Module.flrOne_lockLost _ _

end Sys2Proof.Machine
end

section
/-! SUPPORT. The stop of a die: its cores take the clock-loss fault one after another, and nothing that follows changes a fault code. -/

namespace Sys2Proof.Machine

variable (m : Module)

/-- A write of a field leaves the fields of other registers. -/
theorem Module.rd_wr_reg {f g : RegField} {u v i j : Nat} (x : Nat) (hf : f.lo + f.width ≤ 32) (hu : u < 1024) (hv : v < 1024) (hi : i < 2048)
    (hj : j < 2048) (h : g.reg ≠ f.reg) : (m.wr f u x i).rd g v j = m.rd g v j :=
  m.rd_wr_ne x hf hu hv hi hj (.inl fun e => h e.1)

/-- The fault code of a core. -/
def Module.faultCode (c : Nat) : Nat := m.rd F.SEQ_FAULT_CODE c

variable {m} {c : Nat} (hc : c < 1024)
include hc

theorem Module.faultCode_wr {f : RegField} {u : Nat} (x : Nat) (hf : f.lo + f.width ≤ 32) (hu : u < 1024) (h : Reg.SEQ_FAULT ≠ f.reg) :
    (m.wr f u x).faultCode c = m.faultCode c := m.rd_wr_reg x hf hu hc (by decide) (by decide) h

theorem Module.faultCode_record (die type : Nat) (k : SrcKind) (unit a0 a1 a2 : Nat) (hd : die < 1024) :
    (m.record die type k unit a0 a1 a2).faultCode c = m.faultCode c := by
  unfold Module.record
  dsimp only
  split
  · rfl
  · exact Module.faultCode_wr hc _ (by decide) hd (by decide)

theorem Module.faultCode_pushCtl (d : Nat) (x : CtlMsg) : (m.pushCtl d x).faultCode c = m.faultCode c := by
  unfold Module.pushCtl
  extract_lets s m₁
  have h₁ : m₁.faultCode c = m.faultCode c := by
    unfold m₁
    split
    · exact Module.faultCode_wr hc _ (by decide) (by omega) (by decide)
    · rfl
  split <;> exact h₁

theorem Module.faultCode_event (f e : Nat) (hf : f < 1024) : (m.event f e).faultCode c = m.faultCode c := by
  have hfire (n : Module) : (n.fireMsix f e).faultCode c = n.faultCode c := by
    unfold Module.fireMsix
    dsimp only
    split
    · rfl
    · split <;> rfl
  unfold Module.event
  split
  · rfl
  · rw [hfire]
    exact Module.faultCode_wr hc _ (by decide) hf (by decide)

theorem Module.faultCode_settle (old : Module) (cause : FpCause) (unit : Nat) : (m.settle old cause unit).faultCode c = m.faultCode c := by
  refine m.settle_frame (fun n => n.faultCode c) (fun n f hf v => ?_) (fun n e => Module.faultCode_event hc 0 e (by decide))
    (fun n _ _ _ _ _ => Module.faultCode_event hc 0 7 (by decide)) old cause unit
  simp only [settleFields, List.mem_cons, List.not_mem_nil, or_false] at hf
  rcases hf with rfl | rfl | rfl | rfl <;> exact Module.faultCode_wr hc v (by decide) (by decide) (by decide)

omit hc

theorem Module.faultCode_setCore (d : Nat) (k : Core) : (m.setCore d k).faultCode c = m.faultCode c := rfl

/-- A core that does not run takes no fault. -/
theorem Module.coreFault_halted {d : Nat} (h : (m.core d).st ≠ .running ∧ (m.core d).st ≠ .waiting) (fault engine sts : Nat) (pc : DWord) :
    m.coreFault d fault engine sts pc = m := by
  unfold Module.coreFault
  exact if_pos h

theorem Module.core_pushCtl (d : Nat) (x : CtlMsg) (e : Nat) : (m.pushCtl d x).core e = m.core e := by simp [Module.core]

theorem Module.core_coreFault_ne {d : Nat} (h : c ≠ d) (fault engine sts : Nat) (pc : DWord) :
    (m.coreFault d fault engine sts pc).core c = m.core c := by
  unfold Module.coreFault
  dsimp only
  split
  · rfl
  · rw [Module.core_pushCtl, Module.core_setCoreSt, if_neg h, Module.core_setCore_ne _ h]
    simp [Module.core]

theorem Module.core_coreFault_self (h : (m.core c).st = .running ∨ (m.core c).st = .waiting) (fault engine sts : Nat) (pc : DWord) :
    ((m.coreFault c fault engine sts pc).core c).st = .faulted := by
  unfold Module.coreFault
  dsimp only
  rw [if_neg (by rcases h with h | h <;> simp [h]), Module.core_pushCtl, Module.core_setCoreSt, if_pos rfl]

include hc

theorem Module.faultCode_setCoreSt {d : Nat} (hd : d < 1024) (st : CoreSt) (fault : Nat) : (m.setCoreSt d st fault).faultCode c = m.faultCode c :=
  Module.faultCode_record hc _ _ _ _ _ _ _ (by unfold coreDie; omega)

theorem Module.faultCode_coreFault_ne {d : Nat} (hd : d < 1024) (h : c ≠ d) (fault engine sts : Nat) (pc : DWord) :
    (m.coreFault d fault engine sts pc).faultCode c = m.faultCode c := by
  have other (n : Module) (f : RegField) (hf : f.lo + f.width ≤ 32) (v : Nat) : (n.wr f d v).faultCode c = n.faultCode c :=
    n.rd_wr_ne v hf hd hc (by decide) (by decide) (.inl fun e => h e.2.1)
  unfold Module.coreFault
  dsimp only
  split
  · rfl
  · rw [Module.faultCode_pushCtl hc, Module.faultCode_setCoreSt hc hd]
    rw [Module.faultCode_setCore, other _ _ (by decide), other _ _ (by decide), other _ _ (by decide), other _ _ (by decide)]

theorem Module.faultCode_coreFault_self (h : (m.core c).st = .running ∨ (m.core c).st = .waiting) (fault engine sts : Nat) (pc : DWord) :
    (m.coreFault c fault engine sts pc).faultCode c = fault % 256 := by
  unfold Module.coreFault
  dsimp only
  rw [if_neg (by rcases h with h | h <;> simp [h]), Module.faultCode_pushCtl hc, Module.faultCode_setCoreSt hc hc]
  rw [Module.faultCode_setCore, Module.faultCode_wr hc _ (by decide) hc (by decide)]
  have field (n : Module) (f : RegField) (hf : f.lo + f.width ≤ 32) (v : Nat) (hlo : 8 ≤ f.lo) : (n.wr f c v).faultCode c = n.faultCode c :=
    n.rd_wr_ne v hf hc hc (by decide) (by decide) (.inr (.inl hlo))
  rw [field _ _ (by decide) _ (by decide), field _ _ (by decide) _ (by decide)]
  exact m.rd_wr_self F.SEQ_FAULT_CODE c fault 0 (by decide)

/-- A core has stopped with the clock-loss fault. -/
def Module.clockStopped (m : Module) (c : Nat) : Prop := (m.core c).st = .faulted ∧ m.faultCode c = Flt.clockLoss

/-- A later fault of any core leaves one that has stopped. -/
theorem Module.clockStopped_coreFault (h : m.clockStopped c) {d : Nat} (hd : d < 1024) (fault engine sts : Nat) (pc : DWord) :
    (m.coreFault d fault engine sts pc).clockStopped c := by
  obtain ⟨hst, hcode⟩ := h
  by_cases e : c = d
  · subst e
    rw [Module.coreFault_halted (by simp [hst])]
    exact ⟨hst, hcode⟩
  · exact ⟨by rw [Module.core_coreFault_ne e, hst], by rw [Module.faultCode_coreFault_ne hc hd e, hcode]⟩

omit hc

/-- One core of a die after another takes the clock-loss fault. -/
def Module.stopCores (m : Module) (b : Nat) (l : List Nat) : Module :=
  l.foldl (fun (m : Module) i => m.coreFault (b + i) Flt.clockLoss 0 0 (m.core (b + i)).lastPc) m

theorem Module.stopDie_eq (d : Nat) : m.stopDie d = m.stopCores (144 * d) (List.range 144) := rfl

theorem Module.clockStopped_stopCores {b i : Nat} {l : List Nat} (hl : ∀ j ∈ l, b + j < 1024) (hi : b + i < 1024)
    (h : m.clockStopped (b + i) ∨ (i ∈ l ∧ ((m.core (b + i)).st = .running ∨ (m.core (b + i)).st = .waiting))) :
    (m.stopCores b l).clockStopped (b + i) := by
  induction l generalizing m with
  | nil => exact h.resolve_right (by simp)
  | cons j l ih =>
    refine ih (fun k hk => hl k (List.mem_cons_of_mem _ hk)) ?_
    rcases h with h | ⟨hmem, hst⟩
    · exact .inl (Module.clockStopped_coreFault hi h (hl j List.mem_cons_self) _ _ _ _)
    · by_cases e : i = j
      · subst e
        exact .inl ⟨Module.core_coreFault_self hst _ _ _ _, Module.faultCode_coreFault_self hi hst _ _ _ _⟩
      · have ne : b + i ≠ b + j := by omega
        refine .inr ⟨(List.mem_cons.1 hmem).resolve_left e, ?_⟩
        rwa [Module.core_coreFault_ne ne]

/-- A die that stops: every core of it that ran or waited has the clock-loss fault. -/
theorem Module.clockStopped_stopDie {d i : Nat} (hd : d < 4) (hi : i < 144)
    (h : (m.core (144 * d + i)).st = .running ∨ (m.core (144 * d + i)).st = .waiting) : (m.stopDie d).clockStopped (144 * d + i) := by
  rw [Module.stopDie_eq]
  refine Module.clockStopped_stopCores (fun j hj => ?_) (by omega) (.inr ⟨List.mem_range.2 hi, h⟩)
  have := List.mem_range.1 hj
  omega

end Sys2Proof.Machine
end

section
/-! SUPPORT. Loss and return of a clock, one rule per outcome. -/

namespace Sys2Proof.Machine

variable (m : Module)

/-- Modules whose memories hold the same have the same memory. -/
theorem sameMem_of_contents {m m' : Module} (h : m'.contents = m.contents) : Claim.SameMem m m' := by
  have hmem : m'.mem = m.mem := congrArg Contents.mem h
  have hpoison : m'.poison = m.poison := congrArg Contents.poison h
  have hlost : m'.nearLost = m.nearLost := congrArg Contents.nearLost h
  have hfill (c : Nat) : (m'.slice c).fill = (m.slice c).fill := congrFun (congrArg Contents.fill h) c
  exact ⟨fun k => Module.byte_congr hmem hfill hlost k, fun w => by rw [hpoison]⟩

/-! The three commands of the clocks, by what stands in `lockLost`. -/

theorem exec_clockLoss_none {d : Domain} {s : State} (h : s.m.stage = 0 ∨ domainId d ∈ s.m.lockLost) : exec (.clockLoss d) s = s.done s.m := by
  simp only [exec, execClockLoss]
  rw [if_pos (by simpa using h)]

theorem exec_clockLoss_hub {s : State} (hs : s.m.stage ≠ 0) (h : domainId .s ∉ s.m.lockLost) :
    exec (.clockLoss .s) s = s.done (s.m.moduleReset true) := by
  simp only [exec, execClockLoss]
  rw [if_neg (by simp [hs, h]), if_true]

theorem exec_clockLoss {d : Domain} {s : State} (hs : s.m.stage ≠ 0) (h : domainId d ∉ s.m.lockLost) (hd : d ≠ .s) :
    exec (.clockLoss d) s = s.done ((s.m.noteClock d).loseClock d) := by
  simp only [exec, execClockLoss]
  rw [if_neg (by simp [hs, h]), if_neg hd]

theorem exec_clockLockReturn_none {d : Domain} {s : State} (h : domainId d ∉ s.m.lockLost) : exec (.clockLockReturn d) s = s.done s.m := by
  simp only [exec, execClockLockReturn]
  rw [if_pos (by simpa using h)]

/-- A module that takes a domain out of those that lost their lock. -/
def Module.regain (m : Module) (d : Domain) : Module := { m with lockLost := NSet.erase m.lockLost (domainId d) }

/-- What the return of a domain's lock leads to. -/
def Module.lockReturned (m : Module) (d : Domain) : Module :=
  match d with
  | .a e | .m e => ((m.regain d).settle m .other e).lockBack e
  | .n e => if e.val < 4 then ((m.regain d).settle m .other e).lockBack e else ((m.regain d).settle m .other e).flushClock
  | .f j => (m.regain d).flushFar j
  | .l p => ((m.regain d).portCount p).reselect
  | .d e => if e.val = 4 then (m.regain d).applyRole false
    else { (m.regain d).wr F.DAT_DSTS_TRACK e 1 with datum := Tbl.set 0 m.datum e (m.datumOf 4) }
  | .p | .s | .u | .k _ => m.regain d

theorem exec_clockLockReturn {d : Domain} {s : State} (h : domainId d ∈ s.m.lockLost) :
    exec (.clockLockReturn d) s = s.done (s.m.lockReturned d) := by
  simp only [exec, execClockLockReturn]
  rw [if_neg (by simpa using h)]
  cases d <;> rfl

/-- A loss marks its domain. -/
theorem Module.mem_lockLost_loseClock (d : Domain) : domainId d ∈ (m.loseClock d).lockLost := by
  have hx : domainId d ∈ NSet.insert m.lockLost (domainId d) := (NSet.mem_insert _ _ _).2 (.inl rfl)
  unfold Module.loseClock
  cases d with
  | n e => dsimp only; rw [Module.settle_lockLost]; split <;> simp [hx]
  | d e => dsimp only; split <;> simp [hx]
  | u => dsimp only; split <;> simp [hx]
  | _ => simp [hx]

/-- A die whose mesh, memory or array clock is lost: every core of it that ran or waited has stopped. -/
theorem Module.clockStopped_loseClock {d : Domain} {e : LogicDie} (hd : d = .a e ∨ d = .m e ∨ ∃ x : DieId, d = .n x ∧ x.val = e.val) {i : Nat}
    (hi : i < 144) (h : (m.core (144 * e + i)).st = .running ∨ (m.core (144 * e + i)).st = .waiting) :
    (m.loseClock d).clockStopped (144 * e + i) := by
  have he : e.val < 4 := e.isLt
  have stopped (n old : Module) (u : Nat) (hn : n.cores = m.cores) : ((n.stopDie e).settle old .other u).clockStopped (144 * e + i) := by
    have hc : n.core (144 * e + i) = m.core (144 * e + i) := by simp [Module.core, hn]
    obtain ⟨hst, hcode⟩ := Module.clockStopped_stopDie (m := n) he hi (by rwa [hc])
    refine ⟨?_, by rw [Module.faultCode_settle (by omega), hcode]⟩
    rw [Module.core, Module.settle_cores]
    exact hst
  rcases hd with rfl | rfl | ⟨x, rfl, hx⟩
  · exact stopped _ _ _ rfl
  · exact stopped _ _ _ rfl
  · unfold Module.loseClock
    dsimp only
    rw [if_pos (by omega), hx]
    exact stopped _ _ _ rfl

/-- Nothing waits for a clock, so the return lets nothing go on. -/
theorem Module.flushClock_none (h : m.clkHeld = []) : m.flushClock = m := by simp [Module.flushClock, h]

theorem Module.lockBack_none (h : Claim.NoneHeld m) (d : Nat) : m.lockBack d = m := by
  obtain ⟨hclk, hheld⟩ := h
  rw [Module.lockBack, m.flushClock_none hclk]
  exact List.foldlRecOn (List.range 144) _ (motive := fun n => n = m) rfl fun n hn i _ => by
    rw [hn, Module.flushReads]
    simp [hheld]

theorem noneHeld_settle {m n : Module} (h : Claim.NoneHeld m) (hclk : n.clkHeld = m.clkHeld) (hslices : n.slices = m.slices) (old : Module)
    (cause : FpCause) (unit : Nat) : Claim.NoneHeld (n.settle old cause unit) := by
  obtain ⟨h₁, h₂⟩ := h
  refine ⟨by simp [hclk, h₁], fun t => ?_⟩
  rw [← h₂ t]
  simp [Module.slice, hslices]

/-- Where nothing is held, the return of a lock takes its domain out and leaves memory and the cores. -/
theorem Module.lockReturned_frame {d : Domain} (hd : ∀ j, d ≠ .f j) (h : Claim.NoneHeld m) :
    domainId d ∉ (m.lockReturned d).lockLost ∧ Claim.SameMem m (m.lockReturned d) ∧ (m.lockReturned d).cores = m.cores := by
  have hgone : domainId d ∉ (m.regain d).lockLost := fun hm => ((NSet.mem_erase _ _ _).1 hm).1 rfl
  have hcont : (m.regain d).contents = m.contents := rfl
  have hcores : (m.regain d).cores = m.cores := rfl
  have held (u : Nat) := noneHeld_settle (n := m.regain d) h rfl rfl m .other u
  suffices key : (m.lockReturned d).lockLost = (m.regain d).lockLost ∧ (m.lockReturned d).contents = (m.regain d).contents ∧
      (m.lockReturned d).cores = (m.regain d).cores by
    obtain ⟨h₁, h₂, h₃⟩ := key
    exact ⟨h₁ ▸ hgone, sameMem_of_contents (h₂.trans hcont), h₃.trans hcores⟩
  unfold Module.lockReturned
  cases d with
  | a e => dsimp only; rw [Module.lockBack_none _ (held e)]; simp
  | m e => dsimp only; rw [Module.lockBack_none _ (held e)]; simp
  | n e =>
    dsimp only
    rw [Module.lockBack_none _ (held e), Module.flushClock_none _ (held e).1]
    split <;> simp
  | f j => exact absurd rfl (hd j)
  | d e => dsimp only; split <;> simp
  | l p => simp
  | _ => simp

theorem exec_farLockTimeout {f : FarId} {s : State} (h : 32 + f.val ∈ s.m.lockLost) (hf : (s.m.far f).lost = false) :
    exec (.farLockTimeout f) s = s.done (s.m.loseFar f) := by
  simp [exec, execFarLockTimeout, h, hf]

theorem exec_farLockTimeout_none {f : FarId} {s : State} (h : 32 + f.val ∉ s.m.lockLost ∨ (s.m.far f).lost = true) :
    exec (.farLockTimeout f) s = s.done s.m := by
  rcases h with h | h <;> simp [exec, execFarLockTimeout, h]

/-- A far device is lost where nothing waits at it or for its words. -/
theorem Module.lost_loseFar (j : Nat) (hheld : (m.far j).held = []) (hslow : m.slowOf j = []) (hback : Tbl.get [] m.slowBack j = []) :
    ((m.loseFar j).far j).lost = true := by
  have hq : (Module.takeSlow (m.setFar j { m.far j with lost := true, retraining := false }) j).2 = [] := by
    simp only [Module.slowOf] at hslow
    simp [Module.takeSlow, Module.slowOf, Module.setFar, hslow, hback]
  have hfar : (Module.takeSlow (m.setFar j { m.far j with lost := true, retraining := false }) j).1.far j =
      { m.far j with lost := true, retraining := false } :=
    (rfl : _ = (m.setFar j { m.far j with lost := true, retraining := false }).far j).trans (m.far_setFar_self j _)
  unfold Module.loseFar
  dsimp only
  rw [hq, Module.flushFar, hfar]
  simp only [hheld]
  rw [Module.far, Module.settle_fars]
  exact congrArg FarDev.lost (Module.far_setFar_self _ j _)

end Sys2Proof.Machine
end

section
/-! R32: loss and return of lock. -/

namespace Sys2Proof.Proofs

open Sys2Proof.Machine Sys2Proof.Claim

/-- Settles O31: each command by what stands in `lockLost`; a loss stops the cores of its die one after another, and where nothing is held
the return of a lock has nothing to let go on. -/
theorem clockResults : Obligations.ClockResults := by
  unfold Obligations.ClockResults
  intro d s
  refine ⟨exec_clockLoss_none, exec_clockLockReturn_none, fun hs h => ⟨?_, fun hd => ?_⟩, fun h => ⟨?_, ?_, ?_, ?_, fun hd hheld => ?_⟩,
    fun f => ⟨fun hf hlost => ?_, exec_farLockTimeout_none⟩⟩
  · rintro rfl
    exact exec_clockLoss_hub hs h
  · refine ⟨_, exec_clockLoss hs h hd, Module.mem_lockLost_loseClock _ d, sameMem_of_contents (by simp), fun e he i hi hst => ?_⟩
    refine Module.clockStopped_loseClock _ he hi ?_
    rw [Module.core, Module.noteClock_cores]
    exact hst
  · rintro j rfl
    exact exec_clockLockReturn h
  · rintro (rfl | rfl | rfl | ⟨k, rfl⟩) <;> exact exec_clockLockReturn h
  · rintro e (rfl | rfl | ⟨y, rfl, hy⟩)
    · exact exec_clockLockReturn h
    · exact exec_clockLockReturn h
    · refine (exec_clockLockReturn h).trans ?_
      simp only [Module.lockReturned, hy, if_pos e.isLt]
      rfl
  · rintro y rfl hy
    refine (exec_clockLockReturn h).trans ?_
    simp only [Module.lockReturned, hy]
    rfl
  · exact ⟨_, exec_clockLockReturn h, s.m.lockReturned_frame hd hheld⟩
  · exact ⟨exec_farLockTimeout hf hlost, s.m.lost_loseFar f⟩

end Sys2Proof.Proofs
end

section
/-! SUPPORT. A request at its requester interface: its stamp, and whether it is issued, held or launched. -/

namespace Sys2Proof.Machine

variable (m : Module)

/-- A packet as its requester interface takes it: with the fare and the channel of its stamp. -/
def Module.issued (m : Module) (p : Packet) : Packet :=
  { p with fare := BitVec.ofNat 8 (m.stamp p.src.toNat p.addr (m.fareNow p.src.toNat)).tag, vc := Claim.channel m p }

/-- A packet as its requester interface sends it: with its deadline too. -/
def Module.sentAs (m : Module) (p : Packet) : Packet := m.stamped (m.issued p)

/-- Stamps leave what a packet asks for. -/
theorem Module.sentAs_eq (p : Packet) : ∃ f d, m.sentAs p = { p with fare := f, vc := Claim.channel m p, deadline := d } := by
  unfold Module.sentAs Module.stamped
  split
  · exact ⟨_, _, rfl⟩
  · next h =>
    have h : ¬ p.src.toNat < 576 := h
    have hvc : Fin.ofNat 4 (m.stamp p.src.toNat p.addr (m.issued p).fare.toNat).vc = Claim.channel m p := by
      simp [Claim.channel, Module.stamp, h]
    exact ⟨_, _, by rw [← hvc]; rfl⟩

@[simp] theorem Module.sentAs_src (p : Packet) : (m.sentAs p).src = p.src := by
  obtain ⟨f, d, h⟩ := m.sentAs_eq p
  rw [h]

@[simp] theorem Module.sentAs_tag (p : Packet) : (m.sentAs p).tag = p.tag := by
  obtain ⟨f, d, h⟩ := m.sentAs_eq p
  rw [h]

@[simp] theorem Module.sentAs_addr (p : Packet) : (m.sentAs p).addr = p.addr := by
  obtain ⟨f, d, h⟩ := m.sentAs_eq p
  rw [h]

@[simp] theorem Module.sentAs_len (p : Packet) : (m.sentAs p).len = p.len := by
  obtain ⟨f, d, h⟩ := m.sentAs_eq p
  rw [h]

@[simp] theorem Module.sentAs_data (p : Packet) : (m.sentAs p).data = p.data := by
  obtain ⟨f, d, h⟩ := m.sentAs_eq p
  rw [h]

@[simp] theorem Module.sentAs_vc (p : Packet) : (m.sentAs p).vc = Claim.channel m p := by
  obtain ⟨f, d, h⟩ := m.sentAs_eq p
  rw [h]

@[simp] theorem Module.ruleOf_sentAs (p : Packet) : m.ruleOf (m.sentAs p) = m.ruleOf p := by
  simp [Module.ruleOf]

/-! What a requester interface does with a request: it issues none, holds it, or launches it. -/

theorem Module.inject_of_not_mayIssue {op : Nat} {p : Packet} (h : m.mayIssue op p = false) : m.inject op p = m := by
  simp [Module.inject, h]

/-- A module that holds a request for its bucket. -/
def Module.holdAt (m : Module) (op : Nat) (p : Packet) : Module :=
  { m with qos := { m.qos with
      held := Tbl.upd [] m.qos.held (bucketKey (srcIface p.src.toNat none) (Claim.channel m p)) (· ++ [(op, m.issued p)]) } }

theorem Module.inject_of_not_free {op : Nat} {p : Packet} (h : m.mayIssue op p = true) (hf : ¬Claim.Free m p op) :
    m.inject op p = m.holdAt op p := by
  have hc : m.charged op (m.issued p) = m.charged op p := rfl
  unfold Module.inject
  rw [if_neg (by simp [h])]
  refine if_neg fun hyes => hf ?_
  simp only [Bool.and_eq_true, List.isEmpty_iff, Bool.not_eq_true'] at hyes
  obtain ⟨⟨hheld, hwait⟩, htok⟩ := hyes
  exact ⟨hheld, hwait, htok⟩

theorem Module.inject_of_free {op : Nat} {p : Packet} (h : m.mayIssue op p = true) (hf : Claim.Free m p op) :
    m.inject op p = m.launch op (m.issued p) [] := by
  obtain ⟨hheld, hwait, htok⟩ := hf
  unfold Module.inject
  rw [if_neg (by simp [h])]
  refine if_pos ?_
  simp only [Bool.and_eq_true, List.isEmpty_iff, Bool.not_eq_true']
  exact ⟨⟨hheld, hwait⟩, htok⟩

/-- What the interface draws from its bucket for a unicast request. -/
def Module.drawnFor (m : Module) (op : Nat) (p : Packet) : Module :=
  m.draw (srcIface p.src.toNat none) (Claim.channel m p) (flitCharge (min op 3) p.len 1)

/-- A request that no multicast rule covers is stopped at its source, or goes on its way. -/
theorem Module.launch_issued {op : Nat} {p : Packet} (h : op = 1 → m.ruleOf p = none) :
    m.launch op (m.issued p) [] =
      match m.sourceCheck p.src.toNat p.addr p.len (opRight op) with
      | .error e => m.stopAtSource op (m.sentAs p) e
      | .ok x => (m.drawnFor op p).unicast op (m.sentAs p) x := by
  have hrule : (if op = 1 then m.ruleOf (m.sentAs p) else none) = none := by
    rw [m.ruleOf_sentAs]
    split
    · exact h ‹_›
    · rfl
  have hsentAs : m.stamped (m.issued p) = m.sentAs p := rfl
  unfold Module.launch
  dsimp only
  rw [hsentAs, hrule]
  simp only [Module.sentAs_addr, Module.sentAs_len, Module.sentAs_vc]
  rfl

end Sys2Proof.Machine
end

section
/-! SUPPORT. A request that its source stops, and one on its way: what each changes. -/

namespace Sys2Proof.Machine

variable (m : Module)

/-! What does not depend on the registers that a count moves. -/

theorem Module.tripped_congr {m m' : Module} (hsvc : m'.svc = m.svc) (hstage : m'.rd F.BRG_MOD_STS_STAGE 4 = m.rd F.BRG_MOD_STS_STAGE 4) :
    m'.tripped = m.tripped := by
  simp [Module.tripped, hsvc, hstage]

/-- Counting in a register of another kind leaves the stage. -/
theorem Module.tripped_bump {f : RegField} {u : Nat} (hf : f.lo + f.width ≤ 32) (hreg : F.BRG_MOD_STS_STAGE.reg ≠ f.reg) (hu : u < 1024) :
    (m.bump f u).tripped = m.tripped := by
  refine Module.tripped_congr rfl ?_
  unfold Module.bump Module.bumpBy
  exact m.rd_wr_ne _ hf hu (by decide) (by decide) (by decide) (.inl fun h => hreg h.1)

/-- A counter counts up to its greatest value. -/
theorem Module.rd_bump_self {f : RegField} {u : Nat} (hf : f.lo + f.width ≤ 32) :
    (m.bump f u).rd f u = min (2 ^ f.width - 1) (m.rd f u + 1) := by
  unfold Module.bump Module.bumpBy
  rw [m.rd_wr_self f u _ 0 hf]
  refine Nat.mod_eq_of_lt ?_
  have : 0 < 2 ^ f.width := Nat.two_pow_pos _
  omega

/-- A count changes the register that counts. -/
theorem sameRegs_bump {f : RegField} {u : Nat} (hu : u < 1024) : Claim.SameRegs m (m.bump f u) [(f.reg, u)] := by
  intro r v i hv hi hne
  unfold Module.bump Module.bumpBy
  refine m.word_wr_ne _ hu hv (by decide) hi ?_
  rintro ⟨rfl, rfl, -⟩
  simp at hne

theorem sameRegs_of_regs {m m' : Module} (h : m'.regs = m.regs) : Claim.SameRegs m m' [] := fun r u i _ _ _ => Module.word_congr h r u i

/-- A module that is not tripped lets out what it emits. -/
theorem Module.emit_outbox_of_not_tripped {m : Module} (h : m.tripped = false) (o : Out) : (m.emit o).outbox = o :: m.outbox := by
  simp [Module.emit, h]

@[simp] theorem Module.dropOutst_regs (src tag : Nat) : (m.dropOutst src tag).regs = m.regs := rfl
@[simp] theorem Module.dropOutst_outbox (src tag : Nat) : (m.dropOutst src tag).outbox = m.outbox := rfl
@[simp] theorem Module.dropOutst_resp (src tag : Nat) : (m.dropOutst src tag).net.resp = m.net.resp := rfl
@[simp] theorem Module.dropOutst_tripped (src tag : Nat) : (m.dropOutst src tag).tripped = m.tripped := rfl

/-- A request that was dropped is outstanding no more. -/
@[simp] theorem Module.has_dropOutst (src tag : Nat) : (m.dropOutst src tag).net.has src tag = false := by
  simp only [Net.has, Module.dropOutst, List.any_eq_false, List.mem_filter]
  rintro o ⟨-, ho⟩
  simpa only [Bool.not_eq_true', Bool.not_eq_true] using ho

/-! The completion of a request at an interface of the module. -/

theorem Module.completeAt_eq {src : Nat} (hsrc : src ≠ reqCompanion) (tag status : Nat) (data : List Byte) (read : Bool) (poison : List Bool)
    (vc : Fin 4) : m.completeAt src tag status data read poison vc = (m.dropOutst src tag).emit (.complete src tag status data) :=
  if_neg hsrc

/-- A link that is down is counted at a core's position. -/
def Module.countLinkDown (m : Module) (src status : Nat) : Module :=
  if status = St.linkDown ∧ src < 576 then m.bump F.NOC_LINKDOWN_CNT_COUNT src else m

theorem Module.countLinkDown_frame (src status : Nat) :
    (m.countLinkDown src status).net = m.net ∧ (m.countLinkDown src status).outbox = m.outbox ∧
    (m.countLinkDown src status).tripped = m.tripped ∧ (m.countLinkDown src status).contents = m.contents := by
  unfold Module.countLinkDown
  split
  · next h => exact ⟨rfl, rfl, m.tripped_bump (by decide) (by decide) (by omega), by simp⟩
  · exact ⟨rfl, rfl, rfl, rfl⟩

theorem sameRegs_countLinkDown (src status : Nat) :
    Claim.SameRegs m (m.countLinkDown src status) (if status = St.linkDown then [(.NOC_LINKDOWN_CNT, src)] else []) := by
  unfold Module.countLinkDown
  split
  · next h =>
    rw [if_pos h.1]
    exact sameRegs_bump m (by omega)
  · exact fun r u i _ _ _ => rfl

theorem Module.rd_countLinkDown {src : Nat} (hsrc : src < 576) :
    (m.countLinkDown src St.linkDown).rd F.NOC_LINKDOWN_CNT_COUNT src = min (2 ^ 32 - 1) (m.rd F.NOC_LINKDOWN_CNT_COUNT src + 1) := by
  unfold Module.countLinkDown
  rw [if_pos ⟨rfl, hsrc⟩]
  exact m.rd_bump_self (by decide)

theorem Module.stopAtSource_eq (op : Nat) {p : Packet} (hsrc : p.src.toNat ≠ reqCompanion) (status : Nat) :
    m.stopAtSource op p status =
      if op = 2 then m.countLinkDown p.src.toNat status
      else ((m.countLinkDown p.src.toNat status).dropOutst p.src.toNat p.tag).emit (.complete p.src.toNat p.tag status []) := by
  unfold Module.stopAtSource
  dsimp only
  rw [Module.completeAt_eq _ hsrc]
  rfl

/-- A request stopped at its source: it completes there unless it is posted, and a link that is down is counted. -/
theorem Module.stopAtSource_frame (op : Nat) {p : Packet} (hsrc : p.src.toNat ≠ reqCompanion) (status : Nat) (htrip : m.tripped = false)
    (hhas : m.net.has p.src.toNat p.tag = false) :
    let m' := m.stopAtSource op p status
    m'.contents = m.contents ∧ m'.regs = (m.countLinkDown p.src.toNat status).regs ∧ m'.net.resp = m.net.resp ∧
      m'.net.has p.src.toNat p.tag = false ∧
      m'.outbox = if op = 2 then m.outbox else .complete p.src.toNat p.tag status [] :: m.outbox := by
  obtain ⟨hnet, hout, htr, hcont⟩ := m.countLinkDown_frame p.src.toNat status
  rw [Module.stopAtSource_eq m op hsrc]
  dsimp only
  split
  · exact ⟨hcont, rfl, by rw [hnet], by rw [hnet, hhas], hout⟩
  · have hdrop : ((m.countLinkDown p.src.toNat status).dropOutst p.src.toNat p.tag).tripped = false := by
      rw [Module.dropOutst_tripped, htr, htrip]
    refine ⟨by simpa using hcont, by simp, by simp [hnet], by simp, ?_⟩
    rw [Module.emit_outbox_of_not_tripped hdrop, Module.dropOutst_outbox, hout]

/-! A request on its way: the source has drawn from a bucket, noted it as outstanding, and its flits are counted. -/

/-- A module that differs in its buckets, its outstanding requests and its counts of flits. -/
def Module.sending (m : Module) (q : Qos) (o : List Outst) (f : Tbl Nat) : Module :=
  { m with qos := q, net := { m.net with outst := o }, flits := f }

theorem Module.drawnFor_eq (op : Nat) (p : Packet) : ∃ q, m.drawnFor op p = { m with qos := q } := by
  unfold Module.drawnFor Module.draw
  split
  · exact ⟨_, rfl⟩
  · exact ⟨_, rfl⟩

theorem Module.noteOutst_eq (src tag : Nat) (read : Bool) : ∃ o, m.noteOutst src tag read = { m with net := { m.net with outst := o } } := by
  unfold Module.noteOutst
  split
  · exact ⟨_, rfl⟩
  · exact ⟨_, rfl⟩

/-- A unicast request with its path, as it goes to a site. -/
def Module.onItsWay (m : Module) (op : Nat) (p : Packet) (x : Site) : Waiting :=
  ⟨op, { p with head := m.headOf op p x (destRouter p.addr x) false }, Claim.way m p x, none, none⟩

@[simp] theorem Module.way_sentAs (p : Packet) (x : Site) : Claim.way m (m.sentAs p) x = Claim.way m p x := by
  simp [Claim.way]

theorem Module.unicast_eq (op : Nat) (p y : Packet) (x : Site) :
    ∃ q o f, (m.drawnFor op p).unicast op y x = (m.sending q o f).onPath (m.onItsWay op y x) := by
  obtain ⟨q, hq⟩ := m.drawnFor_eq op p
  obtain ⟨o, ho⟩ := Module.noteOutst_eq { m with qos := q } y.src.toNat y.tag (op == 0)
  unfold Module.unicast
  dsimp only
  rw [hq, ho]
  split
  · exact ⟨q, m.net.outst, m.flits, rfl⟩
  · exact ⟨q, o, m.flits, rfl⟩

/-- A request whose path is held waits there. -/
theorem Module.onPath_of_held {w : Waiting} (h : m.pathTests w.path = true) :
    m.onPath w = { m with net := { m.net with wait := m.net.wait ++ [w] } } := by
  simp [Module.onPath, h]

/-- On a clear mesh a path holds nothing. -/
theorem Module.onPath_of_clear {w : Waiting} (h : Claim.ClearWays m) (hw : w.multi = none) : m.onPath w = m.pass w := by
  obtain ⟨hlock, hret, hwait, hlink⟩ := h
  have htests : m.pathTests w.path = false := by simp [Module.pathTests, Module.nodeHeld, hlock, hlink]
  have hheld : m.pathHeld w.path w.packet.vc = false := by simp [Module.pathHeld, hret, Tbl.get]
  unfold Module.onPath
  refine if_neg ?_
  simp [hwait, htests, hheld, hw]

end Sys2Proof.Machine
end

section
/-! SUPPORT. Atomic operations at scratch, which serves none. -/

namespace Sys2Proof.Machine

variable (m : Module)

/-- No word needs a slow path where no stored code is wrong. -/
theorem Module.needsSlow_of_clean (h : m.wordErr = []) (w : Nat) : m.needsSlow w = false := by
  unfold Module.needsSlow
  cases hw : isScrWord w with
  | true => simp
  | false => simp [Module.wordClass, hw, h, patOf, lightClass]

/-- Where nothing makes an access of memory wait, a write of scratch does not wait. -/
theorem Module.holds_scratch (hlock : m.lockLost = []) (hrep : m.repairs = []) (herr : m.wordErr = []) (c o k n : Nat) (ran : List Nat) :
    m.holds (.scratch c o) k n true ran = none := by
  have hclock : m.clockWaits (.scratch c o) = false := by simp [Module.clockWaits, hlock]
  have hrepair : m.repairHolds (.scratch c o) = none := by simp [Module.repairHolds, hrep, Tbl.get]
  have hslow : m.slowWords (.scratch c o) k n true ran .cache = [] := by simp [Module.slowWords, m.needsSlow_of_clean herr]
  simp [Module.holds, hclock, hrepair, hslow, Module.cleaned]

/-- An atomic operation at scratch is answered UNSUPPORTED (R329). -/
theorem Module.deliver_scratch_atomic {h : HeldReq} {c o : Nat} (hsite : m.site h.addr = .ok (.scratch c o)) (hop : 3 ≤ h.op)
    (hst : m.siteStatus h.by (.scratch c o) h.size = St.ok) (hhold : m.holds (.scratch c o) (scrKey c o) h.size true h.ran = none) :
    m.deliver h = m.answer h St.unsupported := by
  have hread : h.isRead = false := by simp [HeldReq.isRead]; omega
  have hperform : m.perform h (.scratch c o) (scrKey c o) = (m, St.unsupported, [], []) := by
    unfold Module.perform
    split
    · omega
    · omega
    · omega
    · rfl
  simp [Module.deliver, hsite, hst, Site.key, hread, hhold, Site.target, Module.finish, hperform]

/-- A request that waits on its path: memory, answers and the outbox stay, and what waits is the request. -/
theorem Module.launch_held {op : Nat} {p : Packet} {x : Site} (hrule : op = 1 → m.ruleOf p = none)
    (hcheck : m.sourceCheck p.src.toNat p.addr p.len (opRight op) = .ok x) (hpath : m.pathTests (Claim.way m p x) = true) :
    ∃ q o f w, m.launch op (m.issued p) [] = { m.sending q o f with net := { (m.sending q o f).net with wait := m.net.wait ++ [w] } } ∧
      w.op = op ∧ w.packet.src = p.src ∧ w.packet.tag = p.tag ∧ w.packet.addr = p.addr ∧ w.packet.data = p.data := by
  obtain ⟨q, o, f, h⟩ := m.unicast_eq op p (m.sentAs p) x
  have hheld : (m.sending q o f).pathTests (m.onItsWay op (m.sentAs p) x).path = true := by
    refine Eq.trans ?_ hpath
    rw [← m.way_sentAs]
    rfl
  refine ⟨q, o, f, m.onItsWay op (m.sentAs p) x, ?_, ?_⟩
  · rw [m.launch_issued hrule, hcheck]
    dsimp only
    rw [h, Module.onPath_of_held _ hheld]
    rfl
  · simp [Module.onItsWay]

theorem Module.site_of_sourceCheck {src a n right : Nat} {x : Site} (h : m.sourceCheck src a n right = .ok x) : m.site a = .ok x := by
  unfold Module.sourceCheck at h
  split at h
  · cases h
  · split at h
    · cases h
    · next y hy =>
      split at h
      · cases h
      · rw [hy, h]

/-- The endpoint's answer to a request whose links are up. -/
theorem Module.answer_eq {h : HeldReq} (htag : h.packet.tag < txTag) (hop : h.op ≠ 2) (hlinks : Claim.LinksUp m h.path) (status : Nat)
    (data : List Byte) (poison : List Bool) :
    m.answer h status data poison = { m with net := { m.net with resp := m.net.resp ++
      [⟨h.packet.src.toNat, h.packet.tag, h.isRead, status, data, poison, h.target, h.packet.vc, h.answerer, h.path⟩] } } := by
  unfold Module.answer
  rw [if_neg (by omega), if_neg hop]
  unfold Module.respond
  exact if_pos (List.all_eq_true.2 hlinks)

/-- An atomic operation that comes to a scratch is answered UNSUPPORTED (R329). -/
theorem Module.pass_scratch_atomic {w : Waiting} {c o : Nat} (hmulti : w.multi = none) (hop : 3 ≤ w.op) (htag : w.packet.tag < txTag)
    (hpart : w.part = none) (hsite : m.site w.packet.addr = .ok (.scratch c o)) (hlinks : Claim.LinksUp m w.path)
    (hst : m.siteStatus w.packet.src.toNat (.scratch c o) w.packet.len = St.ok) (hquiet : Claim.Quiet m) :
    ∃ f from', m.pass w = { m with flits := f, net := { m.net with resp := m.net.resp ++
      [⟨w.packet.src.toNat, w.packet.tag, false, St.unsupported, [], [], c, w.packet.vc, from', w.path⟩] } } := by
  obtain ⟨hways, herr, -, -, hrep, -, -⟩ := hquiet
  obtain ⟨f, hf⟩ : ∃ f, m.noteFlits w.path w.packet.vc (requestFlits (min w.op 3) w.packet.len) = { m with flits := f } := ⟨_, rfl⟩
  let n : Module := { m with flits := f }
  let h : HeldReq := ⟨w.packet, w.op, w.packet.addr, c, w.path, [], none⟩
  have hpass : m.pass w = n.deliver h := by
    unfold Module.pass
    dsimp only
    rw [hmulti, hf, hpart]
    dsimp only
    rw [show Module.site n w.packet.addr = _ from hsite]
    rfl
  have hread : h.isRead = false := by
    simp only [HeldReq.isRead, beq_eq_false_iff_ne]
    exact fun e => by simp only [h] at e; omega
  refine ⟨f, h.answerer, ?_⟩
  rw [hpass, n.deliver_scratch_atomic (h := h) hsite hop hst (n.holds_scratch hways.1 hrep herr _ _ _ _ _),
    n.answer_eq (h := h) htag (fun e => by simp only [h] at e; omega) hlinks, hread]

/-- An atomic operation for scratch is answered UNSUPPORTED, on its channel (R329). -/
theorem Module.launch_scratch_atomic {op : Nat} {p : Packet} {c o : Nat} (hop : 3 ≤ op) (htag : p.tag < txTag)
    (hcheck : m.sourceCheck p.src.toNat p.addr p.len (opRight op) = .ok (.scratch c o)) (hlinks : Claim.LinksUp m (Claim.way m p (.scratch c o)))
    (hst : m.siteStatus p.src.toNat (.scratch c o) p.len = St.ok) (hquiet : Claim.Quiet m) :
    let m' := m.launch op (m.issued p) []
    m'.contents = m.contents ∧ Claim.Answers m m' p false St.unsupported [] [] := by
  obtain ⟨q, out, f, h⟩ := m.unicast_eq op p (m.sentAs p) (.scratch c o)
  let w := m.onItsWay op (m.sentAs p) (.scratch c o)
  have hsrc : w.packet.src = p.src := m.sentAs_src p
  have hwtag : w.packet.tag = p.tag := m.sentAs_tag p
  have haddr : w.packet.addr = p.addr := m.sentAs_addr p
  have hlen : w.packet.len = p.len := m.sentAs_len p
  have hvc : w.packet.vc = Claim.channel m p := m.sentAs_vc p
  have hway : w.path = Claim.way m p (.scratch c o) := m.way_sentAs p _
  obtain ⟨f', from', hpass⟩ := Module.pass_scratch_atomic (m.sending q out f) (w := w) (c := c) (o := o) rfl hop (hwtag ▸ htag) rfl
    (by rw [haddr]; exact m.site_of_sourceCheck hcheck) (by rw [hway]; exact hlinks) (by rw [hsrc, hlen]; exact hst) hquiet
  have hlaunch : m.launch op (m.issued p) [] = (m.sending q out f).pass w := by
    rw [m.launch_issued (by omega), hcheck]
    dsimp only
    rw [h]
    exact Module.onPath_of_clear _ hquiet.1 rfl
  dsimp only
  rw [hlaunch, hpass]
  exact ⟨rfl, _, rfl, congrArg BitVec.toNat hsrc, hwtag, rfl, rfl, rfl, rfl, congrArg Fin.val hvc⟩

end Sys2Proof.Machine
end

section
/-! SUPPORT. The commands that make requests, by operation. -/

namespace Sys2Proof.Machine

/-- The requests of memory that stand for each kind, each with its operation's number. -/
def memoryRequests (p : Packet) : List (Nat × Instr) :=
  [(0, .meshRead p), (1, .meshWrite p), (2, .pwrite p), (3, .atomicSwap p), (4, .atomicCas p), (5, .atomicAdd p), (13, .fadd p)]

theorem exec_memoryRequest {p : Packet} {op : Nat} {i : Instr} (h : (op, i) ∈ memoryRequests p) (s : State) :
    exec i s = s.done (if packetWf p op then s.m.request op p else s.m) := by
  simp only [memoryRequests, List.mem_cons, Prod.mk.injEq, List.not_mem_nil, or_false] at h
  rcases h with ⟨rfl, rfl⟩ | ⟨rfl, rfl⟩ | ⟨rfl, rfl⟩ | ⟨rfl, rfl⟩ | ⟨rfl, rfl⟩ | ⟨rfl, rfl⟩ | ⟨rfl, rfl⟩ <;> rfl

section
variable {p : Packet} {op : Nat} {i : Instr} {s : State} (hsrc : p.src.toNat ≠ reqCompanion) (hi : (op, i) ∈ memoryRequests p)
include hsrc hi

/-- A position that may not issue a request issues none. -/
theorem to_of_not_mayIssue (h : s.m.mayIssue op p = false) : Claim.To i s s.m := by
  unfold Claim.To
  rw [exec_memoryRequest hi, Module.request, if_neg hsrc, s.m.inject_of_not_mayIssue h, ite_self]
  rfl

theorem does_inject (h : Claim.Issues s.m p op) {P : Module → Prop} (hP : P (s.m.inject op p)) : Claim.Does i s P := by
  refine ⟨_, ?_, hP⟩
  rw [exec_memoryRequest hi, if_pos h.1, Module.request, if_neg hsrc]
  rfl

theorem does_launch (h : Claim.Issues s.m p op) (hfree : Claim.Free s.m p op) {P : Module → Prop}
    (hP : P (s.m.launch op (s.m.issued p) [])) : Claim.Does i s P := by
  obtain ⟨-, hmay, -⟩ := id h
  exact does_inject hsrc hi h (s.m.inject_of_free hmay hfree ▸ hP)

end

/-- A packet of the mesh has a tag of a requester of the module. -/
theorem tag_lt_of_packetWf {p : Packet} {op : Nat} (h : packetWf p op = true) : p.tag < txTag := by
  simp only [packetWf, Bool.and_eq_true, decide_eq_true_eq] at h
  exact Nat.lt_trans h.1.1 (by decide)

/-- A reserved atomic operation completes MALFORMED at its source (R328). -/
theorem exec_atomicReserved {p : Packet} {s : State} (h : Claim.Issues s.m p 3) (op : Fin 5) :
    exec (.atomicReserved p op) s = s.done ((s.m.dropOutst p.src.toNat p.tag).emit (.complete p.src.toNat p.tag St.malformed [])) := by
  obtain ⟨hwf, hmay, hsrc⟩ := h
  simp only [exec, execAtomicReserved]
  rw [if_neg (by simp [hwf, hmay, hsrc]), if_neg hsrc, s.m.completeAt_eq hsrc]

end Sys2Proof.Machine
end

section
/-! SUPPORT. The commands that take answers, and what stands at an interface for a tag. -/

namespace Sys2Proof.Machine

variable (m : Module)

/-- An answer that is taken meets its condition. -/
theorem takeResp_meets {f : Resp → Bool} {before rest : List Resp} {r : Resp} {l : List Resp} (h : takeResp f before rest = some (r, l)) :
    f r = true := by
  induction rest generalizing before with
  | nil => cases h
  | cons x rest ih =>
    unfold takeResp at h
    split at h
    · next hx =>
      split at h
      · cases h
      · cases h
        exact hx
    · exact ih h

/-- No multicast write of a list is the one of a requester and a tag. -/
theorem not_named_of_ne {l : List MWrite} {a tag : Nat} (h : ∀ w ∈ l, w.src ≠ a ∨ w.tag ≠ tag) :
    ∀ w ∈ l, ¬(w.src == a && w.tag == tag) = true := by
  intro w hw e
  simp only [Bool.and_eq_true, beq_iff_eq] at e
  obtain ⟨hsrc, htag⟩ := e
  exact (h w hw).elim (fun n => n hsrc) (fun n => n htag)

/-- The answer that a requester's interface takes, RDATA or WACK. -/
def answerInstr (read : Bool) (src : Requester) (tag : Nat) (target : CoreId) : Instr := if read then .rdata src tag else .wack src tag target

/-- An answer, other than a multicast copy's, arrives unless its path holds it. -/
theorem exec_answer {read : Bool} {src : Requester} {tag : Nat} (target : CoreId) {s : State} {r : Resp} {l : List Resp}
    (h : takeResp (fun x => x.read == read && x.src == src.toNat && x.tag == tag) [] s.m.net.resp = some (r, l))
    (hmw : read = false → ∀ w ∈ s.m.net.mw, w.src ≠ src.toNat ∨ w.tag ≠ tag) :
    exec (answerInstr read src tag target) s = s.done (if s.m.pathTests r.path then s.m else (s.m.leaveMesh r l).takeAnswer r) := by
  cases read with
  | true =>
    simp only [answerInstr, if_true, exec, execRdata]
    simp only [beq_true] at h
    rw [h]
  | false =>
    have hfind : (s.m.net.mw.find? fun w => w.src == src.toNat && w.tag == tag) = none :=
      List.find?_eq_none.2 (not_named_of_ne (hmw rfl))
    simp only [answerInstr, exec, execWack]
    simp only [beq_false] at h
    rw [if_neg (by simp)]
    dsimp only
    rw [hfind]
    dsimp only
    rw [h]

/-- A WACK of the one multicast write that is under way. -/
theorem exec_wack_multi {src : Requester} {tag : Nat} {target : CoreId} {s : State} {w : MWrite} {r : Resp} {l : List Resp}
    (hmw : s.m.net.mw = [w]) (hsrc : w.src = src.toNat) (htag : w.tag = tag)
    (h : takeResp (fun x => (!x.read && x.src == src.toNat && x.tag == tag) && x.target == target.val) [] s.m.net.resp = some (r, l))
    (hpath : s.m.pathTests r.path = false) :
    exec (.wack src tag target) s = s.done ((s.m.leaveMesh r l).takeMulti w r) := by
  have hfind : (s.m.net.mw.find? fun w => w.src == src.toNat && w.tag == tag) = some w := by simp [hmw, hsrc, htag]
  simp only [exec, execWack]
  rw [hfind]
  dsimp only
  rw [h]
  dsimp only
  rw [hpath]
  rfl

/-! An answer at its requester's interface, by what stands there for its tag. -/

theorem Module.takeAnswer_absorbed {r : Resp} (h : m.absorbsAnswers r.src = true) :
    m.takeAnswer r = (m.bump F.NOC_ABSORB_CNT_COUNT r.src).dropOutst r.src r.tag := if_pos h

theorem Module.takeAnswer_eq {r : Resp} (h : m.absorbsAnswers r.src = false) : m.takeAnswer r =
    match m.net.tagState r.src r.tag with
    | none => m.bumpAt F.NOC_LATE_CNT_COUNT r.src
    | some true => m.dropOutst r.src r.tag
    | some false => m.completeAt r.src r.tag r.status r.data r.read r.poison (Fin.ofNat 4 r.vc) := by
  unfold Module.takeAnswer
  rw [h]
  rfl

/-- A multicast write with one more answer: its target waits no longer, and its status counts if it is the worst (R346). -/
def MWrite.answered (w : MWrite) (r : Resp) : MWrite :=
  { w with waiting := w.waiting.filter (· != r.target), worst := worse w.worst r.target r.status }

/-- One more answer of the one multicast write under way. -/
theorem Module.takeMulti_eq {w : MWrite} (r : Resp) (hmw : m.net.mw = [w]) (habs : m.absorbsAnswers w.src = false) :
    m.takeMulti w r =
      if (w.answered r).waiting = [] then
        let m := { m with net := { m.net with mw := [] } }.dropOutst w.src w.tag
        if w.stale then m else m.emit (.completeMulti w.src w.tag (match (w.answered r).worst with | some (_, st) => st | none => St.ok))
      else { m with net := { m.net with mw := [w.answered r] } } := by
  have hothers : (m.net.mw.filter fun x => !(x.src == w.src && x.tag == w.tag)) = [] := by simp [hmw]
  unfold Module.takeMulti
  dsimp only
  rw [hothers, habs]
  simp only [Bool.false_or, List.isEmpty_iff]
  rfl

/-- A multicast write with one more answer: it ends with its last. -/
theorem Module.takeMulti_frame {w : MWrite} (r : Resp) (hmw : m.net.mw = [w]) (habs : m.absorbsAnswers w.src = false)
    (htrip : m.tripped = false) :
    (m.takeMulti w r).net.resp = m.net.resp ∧
      if (w.answered r).waiting = [] then (m.takeMulti w r).net.mw = [] ∧ (m.takeMulti w r).outbox = (if w.stale = true then m.outbox
        else .completeMulti w.src w.tag (match (w.answered r).worst with | some (_, st) => st | none => St.ok) :: m.outbox)
      else (m.takeMulti w r).net.mw = [w.answered r] ∧ (m.takeMulti w r).outbox = m.outbox := by
  rw [m.takeMulti_eq r hmw habs]
  split
  · dsimp only
    split
    · exact ⟨rfl, rfl, rfl⟩
    · exact ⟨rfl, rfl, Module.emit_outbox_of_not_tripped (m := { m with net := { m.net with mw := [] } }.dropOutst w.src w.tag) htrip _⟩
  · exact ⟨rfl, rfl, rfl⟩

/-- A live request of a core times out and is counted (R339). -/
theorem exec_requestTimeout {src : Requester} {tag : Nat} {s : State} (h : s.m.net.tagState src.toNat tag = some false)
    (hmw : ∀ w ∈ s.m.net.mw, w.src ≠ src.toNat ∨ w.tag ≠ tag) (hsrc : src.toNat < 576) :
    exec (.requestTimeout src tag) s = s.done
      (((s.m.bump F.NOC_TIMEOUT_CNT_COUNT src.toNat).dropOutst src.toNat tag).emit (.complete src.toNat tag St.timeout [])) := by
  have hnone : ((s.m.bump F.NOC_TIMEOUT_CNT_COUNT src.toNat).net.mw.any fun w => w.src == src.toNat && w.tag == tag) = false :=
    List.any_eq_false.2 (not_named_of_ne hmw)
  have hport : src.toNat ≠ reqCompanion := by
    unfold reqCompanion
    omega
  have hbump : s.m.bumpAt F.NOC_TIMEOUT_CNT_COUNT src.toNat = s.m.bump F.NOC_TIMEOUT_CNT_COUNT src.toNat := if_pos hsrc
  simp only [exec, execRequestTimeout]
  rw [h]
  dsimp only
  rw [hbump, hnone, if_neg Bool.false_ne_true, Module.completeAt_eq _ hport]

end Sys2Proof.Machine
end

section
/-! The mesh: refusals and answers. -/

namespace Sys2Proof.Proofs

open Sys2Proof.Machine Sys2Proof.Claim

/-- Where a request of memory is refused, held at its source or made to wait. -/
theorem meshRefusals : MeshRefusals := by
  intro p s htrip hsrc
  refine ⟨fun op i e hi => ⟨to_of_not_mayIssue hsrc hi, fun h hfree => ?_, fun h hfree hrule hhas hcheck => ?_,
    fun x h hfree hrule hcheck hpath => ?_⟩, fun op h _ => ?_, fun c o k h => ?_⟩
  · obtain ⟨-, hmay, -⟩ := id h
    refine does_inject hsrc hi h ?_
    rw [s.m.inject_of_not_free hmay hfree]
    exact ⟨⟨s.m.issued p, Tbl.get_set_self .., rfl, rfl, rfl, rfl, rfl⟩, sameMem_of_contents rfl, rfl, rfl, sameRegs_of_regs rfl⟩
  · refine does_launch hsrc hi h hfree ?_
    rw [s.m.launch_issued (fun _ => hrule), hcheck]
    dsimp only
    have hsrc' : (s.m.sentAs p).src.toNat ≠ reqCompanion := by rwa [Module.sentAs_src]
    obtain ⟨hcont, hregs, hresp, hgone, hout⟩ := s.m.stopAtSource_frame op hsrc' e htrip (by simpa using hhas)
    rw [Module.sentAs_src] at hregs hgone hout
    rw [Module.sentAs_tag] at hgone hout
    refine ⟨sameMem_of_contents hcont, hresp, hgone, hout, fun r u i hu hii hne => ?_, fun he hlt => ?_⟩
    · rw [Module.word_congr hregs]
      exact sameRegs_countLinkDown s.m _ _ r u i hu hii hne
    · rw [Module.rd_congr hregs, he]
      exact s.m.rd_countLinkDown hlt
  · refine does_launch hsrc hi h hfree ?_
    obtain ⟨q, o, f, w, hlaunch, hw⟩ := s.m.launch_held (fun _ => hrule) hcheck hpath
    rw [hlaunch]
    exact ⟨sameMem_of_contents rfl, rfl, rfl, w, rfl, hw⟩
  · refine ⟨_, exec_atomicReserved h op, sameMem_of_contents (by simp), rfl, ?_⟩
    exact Module.emit_outbox_of_not_tripped (m := s.m.dropOutst p.src.toNat p.tag) htrip _
  · obtain ⟨hissues, hfree, hcheck, -, hlinks, hst, hquiet, -⟩ := h
    have hissues : Issues s.m p 5 := hissues
    have hadd : (5, Instr.atomicAdd p) ∈ memoryRequests p := by simp [memoryRequests]
    refine does_launch hsrc hadd hissues hfree ?_
    obtain ⟨hcont, hans⟩ := s.m.launch_scratch_atomic (op := 5) (by decide) (tag_lt_of_packetWf hissues.1) hcheck hlinks hst hquiet
    exact ⟨sameMem_of_contents hcont, hans⟩

/-- What an answer and a timeout do at their requester's interface. -/
theorem answerResults : AnswerResults := by
  intro src tag target s htrip
  refine ⟨fun read r l h hmw => ?_, fun w r l hmw hsrc htag habs h hpath => ?_, fun h hmw hsrc => ?_⟩
  · have hmeets := takeResp_meets h
    simp only [Bool.and_eq_true, beq_iff_eq] at hmeets
    obtain ⟨⟨-, hsrc⟩, htag⟩ := hmeets
    have hexec := exec_answer target h hmw
    refine ⟨fun hpath => ?_, fun hpath habs => ?_, fun hpath habs => ?_⟩
    · rw [hpath] at hexec
      exact hexec
    · rw [hpath, Module.takeAnswer_absorbed _ (hsrc ▸ habs), hsrc, htag] at hexec
      exact hexec
    · have htags : (s.m.leaveMesh r l).net.tagState src.toNat tag = s.m.net.tagState src.toNat tag := rfl
      rw [hpath, Module.takeAnswer_eq _ (hsrc ▸ habs), hsrc, htag, htags] at hexec
      refine ⟨fun hlive => ?_, fun hstale => ?_, fun hnone hlt => ?_⟩
      · rw [hlive] at hexec
        exact hexec
      · rw [hstale] at hexec
        exact hexec
      · rw [hnone] at hexec
        dsimp only at hexec
        rw [Module.bumpAt, if_pos hlt] at hexec
        exact hexec
  · have hmeets := takeResp_meets h
    simp only [Bool.and_eq_true, beq_iff_eq] at hmeets
    obtain ⟨-, htarget⟩ := hmeets
    obtain ⟨hresp, hrest⟩ := (s.m.leaveMesh r l).takeMulti_frame r hmw (hsrc ▸ habs) htrip
    refine ⟨_, exec_wack_multi hmw hsrc htag h hpath, hresp, ?_⟩
    rw [hsrc, htag, MWrite.answered, htarget] at hrest
    exact hrest
  · refine ⟨_, exec_requestTimeout h hmw hsrc, ?_, ?_, ?_, ?_⟩
    · rw [Module.emit_net, Module.has_dropOutst]
    · rw [Module.emit_outbox_of_not_tripped]
      · rfl
      · exact (s.m.tripped_bump (by decide) (by decide) (by omega)).trans htrip
    · rw [Module.rd_congr (Module.emit_regs _ _)]
      exact s.m.rd_bump_self (by decide)
    · exact sameMem_of_contents (by simp)

/-- Settles O25: a request is refused, held or made to wait before any memory serves it, and an answer is taken by what stands at its
requester's interface for its tag. -/
theorem refusalsAndAnswers : Obligations.RefusalsAndAnswers := ⟨meshRefusals, answerResults⟩

end Sys2Proof.Proofs
end
